-- ==== Sys2Proof/Word.lean ====
section
/-!
DEFINITION. The word types of the module and the plainest helpers on them: 32-bit register words (R5), bytes, signal
words, and the reading of a bit vector as a signed number.
-/
namespace Sys2Proof

/-- A register word of the Module Register Space, or a one-word signal (R5, R140). -/
abbrev Word := BitVec 32

/-- A byte of a frame, of the Central Store or of Ballast. -/
abbrev Byte := BitVec 8

/-- A bit field of a register: its lowest bit and its width. -/
structure Fld where
  lo : Nat
  w : Nat
  deriving DecidableEq, Repr

end Sys2Proof
end

