-- ==== Sys2Proof/Syntax.lean ====
section
/-!
DEFINITION. The commands the block takes: one constructor of `Instr` per row of the table of operations and events
(opcode_table.json), in the table's order, with the operands that the outside world supplies.

Operands common to many rows: `t` is the value of the raw TIME counter C (R300) at which the command comes about
(notes/assumptions/1.md); `r : Req` is a write or read by a master, with its instant and its privilege (R401, R402);
REGISTER_WRITE carries its bytes in the low end of `value`, and `atomic` tells that the access is an atomic of a core, which reads the old
value too; `fetch` tells that a read is an instruction fetch of a core (R403); frames on Feger ports and Tether lanes are the
bytes from the destination address up to, and not with, the FCS; `fcsOk` tells whether the FCS was good, and `t` is the instant of the last
byte of a received frame.
-/
namespace Sys2Proof

/-- The masters that make accesses to the Module Register Space (Table 17.1, codes 0 to 4). -/
inductive Master where
  | mc0 | mc1 | service | debug | tether
  deriving DecidableEq, Repr

/-- The code of a master (Table 17.1). -/
def Master.code : Master → Nat
  | .mc0 => 0 | .mc1 => 1 | .service => 2 | .debug => 3 | .tether => 4

/-- The RISC-V privilege of an access by MC0 or MC1 (R402). Every other master carries none. -/
inductive Priv where
  | machine | supervisor | user
  deriving DecidableEq, Repr

/-- The cycle classes (Table 3.1). -/
inductive Cls where
  | fast | mid | slow | background
  deriving DecidableEq, Repr

/-- The code of a cycle class (Table 3.1). -/
def Cls.code : Cls → Nat
  | .fast => 0 | .mid => 1 | .slow => 2 | .background => 3

/-- An access by a master: the instant on the raw TIME counter, the master and its privilege. -/
structure Req where
  t : Nat
  m : Master
  p : Priv
  deriving DecidableEq, Repr

/-- The size of a write in bytes, and whether it is the write of an atomic access of a Management Core (R403). -/
structure WriteSize where
  bytes : Nat
  atomic : Bool := false
  deriving DecidableEq, Repr

/-- The size of a read in bytes, and whether it fetches an instruction of a Management Core (R403). -/
structure ReadSize where
  bytes : Nat
  fetch : Bool := false
  deriving DecidableEq, Repr

/-- What an upset in one lane changes in a compared write (Table 9.2). -/
inductive UpsetKind where
  | value | quality | written | address | ecc
  deriving DecidableEq, Repr

/-- Where a compared write comes from (Table 9.1; LANE_MM_INFO.source). -/
inductive UpsetSource where
  | output | state | sequencer | lse
  deriving DecidableEq, Repr

/-- Write number `part` of a block, a chain or an axis `ref`, waiting for lane A or for lane B to write it too (Table 9.1, R228). -/
structure ComparedWrite where
  source : UpsetSource
  ref : Nat
  part : Nat := 0
  laneB : Bool := false
  deriving DecidableEq, Repr

/-- A transient in a lane during a wave, a sequencer run or an LSE update: lane B's compared write number `part` of `ref` (a block, a chain or
an axis) differs from lane A's in the way `kind` says, with `bits` inverted in 64-bit word `word` of its value (R227, R231). Of kind `ecc`: the
Store word that holds the byte at offset `bits` has a double-bit error from now on (R10). -/
structure Upset where
  kind : UpsetKind
  source : UpsetSource
  ref : Nat
  unit : Fin 16
  bits : BitVec 64
  part : Nat := 0
  word : Nat := 0
  deriving DecidableEq, Repr

/-- How a CAN frame of the module ended on the bus (R328, R330 to R332). -/
inductive CanEnd where
  | sent | lostArb | error | clash
  deriving DecidableEq, Repr

/-- A CAN bus error or protocol exception (Table 13.4). -/
inductive CanErr where
  | bit | stuff | form | crc | ack | protocolException
  deriving DecidableEq, Repr

/-- A frame on a CAN bus: identifier and format flags (word 0 of Table 13.5), DLC, BRS, ESI and payload. -/
structure CanFrame where
  id : BitVec 29
  ide : Bool
  rtr : Bool
  fdf : Bool
  brs : Bool
  esi : Bool
  dlc : BitVec 4
  data : List Byte
  deriving DecidableEq, Repr

/-- A divided clock domain (R371). -/
inductive DivDomain where
  | core | store | mgmt | io
  deriving DecidableEq, Repr

/-- A UDP datagram on X40: the client's IPv4 address and port, the destination port, whether it has IP options or is a fragment, and
its payload (R422, R423). -/
structure Datagram where
  ip : Word
  port : BitVec 16
  dport : BitVec 16
  fragment : Bool
  payload : List Byte
  deriving DecidableEq, Repr

/-- The commands of the module, one per row of the table of operations and events. -/
inductive Instr where
  -- reset and boot
  | powerUp (strap aGood bGood : Bool)
  | rackReset (aGood bGood : Bool)
  | fwRestart (t : Nat)
  | bootDone (t : Nat) (checksOk : Bool)
  -- register accesses
  | registerWrite (r : Req) (addr : Nat) (size : WriteSize) (value : BitVec 64)
  | registerReadClear (r : Req) (addr : Nat) (size : ReadSize)
  | loHiCaptureRead (r : Req) (addr : Nat)
  -- Central Store and queues
  | scrubLine (t : Nat) (written : Bool)
  | queTailWrite (r : Req) (q : Fin 128) (tail : Word)
  | queueFrameSend (t : Nat) (q : Fin 128)
  | descriptorComplete (t : Nat) (q : Fin 128)
  | bWaitExpiry (t : Nat) (q : Fin 128)
  | rxFrameReceive (t : Nat) (q : Fin 128) (classB : Bool) (frame : List Byte)
  -- configuration transactions
  | ctuStagingWrite (r : Req) (addr : Nat) (value : Word)
  | ctuBegin (r : Req)
  | ctuVerify (r : Req)
  | ctuCommit (r : Req) (boundary : BitVec 2)
  | ctuRollback (r : Req)
  | loaderVerifyDone (t : Nat)
  | ctuBoundaryApply (t : Nat)
  | ctuIdleTimeout (t : Nat)
  | bcastAliasWrite (r : Req) (addr : Nat) (value : Word)
  | bcastAliasRead (r : Req) (addr : Nat)
  -- cycles
  | cycleStart (t : Nat)
  | waveEvaluate (t : Nat) (k : Cls) (upsets : List Upset)
  | compareTimeout (t : Nat) (k : Cls) (unit : Fin 8) (w : ComparedWrite)
  | stepSequencerRun (t : Nat) (k : Cls) (upsets : List Upset)
  | lseUpdate (t : Nat) (ns : Word) (upsets : List Upset)
  | cycleComplete (t : Nat) (k : Cls)
  | outputCommit (t : Nat) (crcUpset : List Cls)
  | outputRelease (t : Nat)
  | retainWriteComplete (t : Nat)
  | engInject (r : Req) (value : Word)
  | sysStart (r : Req)
  | sysStop (r : Req)
  | sysSafe (r : Req)
  | sysService (r : Req)
  | sysHandover (r : Req)
  -- online exchange
  | xchConfirm (r : Req)
  | xchRevert (r : Req)
  | exchangeSwitch (t : Nat) (ns : Word)
  | revertSwitch (t : Nat) (ns : Word)
  | exchangeArchiveDone (t : Nat) (ok : Bool)
  -- lanes
  | laneSplit (r : Req)
  | laneLock (r : Req)
  | laneModeHandover (t : Nat)
  | laneInject (r : Req) (value : Word)
  -- redundant pair
  | tetherCricketSend (t : Nat)
  | ringCricketSend (t : Nat) (ring : Fin 6)
  | cricketReceive (t : Nat) (lane : Fin 2) (fcsOk : Bool) (frame : List Byte)
  | tetherLaneTimeout (t : Nat) (lane : Fin 2)
  | ckptFrameSend (t : Nat)
  | ckptDataReceive (t : Nat) (lane : Fin 2) (fcsOk : Bool) (frame : List Byte)
  | ckptEndReceive (t : Nat) (lane : Fin 2) (fcsOk : Bool) (frame : List Byte)
  | ckptMissingTimeout (t : Nat)
  | ckptAckReceive (t : Nat) (lane : Fin 2) (fcsOk : Bool) (frame : List Byte)
  | ckptAbort (t : Nat)
  | resyncReqReceive (t : Nat) (lane : Fin 2) (fcsOk : Bool) (frame : List Byte)
  | imageFrameReceive (t : Nat) (lane : Fin 2) (fcsOk : Bool) (frame : List Byte)
  | lagTimeout (t : Nat)
  | standbyIntervalEnd (t : Nat)
  | claimBySilence (t : Nat)
  | releaseReceive (t : Nat) (fromRing : Bool) (port : Fin 12) (fcsOk : Bool) (frame : List Byte)
  | claim (t : Nat)
  | claimReceive (t : Nat) (fromRing : Bool) (port : Fin 12) (fcsOk : Bool) (frame : List Byte)
  | isolation (t : Nat)
  | ringHandoverTrigger (t : Nat)
  | startListenEnd (t : Nat)
  | handoverPropose (t : Nat)
  | handoverFrameReceive (t : Nat) (lane : Fin 2) (fcsOk : Bool) (frame : List Byte)
  | handoverGoDeadline (t : Nat)
  | holdoffExpiry (t : Nat)
  -- Feger rings
  | downlinkSend (t : Nat) (ring : Fin 6) (frame : Nat)
  | ringFrameForward (t : Nat) (port : Fin 12) (fcsOk : Bool) (frame : List Byte)
  | uplinkReceive (t : Nat) (port : Fin 12) (fcsOk : Bool) (frame : List Byte)
  | downlinkReceive (t : Nat) (port : Fin 12) (fcsOk : Bool) (frame : List Byte)
  | ringCricketReceive (t : Nat) (port : Fin 12) (fcsOk : Bool) (frame : List Byte)
  | paramDiagReceive (t : Nat) (port : Fin 12) (fcsOk : Bool) (frame : List Byte)
  | identifyRepeat (t : Nat)
  -- network time
  | ptpFrameReceive (t : Nat) (port : Fin 12) (fcsOk : Bool) (frame : List Byte) (residence : BitVec 10)
  | timeRateChange (r : Req) (hi : Word)
  | timeStep (r : Req) (hi : Word)
  | timeCtrlWrite (r : Req) (value : Word)
  | txtsPop (r : Req) (port : Fin 12)
  | captureEvent (t : Nat) (cap : Fin 16)
  | captureSnap (r : Req) (cap : Fin 16) (value : Word)
  | captureWindowClose (t : Nat) (cap : Fin 16)
  | triggerFire (t : Nat) (trig : Fin 16)
  | doPulseEnd (t : Nat) (ch : Fin 32)
  -- CAN
  | canWindowOpen (t : Nat) (u : Fin 16) (b : Fin 32) (busIdle : Bool)
  | canMissedWindow (t : Nat) (u : Fin 16) (b : Fin 32)
  | canQueueFrameStart (t : Nat) (u : Fin 16)
  | canFrameEnd (t : Nat) (u : Fin 16) (how : CanEnd) (tecUp : BitVec 9) (recUp : BitVec 8)
  | canReferenceSend (t : Nat) (u : Fin 16)
  | canCancel (r : Req) (u : Fin 16) (mask : Word)
  | canFrameReceive (t : Nat) (u : Fin 16) (sof : Nat) (f : CanFrame)
  | canBusError (t : Nat) (u : Fin 16) (e : CanErr) (tecUp : BitVec 9) (recUp : BitVec 8)
  | canRecover (r : Req) (u : Fin 16) (value : Word)
  | canRecoveryDone (t : Nat) (u : Fin 16)
  | canRxwLockRead (r : Req) (u : Fin 16)
  | canRxwReleaseRead (r : Req) (u : Fin 16)
  | canRxwLockTimeout (t : Nat) (u : Fin 16)
  -- digital I/O
  | diCrossing (t : Nat) (ch : Fin 32) (high : Bool)
  | diFilterAccept (t : Nat) (ch : Fin 32)
  | doDiagSample (t : Nat) (ch : Fin 32) (milliamp : BitVec 16) (readback : Bool) (atLimit : Bool) (junction : Int)
  | overload (t : Nat) (ch : Fin 32)
  | overtemp (t : Nat) (ch : Fin 32)
  | doOffPeriodEnd (t : Nat) (ch : Fin 32) (junction : Int)
  | openWire (t : Nat) (ch : Fin 32)
  | extDrive (t : Nat) (ch : Fin 32)
  | groupOvl (t : Nat) (g : Fin 4)
  | groupOvlEnd (t : Nat) (g : Fin 4)
  | supplySample (t : Nat) (g : Fin 4) (millivolt : BitVec 16)
  | sag (t : Nat) (g : Fin 4)
  | undervolt (t : Nat) (g : Fin 4)
  | supplyRestore (t : Nat) (g : Fin 4)
  | dioGrpAck (r : Req) (g : Fin 4) (value : Word)
  -- analog I/O
  | aoReadSample (t : Nat) (u : Fin 8) (current : Word) (vcomp : BitVec 16) (junction : BitVec 16) (atMax : Bool)
  | compl (t : Nat) (u : Fin 8)
  | openLoop (t : Nat) (u : Fin 8)
  | thermal (t : Nat) (u : Fin 8)
  | aiConversionDone (t : Nat) (u : Fin 8) (code : BitVec 16)
  | shuntOpen (t : Nat) (u : Fin 8)
  | shuntTest (t : Nat) (u : Fin 8) (stillOver : Bool)
  | isolatorPowerLoss (t : Nat) (unit : Fin 72)
  -- clocks and power
  | judgeWindowEnd (t : Nat) (countA countB : Nat)
  | refFastLoss (t : Nat) (laneB : Bool)
  | refSwitch (t : Nat) (edgeSeen : Bool)
  | pll0Holdover (t : Nat)
  | pll0Relock (t : Nat)
  | clockLossStop (t : Nat)
  | divRampStep (t : Nat) (d : DivDomain)
  | clkGateOpen (r : Req) (gate : BitVec 6)
  | clkGateClose (r : Req) (gate : BitVec 6)
  | clkGateCloseIdle (t : Nat)
  | clkGateCloseTimeout (t : Nat)
  | powerSample (t : Nat) (feedA feedB supply bank vcore : BitVec 16) (tj : BitVec 16)
  | holdupEntry (t : Nat)
  | rideThroughStop (t : Nat)
  | supplyReturn (t : Nat)
  | backupEntry (t : Nat)
  -- time of day and recorder
  | rtcSecond (t : Nat)
  | rtcSet (r : Req) (value : Word)
  | rtcAlarmWrite (r : Req) (a : Fin 2) (value : Word)
  | rtcSupplySwitch (supply cell : BitVec 16)
  | cellExhausted (cell supply : BitVec 16)
  | ophoursFlush (t : Nat)
  | cellMeasure (t : Nat) (millivolt : BitVec 16)
  | recorderUpdate (t : Nat)
  | recFeed (r : Req) (value : Word)
  | recorderFlush (t : Nat)
  | recorderArchiveHourly (t : Nat) (ok : Bool)
  | recFlushCmd (r : Req)
  | recArchiveCmd (r : Req)
  | recClearCmd (r : Req)
  -- protection and debug
  | artEpochDrained (t : Nat)
  | seal (r : Req)
  | rma (r : Req)
  | keyRevoke (r : Req) (slot : Fin 8) (value : Word)
  | dbgOpen (t : Nat)
  | dbgClose (t : Nat)
  | dbgResponse (t : Nat) (value : Word)
  | dbgVerifyDone (t : Nat)
  | dbgNonceTimeout (t : Nat)
  | dbgLockExpiry (t : Nat)
  | freeze (t : Nat)
  | thaw (t : Nat)
  | haltMc0 (t : Nat)
  | haltMc1 (t : Nat)
  | resumeMc0 (t : Nat)
  | resumeMc1 (t : Nat)
  | dacc (t : Nat) (dr : BitVec 66)
  | idcode (t : Nat)
  | bypass (t : Nat) (tdi : Bool)
  | samplePreload (t : Nat) (pins shifted : List Bool)
  | extest (t : Nat) (shifted : List Bool)
  | intest (t : Nat) (shifted : List Bool)
  -- service port
  | svcOpen (t : Nat) (d : Datagram)
  | svcProve (t : Nat) (d : Datagram)
  | svcClose (t : Nat) (d : Datagram)
  | svcRead (t : Nat) (d : Datagram)
  | svcWrite (t : Nat) (d : Datagram)
  | svcSnapshot (t : Nat) (d : Datagram)
  | svcUpdPut (t : Nat) (d : Datagram)
  | svcArpRequest (t : Nat) (target : Word) (asker : Word)
  | svcIcmpEcho (t : Nat) (ip : Word) (data : List Byte)
  | svcSessionTimeout (t : Nat)
  | svcProveLockExpiry (t : Nat)
  -- firmware update and self-test
  | download (r : Req) (image : Bool)
  | updVerify (r : Req)
  | updVerifyDone (t : Nat) (archiveOk : Bool)
  | activate (r : Req)
  | confirm (r : Req)
  | abandon (r : Req)
  | updFallback (t : Nat)
  | scarab (r : Req) (mask : BitVec 6)
  | scarabTestDone (t : Nat) (failed : Bool) (detail : BitVec 16) (us : Word)
  | abort (r : Req)
  -- links and patrols
  | refLockRegained (t : Nat) (laneB : Bool)
  | fegerPortLinkChange (t : Nat) (port : Fin 12) (up : Bool)
  | tetherPcsLockLoss (t : Nat) (lane : Fin 2)
  | sfpPresenceChange (t : Nat) (lane : Fin 2) (present los : Bool)
  | svcPortLinkChange (t : Nat) (up : Bool)
  | linkLocalAddressAnnounced (t : Nat) (conflict : Bool)
  | recorderFlushDone (t : Nat) (ok : Bool)
  | archivePatrolRead (t : Nat) (relocated : Nat) (spare maxErase meanErase bad : BitVec 16)
  | ballastPatrolRead (t : Nat)
  | supplyLow (t : Nat) (millivolt : BitVec 16)
  deriving DecidableEq, Repr

end Sys2Proof
end

