-- ==== Sys2Proof/Decode.lean ====
section
/-!
DEFINITION. The word of a command. The table of operations and events gives no row any bits: a command is an access or an event, and no
word spells one.
-/
namespace Sys2Proof

/-- The command that a word spells: none, for the table gives bits to no row. -/
def decodeTableWord (_nbits _w : Nat) : Option Instr := none

end Sys2Proof
end

