-- ==== Sys2Proof/Machine/Regs.lean ====
section
/-!
DEFINITION. The names of the module's registers (their addresses in the Module Register Space; a register of an arrayed unit takes
its unit or entry index) and of their fields, as the register maps of the chapters give them (R3, R25). Taken from
the spec's register tables.
-/
namespace Sys2Proof.Machine.Reg

abbrev SYS_ID : Nat := 0x0
abbrev SYS_STATE : Nat := 0x4
abbrev SYS_CMD : Nat := 0x8
abbrev SYS_CMD_STATUS : Nat := 0xC
abbrev SYS_CFG : Nat := 0x10
abbrev SYS_HW_FAULT : Nat := 0x14
abbrev ENG_CTRL : Nat := 0x100000
abbrev ENG_STATUS : Nat := 0x100004
abbrev ENG_OVR_STATUS : Nat := 0x100008
abbrev ENG_INJECT : Nat := 0x10000C
abbrev ENG_CLS_CFG (i : Nat) : Nat := 0x100020 + 0x20 * i
abbrev ENG_CLS_CYCLE (i : Nat) : Nat := 0x100024 + 0x20 * i
abbrev ENG_CLS_RELOFS (i : Nat) : Nat := 0x100028 + 0x20 * i
abbrev ENG_CLS_LAST (i : Nat) : Nat := 0x10002C + 0x20 * i
abbrev ENG_CLS_MAX (i : Nat) : Nat := 0x100030 + 0x20 * i
abbrev ENG_CLS_OVR (i : Nat) : Nat := 0x100034 + 0x20 * i
abbrev IMG_STATUS : Nat := 0x101000
abbrev IMG_PUB_SEQ : Nat := 0x101004
abbrev IMG_OVR_REJECT : Nat := 0x101008
abbrev IMG_STALE_CNT : Nat := 0x10100C
abbrev IMG_SUBST_CNT : Nat := 0x101010
abbrev IMG_FAULT_CNT : Nat := 0x101014
abbrev IMG_SMT_CNT : Nat := 0x101018
abbrev IMG_OVR_CTL (i : Nat) : Nat := 0x102000 + 0x10 * i
abbrev IMG_OVR_LO (i : Nat) : Nat := 0x102004 + 0x10 * i
abbrev IMG_OVR_HI (i : Nat) : Nat := 0x102008 + 0x10 * i
abbrev CLK_REF_CFG : Nat := 0x10000
abbrev CLK_REF_STATUS : Nat := 0x10004
abbrev CLK_REF_ALARM : Nat := 0x10008
abbrev CLK_LANE_A : Nat := 0x1000C
abbrev CLK_LANE_B : Nat := 0x10010
abbrev CLK_REF_PPM : Nat := 0x10014
abbrev CLK_SWITCH_CNT : Nat := 0x10018
abbrev CLK_DIV : Nat := 0x10020
abbrev CLK_DIV_STATUS : Nat := 0x10024
abbrev CLK_GATE_CMD : Nat := 0x10030
abbrev CLK_GATE_RESULT : Nat := 0x10034
abbrev CLK_GATE_LO : Nat := 0x10038
abbrev CLK_GATE_HI : Nat := 0x1003C
abbrev CLK_GATED_ACC : Nat := 0x10040
abbrev PWR_STATUS : Nat := 0x20000
abbrev PWR_CFG : Nat := 0x20004
abbrev PWR_ALARM : Nat := 0x20008
abbrev PWR_FEED : Nat := 0x2000C
abbrev PWR_BANK : Nat := 0x20010
abbrev PWR_CORE : Nat := 0x20014
abbrev PWR_RESET : Nat := 0x20018
abbrev PWR_EVENTS : Nat := 0x2001C
abbrev PWR_LAST_HOLDUP : Nat := 0x20020
abbrev CTU_CMD : Nat := 0x30000
abbrev CTU_STATUS : Nat := 0x30004
abbrev CTU_CONFLICT : Nat := 0x30008
abbrev CTU_IMAGE_BASE : Nat := 0x3000C
abbrev CTU_IMAGE_LEN : Nat := 0x30010
abbrev CTU_LOAD_RESULT : Nat := 0x30014
abbrev CTU_LOAD_INDEX : Nat := 0x30018
abbrev CTU_LOAD_DETAIL : Nat := 0x3001C
abbrev CTU_LOAD_LIMIT : Nat := 0x30020
abbrev CTU_RUN_ID_LO : Nat := 0x30024
abbrev CTU_RUN_ID_HI : Nat := 0x30028
abbrev CTU_COMMITS : Nat := 0x3002C
abbrev BCAST_STATUS : Nat := 0x30030
abbrev BCAST_GMASK_DIO_LO : Nat := 0x30040
abbrev BCAST_GMASK_DIO_HI : Nat := 0x30044
abbrev BCAST_GMASK_AIO : Nat := 0x30048
abbrev BCAST_GMASK_CAN : Nat := 0x3004C
abbrev BCAST_GMASK_FGR : Nat := 0x30050
abbrev BCAST_GMASK_TTRG : Nat := 0x30054
abbrev XCH_CMD : Nat := 0x30100
abbrev XCH_CMD_STATUS : Nat := 0x30104
abbrev XCH_STATUS : Nat := 0x30108
abbrev XCH_BASE_LO : Nat := 0x3010C
abbrev XCH_BASE_HI : Nat := 0x30110
abbrev XCH_SW_CYCLE : Nat := 0x30114
abbrev XCH_T_BOUND : Nat := 0x30118
abbrev XCH_T_LAST : Nat := 0x3011C
abbrev XCH_CNT_CARRY : Nat := 0x30120
abbrev XCH_CNT_CONV : Nat := 0x30124
abbrev XCH_CNT_INIT : Nat := 0x30128
abbrev XCH_CNT_DROP : Nat := 0x3012C
abbrev ART_STATUS : Nat := 0x40000
abbrev ART_COMMIT_FAULT : Nat := 0x40004
abbrev ART_FAULT_INFO : Nat := 0x40008
abbrev ART_FAULT_ADDR : Nat := 0x4000C
abbrev ART_NOTICE : Nat := 0x40010
abbrev ART_REFUSED : Nat := 0x40014
abbrev ART_BASE (i : Nat) : Nat := 0x41000 + 0x10 * i
abbrev ART_SIZE (i : Nat) : Nat := 0x41004 + 0x10 * i
abbrev ART_MASTERS (i : Nat) : Nat := 0x41008 + 0x10 * i
abbrev ART_ATTR (i : Nat) : Nat := 0x4100C + 0x10 * i
abbrev SEC_STATUS : Nat := 0x50000
abbrev SEC_CMD : Nat := 0x50004
abbrev SEC_CMD_STATUS : Nat := 0x50008
abbrev SEC_KEY_ID (i : Nat) : Nat := 0x50100 + 0x40 * i
abbrev SEC_KEY_CTL (i : Nat) : Nat := 0x50104 + 0x40 * i
abbrev SEC_KEY_PUB (i : Nat) (j : Nat) : Nat := 0x50110 + 0x40 * i + 0x4 * j
abbrev DBG_CTRL : Nat := 0x50800
abbrev DBG_STATUS : Nat := 0x50804
abbrev DBG_CMD : Nat := 0x50808
abbrev DBG_CMD_STATUS : Nat := 0x5080C
abbrev DBG_NONCE (i : Nat) : Nat := 0x50810 + 0x4 * i
abbrev DBG_RESP (i : Nat) : Nat := 0x50840 + 0x4 * i
abbrev DBG_VAULT_CNT : Nat := 0x50880
abbrev DBG_VAULT_ADDR : Nat := 0x50884
abbrev LANE_CMD : Nat := 0x110000
abbrev LANE_CMD_STATUS : Nat := 0x110004
abbrev LANE_CFG : Nat := 0x110008
abbrev LANE_STATUS : Nat := 0x11000C
abbrev LANE_CNT : Nat := 0x110010
abbrev LANE_INJECT : Nat := 0x110014
abbrev LANE_MM_INFO : Nat := 0x110020
abbrev LANE_MM_REF : Nat := 0x110024
abbrev LANE_MM_ADDR : Nat := 0x110028
abbrev LANE_MM_CYCLE : Nat := 0x11002C
abbrev LANE_MM_A_LO : Nat := 0x110030
abbrev LANE_MM_A_HI : Nat := 0x110034
abbrev LANE_MM_B_LO : Nat := 0x110038
abbrev LANE_MM_B_HI : Nat := 0x11003C
abbrev LANE_MM_Q : Nat := 0x110040
abbrev LSE_CTRL : Nat := 0x120000
abbrev LSE_STATUS : Nat := 0x120004
abbrev LSE_T_BOUND : Nat := 0x120008
abbrev LSE_T_LAST : Nat := 0x12000C
abbrev LSE_T_MAX : Nat := 0x120010
abbrev LSE_JOIN_CNT : Nat := 0x120014
abbrev LSE_M_STATE (i : Nat) : Nat := 0x121000 + 0x40 * i
abbrev LSE_M_POS_LO (i : Nat) : Nat := 0x121008 + 0x40 * i
abbrev LSE_M_POS_HI (i : Nat) : Nat := 0x12100C + 0x40 * i
abbrev LSE_M_VEL_LO (i : Nat) : Nat := 0x121010 + 0x40 * i
abbrev LSE_M_VEL_HI (i : Nat) : Nat := 0x121014 + 0x40 * i
abbrev LSE_M_ACC_LO (i : Nat) : Nat := 0x121018 + 0x40 * i
abbrev LSE_M_ACC_HI (i : Nat) : Nat := 0x12101C + 0x40 * i
abbrev LSE_S_STATE (i : Nat) : Nat := 0x124000 + 0x40 * i
abbrev LSE_S_NUM (i : Nat) : Nat := 0x124004 + 0x40 * i
abbrev LSE_S_DEN (i : Nat) : Nat := 0x124008 + 0x40 * i
abbrev LSE_S_REM (i : Nat) : Nat := 0x12400C + 0x40 * i
abbrev LSE_S_POS_LO (i : Nat) : Nat := 0x124010 + 0x40 * i
abbrev LSE_S_POS_HI (i : Nat) : Nat := 0x124014 + 0x40 * i
abbrev LSE_S_OFS_LO (i : Nat) : Nat := 0x124018 + 0x40 * i
abbrev LSE_S_OFS_HI (i : Nat) : Nat := 0x12401C + 0x40 * i
abbrev LSE_S_CMD_LO (i : Nat) : Nat := 0x124020 + 0x40 * i
abbrev LSE_S_CMD_HI (i : Nat) : Nat := 0x124024 + 0x40 * i
abbrev LSE_S_PHASE (i : Nat) : Nat := 0x124028 + 0x40 * i
abbrev LSE_S_HELD (i : Nat) : Nat := 0x12402C + 0x40 * i
abbrev LSE_R_STATE (i : Nat) : Nat := 0x126000 + 0x20 * i
abbrev LSE_R_ERR_LO (i : Nat) : Nat := 0x126008 + 0x20 * i
abbrev LSE_R_ERR_HI (i : Nat) : Nat := 0x12600C + 0x20 * i
abbrev LSE_R_OFS_LO (i : Nat) : Nat := 0x126010 + 0x20 * i
abbrev LSE_R_OFS_HI (i : Nat) : Nat := 0x126014 + 0x20 * i
abbrev LSE_C_STATE (i : Nat) : Nat := 0x127000 + 0x100 * i
abbrev LSE_C_FACT (i : Nat) (j : Nat) : Nat := 0x127040 + 0x100 * i + 0x4 * j
abbrev LSE_C_NEXT (i : Nat) (j : Nat) : Nat := 0x127080 + 0x100 * i + 0x4 * j
abbrev RED_CFG : Nat := 0x140000
abbrev RED_HOLDOFF : Nat := 0x140004
abbrev RED_PAIR_ID : Nat := 0x140008
abbrev RED_STATUS : Nat := 0x14000C
abbrev RED_ALARM : Nat := 0x140010
abbrev RED_EPOCH : Nat := 0x140014
abbrev RED_EPOCH_SEEN : Nat := 0x140018
abbrev RED_CKPT : Nat := 0x14001C
abbrev RED_CKPT_SIZE : Nat := 0x140020
abbrev RED_CKPT_BUDGET : Nat := 0x140024
abbrev RED_COUNTS : Nat := 0x140028
abbrev RED_HANDOVER : Nat := 0x14002C
abbrev RED_HOLDOFF_LEFT : Nat := 0x140030
abbrev RED_EVENTS : Nat := 0x140034
abbrev RED_LAST_TAKEOVER : Nat := 0x140038
abbrev RED_LANE (i : Nat) : Nat := 0x140040 + 0x4 * i
abbrev FGR_P_STATUS (i : Nat) : Nat := 0x200000 + 0x1000 * i
abbrev FGR_P_RX (i : Nat) : Nat := 0x200004 + 0x1000 * i
abbrev FGR_P_FWD (i : Nat) : Nat := 0x200008 + 0x1000 * i
abbrev FGR_P_ERR (i : Nat) : Nat := 0x20000C + 0x1000 * i
abbrev FGR_P_VIOL (i : Nat) : Nat := 0x200010 + 0x1000 * i
abbrev FGR_ETYPE : Nat := 0x20C000
abbrev FGR_RING_STATUS (i : Nat) : Nat := 0x20C100 + 0x20 * i
abbrev FGR_RING_ALARM (i : Nat) : Nat := 0x20C104 + 0x20 * i
abbrev FGR_STA (i : Nat) : Nat := 0x20D000 + 0x4 * i
abbrev TIME_CTRL : Nat := 0x300000
abbrev TIME_STATUS : Nat := 0x300004
abbrev TIME_CFG : Nat := 0x300008
abbrev TIME_NOW_LO : Nat := 0x300010
abbrev TIME_NOW_HI : Nat := 0x300014
abbrev TIME_RAW_LO : Nat := 0x300018
abbrev TIME_RAW_HI : Nat := 0x30001C
abbrev TIME_INC_LO : Nat := 0x300020
abbrev TIME_INC_HI : Nat := 0x300024
abbrev TIME_STEP_LO : Nat := 0x300028
abbrev TIME_STEP_HI : Nat := 0x30002C
abbrev TIME_OFS_LO : Nat := 0x300030
abbrev TIME_OFS_HI : Nat := 0x300034
abbrev TIME_CAP_CFG (i : Nat) : Nat := 0x300400 + 0x10 * i
abbrev TIME_CAP_LO (i : Nat) : Nat := 0x300404 + 0x10 * i
abbrev TIME_CAP_HI (i : Nat) : Nat := 0x300408 + 0x10 * i
abbrev PTP_P_CFG (i : Nat) : Nat := 0x301000 + 0x100 * i
abbrev PTP_LAT_IN (i : Nat) : Nat := 0x301004 + 0x100 * i
abbrev PTP_LAT_OUT (i : Nat) : Nat := 0x301008 + 0x100 * i
abbrev PTP_ASYM (i : Nat) : Nat := 0x30100C + 0x100 * i
abbrev PTP_LINK_DELAY (i : Nat) : Nat := 0x301010 + 0x100 * i
abbrev PTP_TXTS_TAG (i : Nat) : Nat := 0x301020 + 0x100 * i
abbrev PTP_TXTS_LO (i : Nat) : Nat := 0x301024 + 0x100 * i
abbrev PTP_TXTS_HI (i : Nat) : Nat := 0x301028 + 0x100 * i
abbrev PTP_TXTS_STATUS (i : Nat) : Nat := 0x30102C + 0x100 * i
abbrev TTRG_CTL (i : Nat) : Nat := 0x310000 + 0x40 * i
abbrev TTRG_START_LO (i : Nat) : Nat := 0x310004 + 0x40 * i
abbrev TTRG_START_HI (i : Nat) : Nat := 0x310008 + 0x40 * i
abbrev TTRG_PERIOD (i : Nat) : Nat := 0x31000C + 0x40 * i
abbrev TTRG_ARG (i : Nat) : Nat := 0x310010 + 0x40 * i
abbrev TTRG_WIDTH (i : Nat) : Nat := 0x310014 + 0x40 * i
abbrev TTRG_STATUS (i : Nat) : Nat := 0x310018 + 0x40 * i
abbrev TTRG_COUNT (i : Nat) : Nat := 0x31001C + 0x40 * i
abbrev TTRG_LAST_LO (i : Nat) : Nat := 0x310020 + 0x40 * i
abbrev TTRG_LAST_HI (i : Nat) : Nat := 0x310024 + 0x40 * i
abbrev CAN_CFG (i : Nat) : Nat := 0x400000 + 0x1000 * i
abbrev CAN_NBT (i : Nat) : Nat := 0x400004 + 0x1000 * i
abbrev CAN_DBT (i : Nat) : Nat := 0x400008 + 0x1000 * i
abbrev CAN_CTRL (i : Nat) : Nat := 0x40000C + 0x1000 * i
abbrev CAN_STATUS (i : Nat) : Nat := 0x400010 + 0x1000 * i
abbrev CAN_ERRCNT (i : Nat) : Nat := 0x400014 + 0x1000 * i
abbrev CAN_ERRS (i : Nat) : Nat := 0x400018 + 0x1000 * i
abbrev CAN_ALARM (i : Nat) : Nat := 0x40001C + 0x1000 * i
abbrev CAN_CLASH (i : Nat) : Nat := 0x400020 + 0x1000 * i
abbrev CAN_B_TIME (i : Nat) : Nat := 0x400024 + 0x1000 * i
abbrev CAN_REF_STATUS (i : Nat) : Nat := 0x400028 + 0x1000 * i
abbrev CAN_REF_MARK_LO (i : Nat) : Nat := 0x400030 + 0x1000 * i
abbrev CAN_REF_MARK_HI (i : Nat) : Nat := 0x400034 + 0x1000 * i
abbrev CAN_TXB_CANCEL (i : Nat) : Nat := 0x400040 + 0x1000 * i
abbrev CAN_TXB_PEND (i : Nat) : Nat := 0x400044 + 0x1000 * i
abbrev CAN_TXB_STAT (i : Nat) (j : Nat) : Nat := 0x400080 + 0x1000 * i + 0x4 * j
abbrev CAN_RX_CFG (i : Nat) : Nat := 0x400100 + 0x1000 * i
abbrev CAN_RX_STATUS (i : Nat) : Nat := 0x400104 + 0x1000 * i
abbrev CAN_RXW (i : Nat) (j : Nat) : Nat := 0x400180 + 0x1000 * i + 0x4 * j
abbrev DIO_CH_CFG (i : Nat) : Nat := 0x500000 + 0x100 * i
abbrev DIO_CH_STATUS (i : Nat) : Nat := 0x500004 + 0x100 * i
abbrev DIO_CH_DIAG (i : Nat) : Nat := 0x500008 + 0x100 * i
abbrev DIO_CH_RISE (i : Nat) : Nat := 0x50000C + 0x100 * i
abbrev DIO_CH_FALL (i : Nat) : Nat := 0x500010 + 0x100 * i
abbrev DIO_CH_TS_LO (i : Nat) : Nat := 0x500014 + 0x100 * i
abbrev DIO_CH_TS_HI (i : Nat) : Nat := 0x500018 + 0x100 * i
abbrev DIO_CH_DELAY (i : Nat) : Nat := 0x50001C + 0x100 * i
abbrev DIO_GRP_CFG (i : Nat) : Nat := 0x508000 + 0x40 * i
abbrev DIO_GRP_STATUS (i : Nat) : Nat := 0x508004 + 0x40 * i
abbrev DIO_GRP_MEAS (i : Nat) : Nat := 0x508008 + 0x40 * i
abbrev DIO_GRP_ALARM (i : Nat) : Nat := 0x50800C + 0x40 * i
abbrev DIO_GRP_ACK (i : Nat) : Nat := 0x508010 + 0x40 * i
abbrev AO_CFG (i : Nat) : Nat := 0x510000 + 0x100 * i
abbrev AO_STATUS (i : Nat) : Nat := 0x510004 + 0x100 * i
abbrev AO_DIAG (i : Nat) : Nat := 0x510008 + 0x100 * i
abbrev AO_SET (i : Nat) : Nat := 0x51000C + 0x100 * i
abbrev AO_READ (i : Nat) : Nat := 0x510010 + 0x100 * i
abbrev AO_TRIM_GAIN (i : Nat) : Nat := 0x510014 + 0x100 * i
abbrev AO_TRIM_OFS (i : Nat) : Nat := 0x510018 + 0x100 * i
abbrev AO_MEAS (i : Nat) : Nat := 0x51001C + 0x100 * i
abbrev AI_CFG (i : Nat) : Nat := 0x510840 + 0x100 * i
abbrev AI_STATUS (i : Nat) : Nat := 0x510844 + 0x100 * i
abbrev AI_DIAG (i : Nat) : Nat := 0x510848 + 0x100 * i
abbrev AI_VALUE (i : Nat) : Nat := 0x51084C + 0x100 * i
abbrev AI_RAW (i : Nat) : Nat := 0x510850 + 0x100 * i
abbrev AI_TS_LO (i : Nat) : Nat := 0x510854 + 0x100 * i
abbrev AI_TS_HI (i : Nat) : Nat := 0x510858 + 0x100 * i
abbrev AIO_SUPPLY : Nat := 0x518000
abbrev RTC_STATUS : Nat := 0x600000
abbrev RTC_TIME : Nat := 0x600004
abbrev RTC_DATE : Nat := 0x600008
abbrev RTC_SUB : Nat := 0x60000C
abbrev RTC_SET_DATE : Nat := 0x600010
abbrev RTC_SET_TIME : Nat := 0x600014
abbrev RTC_ALM_TIME (i : Nat) : Nat := 0x600020 + 0x8 * i
abbrev RTC_ALM_DATE (i : Nat) : Nat := 0x600024 + 0x8 * i
abbrev RTC_OPHOURS : Nat := 0x600030
abbrev RTC_OPSEC : Nat := 0x600034
abbrev RTC_PCYCLES : Nat := 0x600038
abbrev RTC_CELL : Nat := 0x60003C
abbrev REC_CMD : Nat := 0x610000
abbrev REC_CMD_STATUS : Nat := 0x610004
abbrev REC_STATUS : Nat := 0x610008
abbrev REC_REFUSED : Nat := 0x61000C
abbrev REC_SEQ : Nat := 0x610010
abbrev REC_REGION : Nat := 0x610014
abbrev REC_FEED_VAL : Nat := 0x610018
abbrev REC_FEED : Nat := 0x61001C
abbrev REC_SCRUB : Nat := 0x610020
abbrev REC_WEAR : Nat := 0x610024
abbrev REC_WEAR_BAD : Nat := 0x610028
abbrev REC_ARCH : Nat := 0x61002C
abbrev REC_H_CFG (i : Nat) : Nat := 0x611000 + 0x10 * i
abbrev REC_H_BASE (i : Nat) : Nat := 0x611004 + 0x10 * i
abbrev REC_H_WIDTH (i : Nat) : Nat := 0x611008 + 0x10 * i
abbrev SVC_STATUS : Nat := 0x700000
abbrev SVC_ADDR : Nat := 0x700004
abbrev SVC_CLIENT : Nat := 0x700008
abbrev SVC_CNT : Nat := 0x70000C
abbrev UPD_CMD : Nat := 0x700100
abbrev UPD_CMD_STATUS : Nat := 0x700104
abbrev UPD_STATUS : Nat := 0x700108
abbrev UPD_SLOTS : Nat := 0x70010C
abbrev UPD_PROGRESS : Nat := 0x700110
abbrev UPD_BOOT : Nat := 0x700114
abbrev UPD_CFG : Nat := 0x700118
abbrev UPD_VERSION : Nat := 0x70011C
abbrev BIST_CMD : Nat := 0x710000
abbrev BIST_CMD_STATUS : Nat := 0x710004
abbrev BIST_STATUS : Nat := 0x710008
abbrev BIST_RES (i : Nat) : Nat := 0x710010 + 0x8 * i
abbrev BIST_DUR (i : Nat) : Nat := 0x710014 + 0x8 * i
abbrev QUE_RING_BASE (i : Nat) : Nat := 0x800000 + 0x40 * i
abbrev QUE_CFG (i : Nat) : Nat := 0x800004 + 0x40 * i
abbrev QUE_TAIL (i : Nat) : Nat := 0x800008 + 0x40 * i
abbrev QUE_HEAD (i : Nat) : Nat := 0x80000C + 0x40 * i
abbrev QUE_STATUS (i : Nat) : Nat := 0x800010 + 0x40 * i
abbrev QUE_COUNT (i : Nat) : Nat := 0x800014 + 0x40 * i
abbrev QUE_POOL : Nat := 0x802000
abbrev QUE_ECC_CNT : Nat := 0x802008
abbrev QUE_ECC_ADDR : Nat := 0x80200C

abbrev SYS_ID_part : Fld := ⟨16, 16⟩
abbrev SYS_ID_variant : Fld := ⟨8, 8⟩
abbrev SYS_ID_rev : Fld := ⟨0, 8⟩
abbrev SYS_STATE_designation : Fld := ⟨16, 1⟩
abbrev SYS_STATE_cause : Fld := ⟨8, 8⟩
abbrev SYS_STATE_prev : Fld := ⟨4, 3⟩
abbrev SYS_STATE_state : Fld := ⟨0, 3⟩
abbrev SYS_CMD_cmd : Fld := ⟨0, 4⟩
abbrev SYS_CMD_STATUS_cmd : Fld := ⟨12, 4⟩
abbrev SYS_CMD_STATUS_state : Fld := ⟨8, 3⟩
abbrev SYS_CMD_STATUS_status : Fld := ⟨0, 4⟩
abbrev SYS_CFG_autostart : Fld := ⟨0, 1⟩
abbrev SYS_HW_FAULT_valid : Fld := ⟨31, 1⟩
abbrev SYS_HW_FAULT_master : Fld := ⟨24, 7⟩
abbrev SYS_HW_FAULT_rule_b : Fld := ⟨16, 8⟩
abbrev SYS_HW_FAULT_rule_a : Fld := ⟨8, 8⟩
abbrev SYS_HW_FAULT_count : Fld := ⟨0, 8⟩
abbrev ENG_CTRL_bg_enable : Fld := ⟨8, 1⟩
abbrev ENG_CTRL_ovr_limit : Fld := ⟨0, 4⟩
abbrev ENG_STATUS_running : Fld := ⟨8, 4⟩
abbrev ENG_STATUS_present : Fld := ⟨4, 4⟩
abbrev ENG_STATUS_executing : Fld := ⟨0, 1⟩
abbrev ENG_OVR_STATUS_wd_trip : Fld := ⟨31, 1⟩
abbrev ENG_OVR_STATUS_wd_class : Fld := ⟨29, 2⟩
abbrev ENG_OVR_STATUS_consec_slow : Fld := ⟨16, 4⟩
abbrev ENG_OVR_STATUS_consec_mid : Fld := ⟨12, 4⟩
abbrev ENG_OVR_STATUS_consec_fast : Fld := ⟨8, 4⟩
abbrev ENG_OVR_STATUS_ovr_slow : Fld := ⟨2, 1⟩
abbrev ENG_OVR_STATUS_ovr_mid : Fld := ⟨1, 1⟩
abbrev ENG_OVR_STATUS_ovr_fast : Fld := ⟨0, 1⟩
abbrev ENG_INJECT_count : Fld := ⟨4, 4⟩
abbrev ENG_INJECT_class : Fld := ⟨0, 2⟩
abbrev ENG_CLS_CFG_present : Fld := ⟨31, 1⟩
abbrev ENG_CLS_CFG_n : Fld := ⟨0, 12⟩
abbrev ENG_CLS_CYCLE_value : Fld := ⟨0, 32⟩
abbrev ENG_CLS_RELOFS_value : Fld := ⟨0, 32⟩
abbrev ENG_CLS_LAST_value : Fld := ⟨0, 32⟩
abbrev ENG_CLS_MAX_value : Fld := ⟨0, 32⟩
abbrev ENG_CLS_OVR_time_skips : Fld := ⟨24, 8⟩
abbrev ENG_CLS_OVR_ovr_skips : Fld := ⟨16, 8⟩
abbrev ENG_CLS_OVR_overruns : Fld := ⟨0, 16⟩
abbrev IMG_STATUS_simulated : Fld := ⟨16, 9⟩
abbrev IMG_STATUS_forced : Fld := ⟨0, 9⟩
abbrev IMG_PUB_SEQ_seq : Fld := ⟨0, 32⟩
abbrev IMG_OVR_REJECT_valid : Fld := ⟨31, 1⟩
abbrev IMG_OVR_REJECT_count : Fld := ⟨16, 8⟩
abbrev IMG_OVR_REJECT_reason : Fld := ⟨8, 8⟩
abbrev IMG_OVR_REJECT_entry : Fld := ⟨0, 8⟩
abbrev IMG_STALE_CNT_words : Fld := ⟨0, 18⟩
abbrev IMG_SUBST_CNT_words : Fld := ⟨0, 18⟩
abbrev IMG_FAULT_CNT_words : Fld := ⟨0, 18⟩
abbrev IMG_SMT_CNT_outputs : Fld := ⟨16, 16⟩
abbrev IMG_SMT_CNT_inputs : Fld := ⟨0, 16⟩
abbrev IMG_OVR_CTL_q : Fld := ⟨24, 8⟩
abbrev IMG_OVR_CTL_en : Fld := ⟨23, 1⟩
abbrev IMG_OVR_CTL_mode : Fld := ⟨22, 1⟩
abbrev IMG_OVR_CTL_sig : Fld := ⟨0, 17⟩
abbrev IMG_OVR_LO_value : Fld := ⟨0, 32⟩
abbrev IMG_OVR_HI_value : Fld := ⟨0, 32⟩
abbrev CLK_REF_CFG_pref : Fld := ⟨0, 2⟩
abbrev CLK_REF_STATUS_pll1_lock : Fld := ⟨11, 1⟩
abbrev CLK_REF_STATUS_holdover : Fld := ⟨10, 1⟩
abbrev CLK_REF_STATUS_pll0_lock : Fld := ⟨9, 1⟩
abbrev CLK_REF_STATUS_sel : Fld := ⟨8, 1⟩
abbrev CLK_REF_STATUS_state_b : Fld := ⟨4, 2⟩
abbrev CLK_REF_STATUS_state_a : Fld := ⟨0, 2⟩
abbrev CLK_REF_ALARM_suspect_used : Fld := ⟨4, 1⟩
abbrev CLK_REF_ALARM_disagree : Fld := ⟨3, 1⟩
abbrev CLK_REF_ALARM_holdover : Fld := ⟨2, 1⟩
abbrev CLK_REF_ALARM_lost_b : Fld := ⟨1, 1⟩
abbrev CLK_REF_ALARM_lost_a : Fld := ⟨0, 1⟩
abbrev CLK_LANE_A_good_run : Fld := ⟨24, 8⟩
abbrev CLK_LANE_A_count : Fld := ⟨0, 18⟩
abbrev CLK_LANE_B_good_run : Fld := ⟨24, 8⟩
abbrev CLK_LANE_B_count : Fld := ⟨0, 18⟩
abbrev CLK_REF_PPM_ppm : Fld := ⟨0, 16⟩
abbrev CLK_SWITCH_CNT_forced : Fld := ⟨16, 16⟩
abbrev CLK_SWITCH_CNT_switches : Fld := ⟨0, 16⟩
abbrev CLK_DIV_io : Fld := ⟨24, 8⟩
abbrev CLK_DIV_mgmt : Fld := ⟨16, 4⟩
abbrev CLK_DIV_store : Fld := ⟨8, 5⟩
abbrev CLK_DIV_core : Fld := ⟨0, 5⟩
abbrev CLK_DIV_STATUS_io : Fld := ⟨24, 8⟩
abbrev CLK_DIV_STATUS_mgmt : Fld := ⟨16, 4⟩
abbrev CLK_DIV_STATUS_store : Fld := ⟨8, 5⟩
abbrev CLK_DIV_STATUS_ramping : Fld := ⟨7, 1⟩
abbrev CLK_DIV_STATUS_core : Fld := ⟨0, 5⟩
abbrev CLK_GATE_CMD_op : Fld := ⟨8, 1⟩
abbrev CLK_GATE_CMD_gate : Fld := ⟨0, 6⟩
abbrev CLK_GATE_RESULT_blocker : Fld := ⟨16, 6⟩
abbrev CLK_GATE_RESULT_waiting : Fld := ⟨15, 1⟩
abbrev CLK_GATE_RESULT_gate : Fld := ⟨8, 6⟩
abbrev CLK_GATE_RESULT_status : Fld := ⟨0, 4⟩
abbrev CLK_GATE_LO_openg : Fld := ⟨0, 32⟩
abbrev CLK_GATE_HI_openg : Fld := ⟨0, 32⟩
abbrev CLK_GATED_ACC_count : Fld := ⟨0, 16⟩
abbrev PWR_STATUS_flush_rec : Fld := ⟨10, 1⟩
abbrev PWR_STATUS_flush_ret : Fld := ⟨9, 1⟩
abbrev PWR_STATUS_return_wait : Fld := ⟨8, 1⟩
abbrev PWR_STATUS_feed_b_ok : Fld := ⟨5, 1⟩
abbrev PWR_STATUS_feed_a_ok : Fld := ⟨4, 1⟩
abbrev PWR_STATUS_state : Fld := ⟨0, 1⟩
abbrev PWR_CFG_ride_us : Fld := ⟨0, 14⟩
abbrev PWR_ALARM_hot : Fld := ⟨5, 1⟩
abbrev PWR_ALARM_core_range : Fld := ⟨4, 1⟩
abbrev PWR_ALARM_returned : Fld := ⟨3, 1⟩
abbrev PWR_ALARM_holdup : Fld := ⟨2, 1⟩
abbrev PWR_ALARM_feed_b_low : Fld := ⟨1, 1⟩
abbrev PWR_ALARM_feed_a_low : Fld := ⟨0, 1⟩
abbrev PWR_FEED_feed_b : Fld := ⟨16, 16⟩
abbrev PWR_FEED_feed_a : Fld := ⟨0, 16⟩
abbrev PWR_BANK_bank : Fld := ⟨16, 16⟩
abbrev PWR_BANK_supply : Fld := ⟨0, 16⟩
abbrev PWR_CORE_tj : Fld := ⟨16, 16⟩
abbrev PWR_CORE_vcore : Fld := ⟨0, 16⟩
abbrev PWR_RESET_also : Fld := ⟨4, 4⟩
abbrev PWR_RESET_cause : Fld := ⟨0, 4⟩
abbrev PWR_EVENTS_clock_stops : Fld := ⟨24, 8⟩
abbrev PWR_EVENTS_returns : Fld := ⟨16, 8⟩
abbrev PWR_EVENTS_stops : Fld := ⟨8, 8⟩
abbrev PWR_EVENTS_holdups : Fld := ⟨0, 8⟩
abbrev PWR_LAST_HOLDUP_value : Fld := ⟨0, 32⟩
abbrev CTU_CMD_boundary : Fld := ⟨4, 2⟩
abbrev CTU_CMD_cmd : Fld := ⟨0, 4⟩
abbrev CTU_STATUS_refused_state : Fld := ⟨29, 3⟩
abbrev CTU_STATUS_staged : Fld := ⟨16, 13⟩
abbrev CTU_STATUS_cmd_status : Fld := ⟨12, 4⟩
abbrev CTU_STATUS_overflow : Fld := ⟨11, 1⟩
abbrev CTU_STATUS_conflict : Fld := ⟨10, 1⟩
abbrev CTU_STATUS_image : Fld := ⟨9, 1⟩
abbrev CTU_STATUS_aborted : Fld := ⟨7, 1⟩
abbrev CTU_STATUS_txn_state : Fld := ⟨0, 4⟩
abbrev CTU_CONFLICT_holder : Fld := ⟨28, 4⟩
abbrev CTU_CONFLICT_addr : Fld := ⟨2, 22⟩
abbrev CTU_IMAGE_BASE_base : Fld := ⟨3, 22⟩
abbrev CTU_IMAGE_LEN_len : Fld := ⟨0, 23⟩
abbrev CTU_LOAD_RESULT_step : Fld := ⟨24, 8⟩
abbrev CTU_LOAD_RESULT_part : Fld := ⟨16, 8⟩
abbrev CTU_LOAD_RESULT_type : Fld := ⟨8, 8⟩
abbrev CTU_LOAD_RESULT_code : Fld := ⟨0, 8⟩
abbrev CTU_LOAD_INDEX_value : Fld := ⟨0, 32⟩
abbrev CTU_LOAD_DETAIL_value : Fld := ⟨0, 32⟩
abbrev CTU_LOAD_LIMIT_value : Fld := ⟨0, 32⟩
abbrev CTU_RUN_ID_LO_value : Fld := ⟨0, 32⟩
abbrev CTU_RUN_ID_HI_value : Fld := ⟨0, 32⟩
abbrev CTU_COMMITS_value : Fld := ⟨0, 32⟩
abbrev BCAST_STATUS_offset : Fld := ⟨16, 12⟩
abbrev BCAST_STATUS_group : Fld := ⟨8, 1⟩
abbrev BCAST_STATUS_block : Fld := ⟨4, 4⟩
abbrev BCAST_STATUS_empty : Fld := ⟨2, 1⟩
abbrev BCAST_STATUS_skipped : Fld := ⟨1, 1⟩
abbrev BCAST_STATUS_mixed : Fld := ⟨0, 1⟩
abbrev BCAST_GMASK_DIO_LO_mask : Fld := ⟨0, 32⟩
abbrev BCAST_GMASK_DIO_HI_mask : Fld := ⟨0, 32⟩
abbrev BCAST_GMASK_AIO_mask : Fld := ⟨0, 16⟩
abbrev BCAST_GMASK_CAN_mask : Fld := ⟨0, 16⟩
abbrev BCAST_GMASK_FGR_mask : Fld := ⟨0, 12⟩
abbrev BCAST_GMASK_TTRG_mask : Fld := ⟨0, 16⟩
abbrev XCH_CMD_cmd : Fld := ⟨0, 4⟩
abbrev XCH_CMD_STATUS_cmd : Fld := ⟨12, 4⟩
abbrev XCH_CMD_STATUS_state : Fld := ⟨8, 3⟩
abbrev XCH_CMD_STATUS_status : Fld := ⟨0, 4⟩
abbrev XCH_STATUS_arch_fail : Fld := ⟨31, 1⟩
abbrev XCH_STATUS_lost : Fld := ⟨30, 1⟩
abbrev XCH_STATUS_deferrals : Fld := ⟨8, 8⟩
abbrev XCH_STATUS_state : Fld := ⟨0, 3⟩
abbrev XCH_BASE_LO_value : Fld := ⟨0, 32⟩
abbrev XCH_BASE_HI_value : Fld := ⟨0, 32⟩
abbrev XCH_SW_CYCLE_value : Fld := ⟨0, 32⟩
abbrev XCH_T_BOUND_value : Fld := ⟨0, 32⟩
abbrev XCH_T_LAST_value : Fld := ⟨0, 32⟩
abbrev XCH_CNT_CARRY_count : Fld := ⟨0, 17⟩
abbrev XCH_CNT_CONV_count : Fld := ⟨0, 17⟩
abbrev XCH_CNT_INIT_count : Fld := ⟨0, 17⟩
abbrev XCH_CNT_DROP_count : Fld := ⟨0, 17⟩
abbrev ART_STATUS_draining : Fld := ⟨31, 1⟩
abbrev ART_STATUS_enabled : Fld := ⟨16, 9⟩
abbrev ART_STATUS_epoch : Fld := ⟨0, 16⟩
abbrev ART_COMMIT_FAULT_valid : Fld := ⟨31, 1⟩
abbrev ART_COMMIT_FAULT_reason : Fld := ⟨24, 3⟩
abbrev ART_COMMIT_FAULT_rule_b : Fld := ⟨8, 8⟩
abbrev ART_COMMIT_FAULT_rule_a : Fld := ⟨0, 8⟩
abbrev ART_FAULT_INFO_valid : Fld := ⟨31, 1⟩
abbrev ART_FAULT_INFO_master : Fld := ⟨24, 7⟩
abbrev ART_FAULT_INFO_nomatch : Fld := ⟨23, 1⟩
abbrev ART_FAULT_INFO_priv : Fld := ⟨20, 2⟩
abbrev ART_FAULT_INFO_kind : Fld := ⟨16, 4⟩
abbrev ART_FAULT_INFO_rule : Fld := ⟨8, 8⟩
abbrev ART_FAULT_INFO_count : Fld := ⟨0, 8⟩
abbrev ART_FAULT_ADDR_value : Fld := ⟨0, 32⟩
abbrev ART_NOTICE_valid : Fld := ⟨31, 1⟩
abbrev ART_NOTICE_master : Fld := ⟨24, 7⟩
abbrev ART_NOTICE_count : Fld := ⟨16, 8⟩
abbrev ART_NOTICE_epoch : Fld := ⟨0, 16⟩
abbrev ART_REFUSED_precise : Fld := ⟨16, 16⟩
abbrev ART_REFUSED_posted : Fld := ⟨0, 16⟩
abbrev ART_BASE_base : Fld := ⟨6, 26⟩
abbrev ART_SIZE_size : Fld := ⟨6, 26⟩
abbrev ART_MASTERS_mset : Fld := ⟨0, 17⟩
abbrev ART_ATTR_enable : Fld := ⟨31, 1⟩
abbrev ART_ATTR_vault : Fld := ⟨8, 1⟩
abbrev ART_ATTR_priv_u : Fld := ⟨6, 1⟩
abbrev ART_ATTR_priv_s : Fld := ⟨5, 1⟩
abbrev ART_ATTR_priv_m : Fld := ⟨4, 1⟩
abbrev ART_ATTR_x : Fld := ⟨2, 1⟩
abbrev ART_ATTR_w : Fld := ⟨1, 1⟩
abbrev ART_ATTR_r : Fld := ⟨0, 1⟩
abbrev SEC_STATUS_copy1 : Fld := ⟨10, 2⟩
abbrev SEC_STATUS_copy0 : Fld := ⟨8, 2⟩
abbrev SEC_STATUS_state : Fld := ⟨0, 2⟩
abbrev SEC_CMD_cmd : Fld := ⟨0, 4⟩
abbrev SEC_CMD_STATUS_cmd : Fld := ⟨12, 4⟩
abbrev SEC_CMD_STATUS_state : Fld := ⟨8, 3⟩
abbrev SEC_CMD_STATUS_status : Fld := ⟨0, 4⟩
abbrev SEC_KEY_ID_value : Fld := ⟨0, 32⟩
abbrev SEC_KEY_CTL_valid : Fld := ⟨31, 1⟩
abbrev SEC_KEY_CTL_revoked : Fld := ⟨30, 1⟩
abbrev SEC_KEY_CTL_purpose : Fld := ⟨0, 2⟩
abbrev SEC_KEY_PUB_value : Fld := ⟨0, 32⟩
abbrev DBG_CTRL_close : Fld := ⟨1, 1⟩
abbrev DBG_CTRL_openr : Fld := ⟨0, 1⟩
abbrev DBG_STATUS_fails : Fld := ⟨16, 8⟩
abbrev DBG_STATUS_opened_by : Fld := ⟨8, 4⟩
abbrev DBG_STATUS_mc1_halted : Fld := ⟨5, 1⟩
abbrev DBG_STATUS_mc0_halted : Fld := ⟨4, 1⟩
abbrev DBG_STATUS_frozen : Fld := ⟨3, 1⟩
abbrev DBG_STATUS_locked : Fld := ⟨2, 1⟩
abbrev DBG_STATUS_state : Fld := ⟨0, 2⟩
abbrev DBG_CMD_cmd : Fld := ⟨0, 4⟩
abbrev DBG_CMD_STATUS_cmd : Fld := ⟨12, 4⟩
abbrev DBG_CMD_STATUS_state : Fld := ⟨8, 3⟩
abbrev DBG_CMD_STATUS_status : Fld := ⟨0, 4⟩
abbrev DBG_NONCE_value : Fld := ⟨0, 32⟩
abbrev DBG_RESP_value : Fld := ⟨0, 32⟩
abbrev DBG_VAULT_CNT_count : Fld := ⟨0, 16⟩
abbrev DBG_VAULT_ADDR_value : Fld := ⟨0, 32⟩
abbrev LANE_CMD_cmd : Fld := ⟨0, 4⟩
abbrev LANE_CMD_STATUS_cmd : Fld := ⟨12, 4⟩
abbrev LANE_CMD_STATUS_state : Fld := ⟨8, 3⟩
abbrev LANE_CMD_STATUS_status : Fld := ⟨0, 4⟩
abbrev LANE_CFG_solo_policy : Fld := ⟨0, 1⟩
abbrev LANE_STATUS_latent_hist : Fld := ⟨6, 2⟩
abbrev LANE_STATUS_degraded : Fld := ⟨5, 1⟩
abbrev LANE_STATUS_split_req : Fld := ⟨4, 1⟩
abbrev LANE_STATUS_pending : Fld := ⟨3, 1⟩
abbrev LANE_STATUS_b_off : Fld := ⟨2, 1⟩
abbrev LANE_STATUS_mode : Fld := ⟨0, 1⟩
abbrev LANE_CNT_faults : Fld := ⟨16, 16⟩
abbrev LANE_CNT_latent : Fld := ⟨0, 16⟩
abbrev LANE_INJECT_arm : Fld := ⟨31, 1⟩
abbrev LANE_INJECT_block : Fld := ⟨0, 16⟩
abbrev LANE_MM_INFO_valid : Fld := ⟨31, 1⟩
abbrev LANE_MM_INFO_result : Fld := ⟨29, 2⟩
abbrev LANE_MM_INFO_kind : Fld := ⟨24, 4⟩
abbrev LANE_MM_INFO_source : Fld := ⟨20, 3⟩
abbrev LANE_MM_INFO_class : Fld := ⟨16, 2⟩
abbrev LANE_MM_INFO_unit : Fld := ⟨8, 4⟩
abbrev LANE_MM_INFO_count : Fld := ⟨0, 8⟩
abbrev LANE_MM_REF_ref : Fld := ⟨0, 16⟩
abbrev LANE_MM_ADDR_offset : Fld := ⟨0, 25⟩
abbrev LANE_MM_CYCLE_value : Fld := ⟨0, 32⟩
abbrev LANE_MM_A_LO_value : Fld := ⟨0, 32⟩
abbrev LANE_MM_A_HI_value : Fld := ⟨0, 32⟩
abbrev LANE_MM_B_LO_value : Fld := ⟨0, 32⟩
abbrev LANE_MM_B_HI_value : Fld := ⟨0, 32⟩
abbrev LANE_MM_Q_q_b : Fld := ⟨8, 8⟩
abbrev LANE_MM_Q_q_a : Fld := ⟨0, 8⟩
abbrev LSE_CTRL_reg_hold : Fld := ⟨0, 1⟩
abbrev LSE_STATUS_busy : Fld := ⟨31, 1⟩
abbrev LSE_STATUS_cascades : Fld := ⟨24, 3⟩
abbrev LSE_STATUS_regs : Fld := ⟨16, 8⟩
abbrev LSE_STATUS_slaves : Fld := ⟨8, 8⟩
abbrev LSE_STATUS_masters : Fld := ⟨0, 4⟩
abbrev LSE_T_BOUND_value : Fld := ⟨0, 32⟩
abbrev LSE_T_LAST_value : Fld := ⟨0, 32⟩
abbrev LSE_T_MAX_value : Fld := ⟨0, 32⟩
abbrev LSE_JOIN_CNT_count : Fld := ⟨0, 16⟩
abbrev LSE_M_STATE_limited : Fld := ⟨3, 1⟩
abbrev LSE_M_STATE_at_speed : Fld := ⟨2, 1⟩
abbrev LSE_M_STATE_qs : Fld := ⟨1, 1⟩
abbrev LSE_M_STATE_en : Fld := ⟨0, 1⟩
abbrev LSE_M_POS_LO_value : Fld := ⟨0, 32⟩
abbrev LSE_M_POS_HI_value : Fld := ⟨0, 32⟩
abbrev LSE_M_VEL_LO_value : Fld := ⟨0, 32⟩
abbrev LSE_M_VEL_HI_value : Fld := ⟨0, 32⟩
abbrev LSE_M_ACC_LO_value : Fld := ⟨0, 32⟩
abbrev LSE_M_ACC_HI_value : Fld := ⟨0, 32⟩
abbrev LSE_S_STATE_overspeed : Fld := ⟨9, 1⟩
abbrev LSE_S_STATE_bad_ratio : Fld := ⟨8, 1⟩
abbrev LSE_S_STATE_clamped : Fld := ⟨7, 1⟩
abbrev LSE_S_STATE_trimming : Fld := ⟨6, 1⟩
abbrev LSE_S_STATE_joined : Fld := ⟨5, 1⟩
abbrev LSE_S_STATE_hold : Fld := ⟨4, 1⟩
abbrev LSE_S_STATE_mode : Fld := ⟨1, 2⟩
abbrev LSE_S_STATE_en : Fld := ⟨0, 1⟩
abbrev LSE_S_NUM_value : Fld := ⟨0, 32⟩
abbrev LSE_S_DEN_value : Fld := ⟨0, 32⟩
abbrev LSE_S_REM_value : Fld := ⟨0, 32⟩
abbrev LSE_S_POS_LO_value : Fld := ⟨0, 32⟩
abbrev LSE_S_POS_HI_value : Fld := ⟨0, 32⟩
abbrev LSE_S_OFS_LO_value : Fld := ⟨0, 32⟩
abbrev LSE_S_OFS_HI_value : Fld := ⟨0, 32⟩
abbrev LSE_S_CMD_LO_value : Fld := ⟨0, 32⟩
abbrev LSE_S_CMD_HI_value : Fld := ⟨0, 32⟩
abbrev LSE_S_PHASE_value : Fld := ⟨0, 32⟩
abbrev LSE_S_HELD_valid : Fld := ⟨31, 1⟩
abbrev LSE_S_HELD_validity : Fld := ⟨16, 3⟩
abbrev LSE_S_HELD_origin : Fld := ⟨0, 16⟩
abbrev LSE_R_STATE_accepted : Fld := ⟨16, 16⟩
abbrev LSE_R_STATE_misses : Fld := ⟨8, 8⟩
abbrev LSE_R_STATE_result : Fld := ⟨0, 3⟩
abbrev LSE_R_ERR_LO_value : Fld := ⟨0, 32⟩
abbrev LSE_R_ERR_HI_value : Fld := ⟨0, 32⟩
abbrev LSE_R_OFS_LO_value : Fld := ⟨0, 32⟩
abbrev LSE_R_OFS_HI_value : Fld := ⟨0, 32⟩
abbrev LSE_C_STATE_clamped : Fld := ⟨0, 16⟩
abbrev LSE_C_FACT_value : Fld := ⟨0, 32⟩
abbrev LSE_C_NEXT_value : Fld := ⟨0, 32⟩
abbrev RED_CFG_ring_handover : Fld := ⟨4, 1⟩
abbrev RED_CFG_desig : Fld := ⟨0, 2⟩
abbrev RED_HOLDOFF_seconds : Fld := ⟨0, 17⟩
abbrev RED_PAIR_ID_value : Fld := ⟨0, 32⟩
abbrev RED_STATUS_partner_state : Fld := ⟨29, 3⟩
abbrev RED_STATUS_partner_seen : Fld := ⟨28, 1⟩
abbrev RED_STATUS_partner_ready : Fld := ⟨27, 1⟩
abbrev RED_STATUS_leaving : Fld := ⟨26, 1⟩
abbrev RED_STATUS_lanes_up : Fld := ⟨24, 2⟩
abbrev RED_STATUS_ready : Fld := ⟨23, 1⟩
abbrev RED_STATUS_lagging : Fld := ⟨22, 1⟩
abbrev RED_STATUS_isolated : Fld := ⟨21, 1⟩
abbrev RED_STATUS_time_ok : Fld := ⟨20, 1⟩
abbrev RED_STATUS_owner : Fld := ⟨16, 2⟩
abbrev RED_STATUS_rings_own : Fld := ⟨8, 6⟩
abbrev RED_STATUS_rings_partner : Fld := ⟨0, 6⟩
abbrev RED_ALARM_ckpt_abort : Fld := ⟨12, 1⟩
abbrev RED_ALARM_leaving_seen : Fld := ⟨11, 1⟩
abbrev RED_ALARM_go_lost : Fld := ⟨10, 1⟩
abbrev RED_ALARM_superseded : Fld := ⟨9, 1⟩
abbrev RED_ALARM_no_claim : Fld := ⟨8, 1⟩
abbrev RED_ALARM_handover_failed : Fld := ⟨7, 1⟩
abbrev RED_ALARM_pair_mismatch : Fld := ⟨6, 1⟩
abbrev RED_ALARM_desig_clash : Fld := ⟨5, 1⟩
abbrev RED_ALARM_isolated : Fld := ⟨4, 1⟩
abbrev RED_ALARM_lag_timeout : Fld := ⟨3, 1⟩
abbrev RED_ALARM_detached : Fld := ⟨2, 1⟩
abbrev RED_ALARM_tether_down : Fld := ⟨1, 1⟩
abbrev RED_ALARM_tether_lane : Fld := ⟨0, 1⟩
abbrev RED_EPOCH_value : Fld := ⟨0, 32⟩
abbrev RED_EPOCH_SEEN_value : Fld := ⟨0, 32⟩
abbrev RED_CKPT_value : Fld := ⟨0, 32⟩
abbrev RED_CKPT_SIZE_bytes : Fld := ⟨0, 25⟩
abbrev RED_CKPT_BUDGET_bytes : Fld := ⟨0, 25⟩
abbrev RED_COUNTS_lag : Fld := ⟨16, 7⟩
abbrev RED_COUNTS_isolation : Fld := ⟨8, 4⟩
abbrev RED_COUNTS_silence : Fld := ⟨0, 4⟩
abbrev RED_HANDOVER_cycle : Fld := ⟨16, 16⟩
abbrev RED_HANDOVER_attempts : Fld := ⟨8, 5⟩
abbrev RED_HANDOVER_state : Fld := ⟨0, 3⟩
abbrev RED_HOLDOFF_LEFT_value : Fld := ⟨0, 32⟩
abbrev RED_EVENTS_superseded : Fld := ⟨24, 8⟩
abbrev RED_EVENTS_handovers : Fld := ⟨16, 8⟩
abbrev RED_EVENTS_claims : Fld := ⟨8, 8⟩
abbrev RED_EVENTS_resigned : Fld := ⟨0, 8⟩
abbrev RED_LAST_TAKEOVER_trigger : Fld := ⟨8, 4⟩
abbrev RED_LAST_TAKEOVER_missed : Fld := ⟨0, 8⟩
abbrev RED_LANE_bad_cnt : Fld := ⟨16, 16⟩
abbrev RED_LANE_sfp_present : Fld := ⟨3, 1⟩
abbrev RED_LANE_rx_los : Fld := ⟨2, 1⟩
abbrev RED_LANE_partner_rx : Fld := ⟨1, 1⟩
abbrev RED_LANE_up : Fld := ⟨0, 1⟩
abbrev FGR_P_STATUS_returned : Fld := ⟨7, 1⟩
abbrev FGR_P_STATUS_ring : Fld := ⟨4, 3⟩
abbrev FGR_P_STATUS_role : Fld := ⟨2, 2⟩
abbrev FGR_P_STATUS_forwarding : Fld := ⟨1, 1⟩
abbrev FGR_P_STATUS_link : Fld := ⟨0, 1⟩
abbrev FGR_P_RX_value : Fld := ⟨0, 32⟩
abbrev FGR_P_FWD_value : Fld := ⟨0, 32⟩
abbrev FGR_P_ERR_bad_fcs : Fld := ⟨16, 16⟩
abbrev FGR_P_ERR_bad_format : Fld := ⟨0, 16⟩
abbrev FGR_P_VIOL_slot : Fld := ⟨24, 8⟩
abbrev FGR_P_VIOL_rogue : Fld := ⟨16, 8⟩
abbrev FGR_P_VIOL_foreign : Fld := ⟨8, 8⟩
abbrev FGR_P_VIOL_older : Fld := ⟨0, 8⟩
abbrev FGR_ETYPE_etype : Fld := ⟨0, 16⟩
abbrev FGR_RING_STATUS_used : Fld := ⟨27, 1⟩
abbrev FGR_RING_STATUS_link_b : Fld := ⟨26, 1⟩
abbrev FGR_RING_STATUS_link_a : Fld := ⟨25, 1⟩
abbrev FGR_RING_STATUS_closed : Fld := ⟨24, 1⟩
abbrev FGR_RING_STATUS_conflict : Fld := ⟨16, 8⟩
abbrev FGR_RING_STATUS_lost : Fld := ⟨8, 8⟩
abbrev FGR_RING_STATUS_fresh : Fld := ⟨0, 8⟩
abbrev FGR_RING_ALARM_slot_violation : Fld := ⟨5, 1⟩
abbrev FGR_RING_ALARM_rogue : Fld := ⟨4, 1⟩
abbrev FGR_RING_ALARM_id_mismatch : Fld := ⟨3, 1⟩
abbrev FGR_RING_ALARM_conflict : Fld := ⟨2, 1⟩
abbrev FGR_RING_ALARM_station_lost : Fld := ⟨1, 1⟩
abbrev FGR_RING_ALARM_ring_open : Fld := ⟨0, 1⟩
abbrev FGR_STA_missing : Fld := ⟨16, 8⟩
abbrev FGR_STA_st_status : Fld := ⟨8, 8⟩
abbrev FGR_STA_conflict : Fld := ⟨7, 1⟩
abbrev FGR_STA_id_mismatch : Fld := ⟨6, 1⟩
abbrev FGR_STA_stale_pair : Fld := ⟨5, 1⟩
abbrev FGR_STA_via_b : Fld := ⟨4, 1⟩
abbrev FGR_STA_via_a : Fld := ⟨3, 1⟩
abbrev FGR_STA_state : Fld := ⟨0, 3⟩
abbrev TIME_CTRL_arm : Fld := ⟨1, 1⟩
abbrev TIME_CTRL_mode : Fld := ⟨0, 1⟩
abbrev TIME_STATUS_refused_cnt : Fld := ⟨16, 8⟩
abbrev TIME_STATUS_steps : Fld := ⟨8, 8⟩
abbrev TIME_STATUS_step_refused : Fld := ⟨1, 1⟩
abbrev TIME_STATUS_inc_clamped : Fld := ⟨0, 1⟩
abbrev TIME_CFG_gm_enable : Fld := ⟨8, 1⟩
abbrev TIME_CFG_domain : Fld := ⟨0, 7⟩
abbrev TIME_NOW_LO_value : Fld := ⟨0, 32⟩
abbrev TIME_NOW_HI_value : Fld := ⟨0, 32⟩
abbrev TIME_RAW_LO_value : Fld := ⟨0, 32⟩
abbrev TIME_RAW_HI_value : Fld := ⟨0, 32⟩
abbrev TIME_INC_LO_value : Fld := ⟨0, 32⟩
abbrev TIME_INC_HI_value : Fld := ⟨0, 16⟩
abbrev TIME_STEP_LO_value : Fld := ⟨0, 32⟩
abbrev TIME_STEP_HI_value : Fld := ⟨0, 32⟩
abbrev TIME_OFS_LO_value : Fld := ⟨0, 32⟩
abbrev TIME_OFS_HI_value : Fld := ⟨0, 32⟩
abbrev TIME_CAP_CFG_snap : Fld := ⟨16, 1⟩
abbrev TIME_CAP_CFG_mode : Fld := ⟨12, 1⟩
abbrev TIME_CAP_CFG_edge : Fld := ⟨8, 2⟩
abbrev TIME_CAP_CFG_src : Fld := ⟨0, 6⟩
abbrev TIME_CAP_LO_value : Fld := ⟨0, 32⟩
abbrev TIME_CAP_HI_valid : Fld := ⟨31, 1⟩
abbrev TIME_CAP_HI_missed : Fld := ⟨30, 1⟩
abbrev TIME_CAP_HI_seq : Fld := ⟨16, 8⟩
abbrev TIME_CAP_HI_wrap : Fld := ⟨0, 16⟩
abbrev PTP_P_CFG_ptp : Fld := ⟨0, 8⟩
abbrev PTP_LAT_IN_value : Fld := ⟨0, 16⟩
abbrev PTP_LAT_OUT_value : Fld := ⟨0, 16⟩
abbrev PTP_ASYM_value : Fld := ⟨0, 16⟩
abbrev PTP_LINK_DELAY_value : Fld := ⟨0, 32⟩
abbrev PTP_TXTS_TAG_valid : Fld := ⟨31, 1⟩
abbrev PTP_TXTS_TAG_aborted : Fld := ⟨30, 1⟩
abbrev PTP_TXTS_TAG_msg_type : Fld := ⟨24, 4⟩
abbrev PTP_TXTS_TAG_port : Fld := ⟨16, 4⟩
abbrev PTP_TXTS_TAG_tag : Fld := ⟨0, 16⟩
abbrev PTP_TXTS_LO_value : Fld := ⟨0, 32⟩
abbrev PTP_TXTS_HI_wrap : Fld := ⟨0, 16⟩
abbrev PTP_TXTS_STATUS_overflow : Fld := ⟨31, 1⟩
abbrev PTP_TXTS_STATUS_ovf_cnt : Fld := ⟨16, 8⟩
abbrev PTP_TXTS_STATUS_count : Fld := ⟨0, 5⟩
abbrev TTRG_CTL_image : Fld := ⟨31, 1⟩
abbrev TTRG_CTL_every : Fld := ⟨8, 8⟩
abbrev TTRG_CTL_target : Fld := ⟨4, 3⟩
abbrev TTRG_CTL_class : Fld := ⟨2, 2⟩
abbrev TTRG_CTL_timing : Fld := ⟨0, 2⟩
abbrev TTRG_START_LO_value : Fld := ⟨0, 32⟩
abbrev TTRG_START_HI_value : Fld := ⟨0, 32⟩
abbrev TTRG_PERIOD_value : Fld := ⟨0, 32⟩
abbrev TTRG_ARG_value : Fld := ⟨0, 32⟩
abbrev TTRG_WIDTH_value : Fld := ⟨0, 32⟩
abbrev TTRG_STATUS_waiting : Fld := ⟨3, 1⟩
abbrev TTRG_STATUS_suppressed : Fld := ⟨2, 1⟩
abbrev TTRG_STATUS_late : Fld := ⟨1, 1⟩
abbrev TTRG_STATUS_fired : Fld := ⟨0, 1⟩
abbrev TTRG_COUNT_skips : Fld := ⟨16, 16⟩
abbrev TTRG_COUNT_fires : Fld := ⟨0, 16⟩
abbrev TTRG_LAST_LO_value : Fld := ⟨0, 32⟩
abbrev TTRG_LAST_HI_value : Fld := ⟨0, 32⟩
abbrev CAN_CFG_tdco : Fld := ⟨8, 7⟩
abbrev CAN_CFG_loopback : Fld := ⟨4, 1⟩
abbrev CAN_CFG_tdc_en : Fld := ⟨3, 1⟩
abbrev CAN_CFG_auto_recover : Fld := ⟨2, 1⟩
abbrev CAN_CFG_mode : Fld := ⟨0, 2⟩
abbrev CAN_NBT_sjw : Fld := ⟨25, 7⟩
abbrev CAN_NBT_tseg2 : Fld := ⟨18, 7⟩
abbrev CAN_NBT_tseg1 : Fld := ⟨10, 8⟩
abbrev CAN_NBT_brp : Fld := ⟨0, 10⟩
abbrev CAN_DBT_sjw : Fld := ⟨14, 4⟩
abbrev CAN_DBT_tseg2 : Fld := ⟨10, 4⟩
abbrev CAN_DBT_tseg1 : Fld := ⟨5, 5⟩
abbrev CAN_DBT_brp : Fld := ⟨0, 5⟩
abbrev CAN_CTRL_svc_tx : Fld := ⟨1, 1⟩
abbrev CAN_CTRL_recover : Fld := ⟨0, 1⟩
abbrev CAN_STATUS_monitor : Fld := ⟨3, 1⟩
abbrev CAN_STATUS_state : Fld := ⟨0, 3⟩
abbrev CAN_ERRCNT_rec : Fld := ⟨16, 8⟩
abbrev CAN_ERRCNT_tec : Fld := ⟨0, 9⟩
abbrev CAN_ERRS_clash : Fld := ⟨24, 8⟩
abbrev CAN_ERRS_len_mismatch : Fld := ⟨16, 8⟩
abbrev CAN_ERRS_proto : Fld := ⟨8, 8⟩
abbrev CAN_ERRS_bit : Fld := ⟨0, 8⟩
abbrev CAN_ALARM_window_missed : Fld := ⟨6, 1⟩
abbrev CAN_ALARM_ref_backup : Fld := ⟨5, 1⟩
abbrev CAN_ALARM_proto_exc : Fld := ⟨4, 1⟩
abbrev CAN_ALARM_rx_drop : Fld := ⟨3, 1⟩
abbrev CAN_ALARM_id_clash : Fld := ⟨2, 1⟩
abbrev CAN_ALARM_error_passive : Fld := ⟨1, 1⟩
abbrev CAN_ALARM_bus_off : Fld := ⟨0, 1⟩
abbrev CAN_CLASH_count : Fld := ⟨30, 2⟩
abbrev CAN_CLASH_ide : Fld := ⟨29, 1⟩
abbrev CAN_CLASH_id : Fld := ⟨0, 29⟩
abbrev CAN_B_TIME_value : Fld := ⟨0, 32⟩
abbrev CAN_REF_STATUS_prio : Fld := ⟨12, 3⟩
abbrev CAN_REF_STATUS_role : Fld := ⟨8, 2⟩
abbrev CAN_REF_STATUS_gap_seen : Fld := ⟨7, 1⟩
abbrev CAN_REF_STATUS_cycle_count : Fld := ⟨0, 6⟩
abbrev CAN_REF_MARK_LO_value : Fld := ⟨0, 32⟩
abbrev CAN_REF_MARK_HI_value : Fld := ⟨0, 32⟩
abbrev CAN_TXB_CANCEL_value : Fld := ⟨0, 32⟩
abbrev CAN_TXB_PEND_value : Fld := ⟨0, 32⟩
abbrev CAN_TXB_STAT_pend : Fld := ⟨31, 1⟩
abbrev CAN_TXB_STAT_cancel_req : Fld := ⟨30, 1⟩
abbrev CAN_TXB_STAT_owner : Fld := ⟨28, 2⟩
abbrev CAN_TXB_STAT_attempts : Fld := ⟨16, 8⟩
abbrev CAN_TXB_STAT_cancel : Fld := ⟨8, 3⟩
abbrev CAN_TXB_STAT_result : Fld := ⟨0, 3⟩
abbrev CAN_RX_CFG_window : Fld := ⟨0, 1⟩
abbrev CAN_RX_STATUS_lock_timeout : Fld := ⟨31, 1⟩
abbrev CAN_RX_STATUS_locked : Fld := ⟨30, 1⟩
abbrev CAN_RX_STATUS_holder : Fld := ⟨27, 3⟩
abbrev CAN_RX_STATUS_held : Fld := ⟨0, 13⟩
abbrev CAN_RXW_value : Fld := ⟨0, 32⟩
abbrev DIO_CH_CFG_paralleled : Fld := ⟨16, 1⟩
abbrev DIO_CH_CFG_ow_en : Fld := ⟨9, 1⟩
abbrev DIO_CH_CFG_mode : Fld := ⟨8, 1⟩
abbrev DIO_CH_CFG_filter : Fld := ⟨0, 3⟩
abbrev DIO_CH_STATUS_paralleled : Fld := ⟨18, 1⟩
abbrev DIO_CH_STATUS_mode : Fld := ⟨16, 2⟩
abbrev DIO_CH_STATUS_last_rise : Fld := ⟨14, 1⟩
abbrev DIO_CH_STATUS_pulse : Fld := ⟨13, 1⟩
abbrev DIO_CH_STATUS_par_off : Fld := ⟨12, 1⟩
abbrev DIO_CH_STATUS_group_ovl : Fld := ⟨11, 1⟩
abbrev DIO_CH_STATUS_latched : Fld := ⟨10, 1⟩
abbrev DIO_CH_STATUS_sag : Fld := ⟨9, 1⟩
abbrev DIO_CH_STATUS_undervolt : Fld := ⟨8, 1⟩
abbrev DIO_CH_STATUS_ext_drive : Fld := ⟨7, 1⟩
abbrev DIO_CH_STATUS_open_wire : Fld := ⟨6, 1⟩
abbrev DIO_CH_STATUS_overtemp : Fld := ⟨5, 1⟩
abbrev DIO_CH_STATUS_overload : Fld := ⟨4, 1⟩
abbrev DIO_CH_STATUS_driven : Fld := ⟨2, 1⟩
abbrev DIO_CH_STATUS_cmd : Fld := ⟨1, 1⟩
abbrev DIO_CH_STATUS_level : Fld := ⟨0, 1⟩
abbrev DIO_CH_DIAG_group_ovl : Fld := ⟨11, 1⟩
abbrev DIO_CH_DIAG_sag : Fld := ⟨9, 1⟩
abbrev DIO_CH_DIAG_undervolt : Fld := ⟨8, 1⟩
abbrev DIO_CH_DIAG_ext_drive : Fld := ⟨7, 1⟩
abbrev DIO_CH_DIAG_open_wire : Fld := ⟨6, 1⟩
abbrev DIO_CH_DIAG_overtemp : Fld := ⟨5, 1⟩
abbrev DIO_CH_DIAG_overload : Fld := ⟨4, 1⟩
abbrev DIO_CH_RISE_value : Fld := ⟨0, 32⟩
abbrev DIO_CH_FALL_value : Fld := ⟨0, 32⟩
abbrev DIO_CH_TS_LO_value : Fld := ⟨0, 32⟩
abbrev DIO_CH_TS_HI_value : Fld := ⟨0, 32⟩
abbrev DIO_CH_DELAY_delay : Fld := ⟨0, 20⟩
abbrev DIO_GRP_CFG_type : Fld := ⟨4, 2⟩
abbrev DIO_GRP_CFG_policy : Fld := ⟨0, 1⟩
abbrev DIO_GRP_STATUS_ack_refused : Fld := ⟨5, 1⟩
abbrev DIO_GRP_STATUS_restore_wait : Fld := ⟨4, 1⟩
abbrev DIO_GRP_STATUS_group_ovl : Fld := ⟨3, 1⟩
abbrev DIO_GRP_STATUS_latched : Fld := ⟨2, 1⟩
abbrev DIO_GRP_STATUS_undervolt : Fld := ⟨1, 1⟩
abbrev DIO_GRP_STATUS_sag : Fld := ⟨0, 1⟩
abbrev DIO_GRP_MEAS_current : Fld := ⟨16, 16⟩
abbrev DIO_GRP_MEAS_voltage : Fld := ⟨0, 16⟩
abbrev DIO_GRP_ALARM_group_ovl : Fld := ⟨2, 1⟩
abbrev DIO_GRP_ALARM_undervolt : Fld := ⟨1, 1⟩
abbrev DIO_GRP_ALARM_sag : Fld := ⟨0, 1⟩
abbrev DIO_GRP_ACK_ack : Fld := ⟨0, 1⟩
abbrev AO_CFG_paralleled : Fld := ⟨16, 1⟩
abbrev AO_CFG_ol_en : Fld := ⟨4, 1⟩
abbrev AO_CFG_range : Fld := ⟨0, 2⟩
abbrev AO_STATUS_clamped : Fld := ⟨7, 1⟩
abbrev AO_STATUS_at_max : Fld := ⟨6, 1⟩
abbrev AO_STATUS_supply_low : Fld := ⟨5, 1⟩
abbrev AO_STATUS_par_off : Fld := ⟨4, 1⟩
abbrev AO_STATUS_thermal : Fld := ⟨3, 1⟩
abbrev AO_STATUS_compl : Fld := ⟨2, 1⟩
abbrev AO_STATUS_open_loop : Fld := ⟨1, 1⟩
abbrev AO_STATUS_driving : Fld := ⟨0, 1⟩
abbrev AO_DIAG_supply_low : Fld := ⟨5, 1⟩
abbrev AO_DIAG_thermal : Fld := ⟨3, 1⟩
abbrev AO_DIAG_compl : Fld := ⟨2, 1⟩
abbrev AO_DIAG_open_loop : Fld := ⟨1, 1⟩
abbrev AO_SET_value : Fld := ⟨0, 32⟩
abbrev AO_READ_value : Fld := ⟨0, 32⟩
abbrev AO_TRIM_GAIN_value : Fld := ⟨0, 32⟩
abbrev AO_TRIM_OFS_value : Fld := ⟨0, 32⟩
abbrev AO_MEAS_temp : Fld := ⟨16, 16⟩
abbrev AO_MEAS_vcomp : Fld := ⟨0, 16⟩
abbrev AI_CFG_ow_en : Fld := ⟨4, 1⟩
abbrev AI_CFG_range : Fld := ⟨0, 3⟩
abbrev AI_STATUS_busy : Fld := ⟨4, 1⟩
abbrev AI_STATUS_shunt_open : Fld := ⟨3, 1⟩
abbrev AI_STATUS_wire_break : Fld := ⟨2, 1⟩
abbrev AI_STATUS_under_range : Fld := ⟨1, 1⟩
abbrev AI_STATUS_over_range : Fld := ⟨0, 1⟩
abbrev AI_DIAG_shunt_open : Fld := ⟨3, 1⟩
abbrev AI_DIAG_wire_break : Fld := ⟨2, 1⟩
abbrev AI_DIAG_under_range : Fld := ⟨1, 1⟩
abbrev AI_DIAG_over_range : Fld := ⟨0, 1⟩
abbrev AI_VALUE_value : Fld := ⟨0, 32⟩
abbrev AI_RAW_seq : Fld := ⟨16, 8⟩
abbrev AI_RAW_code : Fld := ⟨0, 16⟩
abbrev AI_TS_LO_value : Fld := ⟨0, 32⟩
abbrev AI_TS_HI_value : Fld := ⟨0, 32⟩
abbrev AIO_SUPPLY_low : Fld := ⟨16, 1⟩
abbrev AIO_SUPPLY_voltage : Fld := ⟨0, 16⟩
abbrev RTC_STATUS_time_valid : Fld := ⟨31, 1⟩
abbrev RTC_STATUS_lost : Fld := ⟨30, 1⟩
abbrev RTC_STATUS_rolled : Fld := ⟨29, 1⟩
abbrev RTC_STATUS_cell_low : Fld := ⟨11, 1⟩
abbrev RTC_STATUS_set_pending : Fld := ⟨8, 1⟩
abbrev RTC_STATUS_date_invalid : Fld := ⟨7, 1⟩
abbrev RTC_STATUS_alarm_invalid : Fld := ⟨6, 1⟩
abbrev RTC_STATUS_unreach1 : Fld := ⟨5, 1⟩
abbrev RTC_STATUS_unreach0 : Fld := ⟨4, 1⟩
abbrev RTC_STATUS_alarm1 : Fld := ⟨1, 1⟩
abbrev RTC_STATUS_alarm0 : Fld := ⟨0, 1⟩
abbrev RTC_TIME_hour : Fld := ⟨16, 5⟩
abbrev RTC_TIME_min : Fld := ⟨8, 6⟩
abbrev RTC_TIME_sec : Fld := ⟨0, 6⟩
abbrev RTC_DATE_weekday : Fld := ⟨28, 3⟩
abbrev RTC_DATE_year : Fld := ⟨16, 9⟩
abbrev RTC_DATE_month : Fld := ⟨8, 4⟩
abbrev RTC_DATE_day : Fld := ⟨0, 5⟩
abbrev RTC_SUB_count : Fld := ⟨0, 15⟩
abbrev RTC_SET_DATE_year : Fld := ⟨16, 9⟩
abbrev RTC_SET_DATE_month : Fld := ⟨8, 4⟩
abbrev RTC_SET_DATE_day : Fld := ⟨0, 5⟩
abbrev RTC_SET_TIME_sub_zero : Fld := ⟨31, 1⟩
abbrev RTC_SET_TIME_hour : Fld := ⟨16, 5⟩
abbrev RTC_SET_TIME_min : Fld := ⟨8, 6⟩
abbrev RTC_SET_TIME_sec : Fld := ⟨0, 6⟩
abbrev RTC_ALM_TIME_hour : Fld := ⟨16, 5⟩
abbrev RTC_ALM_TIME_min : Fld := ⟨8, 6⟩
abbrev RTC_ALM_TIME_sec : Fld := ⟨0, 6⟩
abbrev RTC_ALM_DATE_en : Fld := ⟨31, 1⟩
abbrev RTC_ALM_DATE_mask : Fld := ⟨24, 5⟩
abbrev RTC_ALM_DATE_month : Fld := ⟨8, 4⟩
abbrev RTC_ALM_DATE_day : Fld := ⟨0, 5⟩
abbrev RTC_OPHOURS_value : Fld := ⟨0, 32⟩
abbrev RTC_OPSEC_sec : Fld := ⟨0, 12⟩
abbrev RTC_PCYCLES_value : Fld := ⟨0, 32⟩
abbrev RTC_CELL_mv : Fld := ⟨0, 16⟩
abbrev REC_CMD_cmd : Fld := ⟨0, 4⟩
abbrev REC_CMD_STATUS_cmd : Fld := ⟨12, 4⟩
abbrev REC_CMD_STATUS_state : Fld := ⟨8, 3⟩
abbrev REC_CMD_STATUS_status : Fld := ⟨0, 4⟩
abbrev REC_STATUS_arch_fail : Fld := ⟨20, 1⟩
abbrev REC_STATUS_flush_fail : Fld := ⟨19, 1⟩
abbrev REC_STATUS_wear_alarm : Fld := ⟨18, 1⟩
abbrev REC_STATUS_archiving : Fld := ⟨17, 1⟩
abbrev REC_STATUS_flushing : Fld := ⟨16, 1⟩
abbrev REC_STATUS_h_sat : Fld := ⟨15, 1⟩
abbrev REC_STATUS_refused : Fld := ⟨14, 1⟩
abbrev REC_STATUS_used : Fld := ⟨0, 11⟩
abbrev REC_REFUSED_sev3 : Fld := ⟨16, 16⟩
abbrev REC_REFUSED_other : Fld := ⟨0, 16⟩
abbrev REC_SEQ_value : Fld := ⟨0, 32⟩
abbrev REC_REGION_value : Fld := ⟨0, 32⟩
abbrev REC_FEED_VAL_value : Fld := ⟨0, 32⟩
abbrev REC_FEED_hist : Fld := ⟨0, 8⟩
abbrev REC_SCRUB_store_passes : Fld := ⟨16, 16⟩
abbrev REC_SCRUB_relocated : Fld := ⟨0, 16⟩
abbrev REC_WEAR_spare : Fld := ⟨16, 16⟩
abbrev REC_WEAR_max_erase : Fld := ⟨0, 16⟩
abbrev REC_WEAR_BAD_mean_erase : Fld := ⟨16, 16⟩
abbrev REC_WEAR_BAD_bad : Fld := ⟨0, 16⟩
abbrev REC_ARCH_count : Fld := ⟨0, 15⟩
abbrev REC_H_CFG_sig : Fld := ⟨12, 17⟩
abbrev REC_H_CFG_extremes : Fld := ⟨10, 1⟩
abbrev REC_H_CFG_sev : Fld := ⟨8, 2⟩
abbrev REC_H_CFG_src : Fld := ⟨0, 8⟩
abbrev REC_H_BASE_value : Fld := ⟨0, 32⟩
abbrev REC_H_WIDTH_value : Fld := ⟨0, 32⟩
abbrev SVC_STATUS_fails : Fld := ⟨8, 8⟩
abbrev SVC_STATUS_locked : Fld := ⟨4, 1⟩
abbrev SVC_STATUS_proven : Fld := ⟨3, 1⟩
abbrev SVC_STATUS_session : Fld := ⟨2, 1⟩
abbrev SVC_STATUS_addr_ok : Fld := ⟨1, 1⟩
abbrev SVC_STATUS_link : Fld := ⟨0, 1⟩
abbrev SVC_ADDR_value : Fld := ⟨0, 32⟩
abbrev SVC_CLIENT_value : Fld := ⟨0, 32⟩
abbrev SVC_CNT_errors : Fld := ⟨16, 16⟩
abbrev SVC_CNT_requests : Fld := ⟨0, 16⟩
abbrev UPD_CMD_kind : Fld := ⟨8, 1⟩
abbrev UPD_CMD_cmd : Fld := ⟨0, 4⟩
abbrev UPD_CMD_STATUS_cmd : Fld := ⟨12, 4⟩
abbrev UPD_CMD_STATUS_state : Fld := ⟨8, 3⟩
abbrev UPD_CMD_STATUS_status : Fld := ⟨0, 4⟩
abbrev UPD_STATUS_fail : Fld := ⟨8, 8⟩
abbrev UPD_STATUS_target : Fld := ⟨4, 2⟩
abbrev UPD_STATUS_running : Fld := ⟨3, 1⟩
abbrev UPD_STATUS_stage : Fld := ⟨0, 3⟩
abbrev UPD_SLOTS_si_boot : Fld := ⟨17, 1⟩
abbrev UPD_SLOTS_fw_boot : Fld := ⟨16, 1⟩
abbrev UPD_SLOTS_states : Fld := ⟨0, 16⟩
abbrev UPD_PROGRESS_total : Fld := ⟨16, 16⟩
abbrev UPD_PROGRESS_done : Fld := ⟨0, 16⟩
abbrev UPD_BOOT_unconf_s : Fld := ⟨16, 16⟩
abbrev UPD_BOOT_self_confirmed : Fld := ⟨2, 1⟩
abbrev UPD_BOOT_attempts : Fld := ⟨0, 2⟩
abbrev UPD_CFG_confirm_min : Fld := ⟨0, 6⟩
abbrev UPD_VERSION_value : Fld := ⟨0, 32⟩
abbrev BIST_CMD_mask : Fld := ⟨8, 6⟩
abbrev BIST_CMD_cmd : Fld := ⟨0, 4⟩
abbrev BIST_CMD_STATUS_cmd : Fld := ⟨12, 4⟩
abbrev BIST_CMD_STATUS_state : Fld := ⟨8, 3⟩
abbrev BIST_CMD_STATUS_status : Fld := ⟨0, 4⟩
abbrev BIST_STATUS_runs : Fld := ⟨16, 16⟩
abbrev BIST_STATUS_hot : Fld := ⟨10, 1⟩
abbrev BIST_STATUS_vcore_bad : Fld := ⟨9, 1⟩
abbrev BIST_STATUS_ref_bad : Fld := ⟨8, 1⟩
abbrev BIST_STATUS_test : Fld := ⟨1, 3⟩
abbrev BIST_STATUS_running : Fld := ⟨0, 1⟩
abbrev BIST_RES_result : Fld := ⟨28, 4⟩
abbrev BIST_RES_detail : Fld := ⟨0, 16⟩
abbrev BIST_DUR_value : Fld := ⟨0, 32⟩
abbrev QUE_RING_BASE_base : Fld := ⟨4, 21⟩
abbrev QUE_CFG_b_wait : Fld := ⟨24, 4⟩
abbrev QUE_CFG_limit : Fld := ⟨8, 13⟩
abbrev QUE_CFG_size_log2 : Fld := ⟨4, 4⟩
abbrev QUE_CFG_enable : Fld := ⟨0, 1⟩
abbrev QUE_TAIL_tail : Fld := ⟨0, 16⟩
abbrev QUE_HEAD_done : Fld := ⟨16, 16⟩
abbrev QUE_HEAD_head : Fld := ⟨0, 16⟩
abbrev QUE_STATUS_busy : Fld := ⟨4, 1⟩
abbrev QUE_STATUS_late : Fld := ⟨3, 1⟩
abbrev QUE_STATUS_refused : Fld := ⟨2, 1⟩
abbrev QUE_STATUS_poisoned : Fld := ⟨1, 1⟩
abbrev QUE_STATUS_ring_ovf : Fld := ⟨0, 1⟩
abbrev QUE_COUNT_refused_cnt : Fld := ⟨16, 16⟩
abbrev QUE_COUNT_late_cnt : Fld := ⟨0, 16⟩
abbrev QUE_POOL_reserved_c : Fld := ⟨16, 13⟩
abbrev QUE_POOL_free : Fld := ⟨0, 13⟩
abbrev QUE_ECC_CNT_uncorrected : Fld := ⟨16, 16⟩
abbrev QUE_ECC_CNT_corrected : Fld := ⟨0, 16⟩
abbrev QUE_ECC_ADDR_valid : Fld := ⟨31, 1⟩
abbrev QUE_ECC_ADDR_word : Fld := ⟨3, 22⟩

end Sys2Proof.Machine.Reg
end

