-- ==== Sys2Proof/Machine/RegMap.lean ====
section
/-!
DEFINITION. The register maps of the module, as data: for each register its address, the strides and counts of its array, whether each
master holds its own copy, and the bits of each access type (R3); with the reset values (R6). Taken from the spec's register
tables; bits of no mask are RO or reserved (R4).
-/
namespace Sys2Proof.Machine

/-- One row of a register map. `arr` gives stride and count of each array dimension. -/
structure RegDesc where
  name : String
  addr : Nat
  arr : List (Nat × Nat)
  perMaster : Bool
  rw : Nat
  w1c : Nat
  w1s : Nat
  rc : Nat
  wo : Nat
  rwt : Nat
  deriving DecidableEq, Repr

namespace Reg

def sysRegs : List RegDesc := [
  ⟨"SYS_ID", 0x0, [], false, 0x0, 0x0, 0x0, 0x0, 0x0, 0x0⟩,
  ⟨"SYS_STATE", 0x4, [], false, 0x0, 0x0, 0x0, 0x0, 0x0, 0x0⟩,
  ⟨"SYS_CMD", 0x8, [], true, 0x0, 0x0, 0x0, 0x0, 0xF, 0x0⟩,
  ⟨"SYS_CMD_STATUS", 0xC, [], true, 0x0, 0x0, 0x0, 0x0, 0x0, 0x0⟩,
  ⟨"SYS_CFG", 0x10, [], false, 0x1, 0x0, 0x0, 0x0, 0x0, 0x0⟩,
  ⟨"SYS_HW_FAULT", 0x14, [], false, 0x0, 0x80000000, 0x0, 0x0, 0x0, 0x0⟩]

def clkRegs : List RegDesc := [
  ⟨"CLK_REF_CFG", 0x10000, [], false, 0x0, 0x0, 0x0, 0x0, 0x0, 0x3⟩,
  ⟨"CLK_REF_STATUS", 0x10004, [], false, 0x0, 0x0, 0x0, 0x0, 0x0, 0x0⟩,
  ⟨"CLK_REF_ALARM", 0x10008, [], false, 0x0, 0x1F, 0x0, 0x0, 0x0, 0x0⟩,
  ⟨"CLK_LANE_A", 0x1000C, [], false, 0x0, 0x0, 0x0, 0x0, 0x0, 0x0⟩,
  ⟨"CLK_LANE_B", 0x10010, [], false, 0x0, 0x0, 0x0, 0x0, 0x0, 0x0⟩,
  ⟨"CLK_REF_PPM", 0x10014, [], false, 0x0, 0x0, 0x0, 0x0, 0x0, 0x0⟩,
  ⟨"CLK_SWITCH_CNT", 0x10018, [], false, 0x0, 0x0, 0x0, 0xFFFFFFFF, 0x0, 0x0⟩,
  ⟨"CLK_DIV", 0x10020, [], false, 0x0, 0x0, 0x0, 0x0, 0x0, 0xFF0F1F1F⟩,
  ⟨"CLK_DIV_STATUS", 0x10024, [], false, 0x0, 0x0, 0x0, 0x0, 0x0, 0x0⟩,
  ⟨"CLK_GATE_CMD", 0x10030, [], true, 0x0, 0x0, 0x0, 0x0, 0x13F, 0x0⟩,
  ⟨"CLK_GATE_RESULT", 0x10034, [], true, 0x0, 0x0, 0x0, 0x0, 0x0, 0x0⟩,
  ⟨"CLK_GATE_LO", 0x10038, [], false, 0x0, 0x0, 0x0, 0x0, 0x0, 0x0⟩,
  ⟨"CLK_GATE_HI", 0x1003C, [], false, 0x0, 0x0, 0x0, 0x0, 0x0, 0x0⟩,
  ⟨"CLK_GATED_ACC", 0x10040, [], false, 0x0, 0x0, 0x0, 0xFFFF, 0x0, 0x0⟩]

def pwrRegs : List RegDesc := [
  ⟨"PWR_STATUS", 0x20000, [], false, 0x0, 0x0, 0x0, 0x0, 0x0, 0x0⟩,
  ⟨"PWR_CFG", 0x20004, [], false, 0x3FFF, 0x0, 0x0, 0x0, 0x0, 0x0⟩,
  ⟨"PWR_ALARM", 0x20008, [], false, 0x0, 0x3F, 0x0, 0x0, 0x0, 0x0⟩,
  ⟨"PWR_FEED", 0x2000C, [], false, 0x0, 0x0, 0x0, 0x0, 0x0, 0x0⟩,
  ⟨"PWR_BANK", 0x20010, [], false, 0x0, 0x0, 0x0, 0x0, 0x0, 0x0⟩,
  ⟨"PWR_CORE", 0x20014, [], false, 0x0, 0x0, 0x0, 0x0, 0x0, 0x0⟩,
  ⟨"PWR_RESET", 0x20018, [], false, 0x0, 0x0, 0x0, 0x0, 0x0, 0x0⟩,
  ⟨"PWR_EVENTS", 0x2001C, [], false, 0x0, 0x0, 0x0, 0xFFFFFFFF, 0x0, 0x0⟩,
  ⟨"PWR_LAST_HOLDUP", 0x20020, [], false, 0x0, 0x0, 0x0, 0x0, 0x0, 0x0⟩]

def ctuRegs : List RegDesc := [
  ⟨"CTU_CMD", 0x30000, [], true, 0x0, 0x0, 0x0, 0x0, 0x3F, 0x0⟩,
  ⟨"CTU_STATUS", 0x30004, [], true, 0x0, 0x0, 0x0, 0x0, 0x0, 0x0⟩,
  ⟨"CTU_CONFLICT", 0x30008, [], true, 0x0, 0x0, 0x0, 0x0, 0x0, 0x0⟩,
  ⟨"CTU_IMAGE_BASE", 0x3000C, [], false, 0x0, 0x0, 0x0, 0x0, 0x0, 0x1FFFFF8⟩,
  ⟨"CTU_IMAGE_LEN", 0x30010, [], false, 0x0, 0x0, 0x0, 0x0, 0x0, 0x7FFFFF⟩,
  ⟨"CTU_LOAD_RESULT", 0x30014, [], false, 0x0, 0x0, 0x0, 0x0, 0x0, 0x0⟩,
  ⟨"CTU_LOAD_INDEX", 0x30018, [], false, 0x0, 0x0, 0x0, 0x0, 0x0, 0x0⟩,
  ⟨"CTU_LOAD_DETAIL", 0x3001C, [], false, 0x0, 0x0, 0x0, 0x0, 0x0, 0x0⟩,
  ⟨"CTU_LOAD_LIMIT", 0x30020, [], false, 0x0, 0x0, 0x0, 0x0, 0x0, 0x0⟩,
  ⟨"CTU_RUN_ID_LO", 0x30024, [], false, 0x0, 0x0, 0x0, 0x0, 0x0, 0x0⟩,
  ⟨"CTU_RUN_ID_HI", 0x30028, [], false, 0x0, 0x0, 0x0, 0x0, 0x0, 0x0⟩,
  ⟨"CTU_COMMITS", 0x3002C, [], false, 0x0, 0x0, 0x0, 0x0, 0x0, 0x0⟩,
  ⟨"BCAST_STATUS", 0x30030, [], true, 0x0, 0x0, 0x0, 0x0, 0x0, 0x0⟩,
  ⟨"BCAST_GMASK_DIO_LO", 0x30040, [], true, 0xFFFFFFFF, 0x0, 0x0, 0x0, 0x0, 0x0⟩,
  ⟨"BCAST_GMASK_DIO_HI", 0x30044, [], true, 0xFFFFFFFF, 0x0, 0x0, 0x0, 0x0, 0x0⟩,
  ⟨"BCAST_GMASK_AIO", 0x30048, [], true, 0xFFFF, 0x0, 0x0, 0x0, 0x0, 0x0⟩,
  ⟨"BCAST_GMASK_CAN", 0x3004C, [], true, 0xFFFF, 0x0, 0x0, 0x0, 0x0, 0x0⟩,
  ⟨"BCAST_GMASK_FGR", 0x30050, [], true, 0xFFF, 0x0, 0x0, 0x0, 0x0, 0x0⟩,
  ⟨"BCAST_GMASK_TTRG", 0x30054, [], true, 0xFFFF, 0x0, 0x0, 0x0, 0x0, 0x0⟩,
  ⟨"XCH_CMD", 0x30100, [], true, 0x0, 0x0, 0x0, 0x0, 0xF, 0x0⟩,
  ⟨"XCH_CMD_STATUS", 0x30104, [], true, 0x0, 0x0, 0x0, 0x0, 0x0, 0x0⟩,
  ⟨"XCH_STATUS", 0x30108, [], false, 0x0, 0xC0000000, 0x0, 0x0, 0x0, 0x0⟩,
  ⟨"XCH_BASE_LO", 0x3010C, [], false, 0x0, 0x0, 0x0, 0x0, 0x0, 0x0⟩,
  ⟨"XCH_BASE_HI", 0x30110, [], false, 0x0, 0x0, 0x0, 0x0, 0x0, 0x0⟩,
  ⟨"XCH_SW_CYCLE", 0x30114, [], false, 0x0, 0x0, 0x0, 0x0, 0x0, 0x0⟩,
  ⟨"XCH_T_BOUND", 0x30118, [], false, 0x0, 0x0, 0x0, 0x0, 0x0, 0x0⟩,
  ⟨"XCH_T_LAST", 0x3011C, [], false, 0x0, 0x0, 0x0, 0x0, 0x0, 0x0⟩,
  ⟨"XCH_CNT_CARRY", 0x30120, [], false, 0x0, 0x0, 0x0, 0x0, 0x0, 0x0⟩,
  ⟨"XCH_CNT_CONV", 0x30124, [], false, 0x0, 0x0, 0x0, 0x0, 0x0, 0x0⟩,
  ⟨"XCH_CNT_INIT", 0x30128, [], false, 0x0, 0x0, 0x0, 0x0, 0x0, 0x0⟩,
  ⟨"XCH_CNT_DROP", 0x3012C, [], false, 0x0, 0x0, 0x0, 0x0, 0x0, 0x0⟩]

def artRegs : List RegDesc := [
  ⟨"ART_STATUS", 0x40000, [], false, 0x0, 0x0, 0x0, 0x0, 0x0, 0x0⟩,
  ⟨"ART_COMMIT_FAULT", 0x40004, [], false, 0x0, 0x80000000, 0x0, 0x0, 0x0, 0x0⟩,
  ⟨"ART_FAULT_INFO", 0x40008, [], false, 0x0, 0x80000000, 0x0, 0x0, 0x0, 0x0⟩,
  ⟨"ART_FAULT_ADDR", 0x4000C, [], false, 0x0, 0x0, 0x0, 0x0, 0x0, 0x0⟩,
  ⟨"ART_NOTICE", 0x40010, [], false, 0x0, 0x80000000, 0x0, 0x0, 0x0, 0x0⟩,
  ⟨"ART_REFUSED", 0x40014, [], false, 0x0, 0x0, 0x0, 0xFFFFFFFF, 0x0, 0x0⟩,
  ⟨"ART_BASE", 0x41000, [(0x10, 128)], false, 0x0, 0x0, 0x0, 0x0, 0x0, 0xFFFFFFC0⟩,
  ⟨"ART_BASE", 0x41800, [(0x10, 128)], false, 0x0, 0x0, 0x0, 0x0, 0x0, 0x0⟩,
  ⟨"ART_SIZE", 0x41004, [(0x10, 128)], false, 0x0, 0x0, 0x0, 0x0, 0x0, 0xFFFFFFC0⟩,
  ⟨"ART_SIZE", 0x41804, [(0x10, 128)], false, 0x0, 0x0, 0x0, 0x0, 0x0, 0x0⟩,
  ⟨"ART_MASTERS", 0x41008, [(0x10, 128)], false, 0x0, 0x0, 0x0, 0x0, 0x0, 0x1FFFF⟩,
  ⟨"ART_MASTERS", 0x41808, [(0x10, 128)], false, 0x0, 0x0, 0x0, 0x0, 0x0, 0x0⟩,
  ⟨"ART_ATTR", 0x4100C, [(0x10, 128)], false, 0x0, 0x0, 0x0, 0x0, 0x0, 0x80000177⟩,
  ⟨"ART_ATTR", 0x4180C, [(0x10, 128)], false, 0x0, 0x0, 0x0, 0x0, 0x0, 0x0⟩]

def secRegs : List RegDesc := [
  ⟨"SEC_STATUS", 0x50000, [], false, 0x0, 0x0, 0x0, 0x0, 0x0, 0x0⟩,
  ⟨"SEC_CMD", 0x50004, [], true, 0x0, 0x0, 0x0, 0x0, 0xF, 0x0⟩,
  ⟨"SEC_CMD_STATUS", 0x50008, [], true, 0x0, 0x0, 0x0, 0x0, 0x0, 0x0⟩,
  ⟨"SEC_KEY_ID", 0x50100, [(0x40, 8)], false, 0x0, 0x0, 0x0, 0x0, 0x0, 0xFFFFFFFF⟩,
  ⟨"SEC_KEY_CTL", 0x50104, [(0x40, 8)], false, 0x0, 0x0, 0x40000000, 0x0, 0x0, 0x80000003⟩,
  ⟨"SEC_KEY_PUB", 0x50110, [(0x40, 8), (0x4, 8)], false, 0x0, 0x0, 0x0, 0x0, 0x0, 0xFFFFFFFF⟩,
  ⟨"DBG_CTRL", 0x50800, [], false, 0x0, 0x0, 0x0, 0x0, 0x3, 0x0⟩,
  ⟨"DBG_STATUS", 0x50804, [], false, 0x0, 0x0, 0x0, 0x0, 0x0, 0x0⟩,
  ⟨"DBG_CMD", 0x50808, [], false, 0x0, 0x0, 0x0, 0x0, 0xF, 0x0⟩,
  ⟨"DBG_CMD_STATUS", 0x5080C, [], false, 0x0, 0x0, 0x0, 0x0, 0x0, 0x0⟩,
  ⟨"DBG_NONCE", 0x50810, [(0x4, 4)], false, 0x0, 0x0, 0x0, 0x0, 0x0, 0x0⟩,
  ⟨"DBG_RESP", 0x50840, [(0x4, 16)], false, 0x0, 0x0, 0x0, 0x0, 0xFFFFFFFF, 0x0⟩,
  ⟨"DBG_VAULT_CNT", 0x50880, [], false, 0x0, 0x0, 0x0, 0xFFFF, 0x0, 0x0⟩,
  ⟨"DBG_VAULT_ADDR", 0x50884, [], false, 0x0, 0x0, 0x0, 0x0, 0x0, 0x0⟩]

def engRegs : List RegDesc := [
  ⟨"ENG_CTRL", 0x100000, [], false, 0x0, 0x0, 0x0, 0x0, 0x0, 0x10F⟩,
  ⟨"ENG_STATUS", 0x100004, [], false, 0x0, 0x0, 0x0, 0x0, 0x0, 0x0⟩,
  ⟨"ENG_OVR_STATUS", 0x100008, [], false, 0x0, 0x80000007, 0x0, 0x0, 0x0, 0x0⟩,
  ⟨"ENG_INJECT", 0x10000C, [], false, 0x0, 0x0, 0x0, 0x0, 0xF3, 0x0⟩,
  ⟨"ENG_CLS_CFG", 0x100020, [(0x20, 4)], false, 0x0, 0x0, 0x0, 0x0, 0x0, 0x0⟩,
  ⟨"ENG_CLS_CYCLE", 0x100024, [(0x20, 4)], false, 0x0, 0x0, 0x0, 0x0, 0x0, 0x0⟩,
  ⟨"ENG_CLS_RELOFS", 0x100028, [(0x20, 4)], false, 0x0, 0x0, 0x0, 0x0, 0x0, 0x0⟩,
  ⟨"ENG_CLS_LAST", 0x10002C, [(0x20, 4)], false, 0x0, 0x0, 0x0, 0x0, 0x0, 0x0⟩,
  ⟨"ENG_CLS_MAX", 0x100030, [(0x20, 4)], false, 0x0, 0x0, 0x0, 0xFFFFFFFF, 0x0, 0x0⟩,
  ⟨"ENG_CLS_OVR", 0x100034, [(0x20, 4)], false, 0x0, 0x0, 0x0, 0xFFFFFFFF, 0x0, 0x0⟩,
  ⟨"IMG_STATUS", 0x101000, [], false, 0x0, 0x0, 0x0, 0x0, 0x0, 0x0⟩,
  ⟨"IMG_PUB_SEQ", 0x101004, [], false, 0x0, 0x0, 0x0, 0x0, 0x0, 0x0⟩,
  ⟨"IMG_OVR_REJECT", 0x101008, [], false, 0x0, 0x80000000, 0x0, 0x0, 0x0, 0x0⟩,
  ⟨"IMG_STALE_CNT", 0x10100C, [], false, 0x0, 0x0, 0x0, 0x0, 0x0, 0x0⟩,
  ⟨"IMG_SUBST_CNT", 0x101010, [], false, 0x0, 0x0, 0x0, 0x0, 0x0, 0x0⟩,
  ⟨"IMG_FAULT_CNT", 0x101014, [], false, 0x0, 0x0, 0x0, 0x0, 0x0, 0x0⟩,
  ⟨"IMG_SMT_CNT", 0x101018, [], false, 0x0, 0x0, 0x0, 0x0, 0x0, 0x0⟩,
  ⟨"IMG_OVR_CTL", 0x102000, [(0x10, 256)], false, 0x0, 0x0, 0x0, 0x0, 0x0, 0xFFC1FFFF⟩,
  ⟨"IMG_OVR_LO", 0x102004, [(0x10, 256)], false, 0x0, 0x0, 0x0, 0x0, 0x0, 0xFFFFFFFF⟩,
  ⟨"IMG_OVR_HI", 0x102008, [(0x10, 256)], false, 0x0, 0x0, 0x0, 0x0, 0x0, 0xFFFFFFFF⟩]

def laneRegs : List RegDesc := [
  ⟨"LANE_CMD", 0x110000, [], true, 0x0, 0x0, 0x0, 0x0, 0xF, 0x0⟩,
  ⟨"LANE_CMD_STATUS", 0x110004, [], true, 0x0, 0x0, 0x0, 0x0, 0x0, 0x0⟩,
  ⟨"LANE_CFG", 0x110008, [], false, 0x0, 0x0, 0x0, 0x0, 0x0, 0x1⟩,
  ⟨"LANE_STATUS", 0x11000C, [], false, 0x0, 0x0, 0x0, 0x0, 0x0, 0x0⟩,
  ⟨"LANE_CNT", 0x110010, [], false, 0x0, 0x0, 0x0, 0xFFFFFFFF, 0x0, 0x0⟩,
  ⟨"LANE_INJECT", 0x110014, [], false, 0x0, 0x0, 0x0, 0x0, 0x8000FFFF, 0x0⟩,
  ⟨"LANE_MM_INFO", 0x110020, [], false, 0x0, 0x80000000, 0x0, 0x0, 0x0, 0x0⟩,
  ⟨"LANE_MM_REF", 0x110024, [], false, 0x0, 0x0, 0x0, 0x0, 0x0, 0x0⟩,
  ⟨"LANE_MM_ADDR", 0x110028, [], false, 0x0, 0x0, 0x0, 0x0, 0x0, 0x0⟩,
  ⟨"LANE_MM_CYCLE", 0x11002C, [], false, 0x0, 0x0, 0x0, 0x0, 0x0, 0x0⟩,
  ⟨"LANE_MM_A_LO", 0x110030, [], false, 0x0, 0x0, 0x0, 0x0, 0x0, 0x0⟩,
  ⟨"LANE_MM_A_HI", 0x110034, [], false, 0x0, 0x0, 0x0, 0x0, 0x0, 0x0⟩,
  ⟨"LANE_MM_B_LO", 0x110038, [], false, 0x0, 0x0, 0x0, 0x0, 0x0, 0x0⟩,
  ⟨"LANE_MM_B_HI", 0x11003C, [], false, 0x0, 0x0, 0x0, 0x0, 0x0, 0x0⟩,
  ⟨"LANE_MM_Q", 0x110040, [], false, 0x0, 0x0, 0x0, 0x0, 0x0, 0x0⟩]

def lseRegs : List RegDesc := [
  ⟨"LSE_CTRL", 0x120000, [], false, 0x0, 0x0, 0x0, 0x0, 0x0, 0x1⟩,
  ⟨"LSE_STATUS", 0x120004, [], false, 0x0, 0x0, 0x0, 0x0, 0x0, 0x0⟩,
  ⟨"LSE_T_BOUND", 0x120008, [], false, 0x0, 0x0, 0x0, 0x0, 0x0, 0x0⟩,
  ⟨"LSE_T_LAST", 0x12000C, [], false, 0x0, 0x0, 0x0, 0x0, 0x0, 0x0⟩,
  ⟨"LSE_T_MAX", 0x120010, [], false, 0x0, 0x0, 0x0, 0xFFFFFFFF, 0x0, 0x0⟩,
  ⟨"LSE_JOIN_CNT", 0x120014, [], false, 0x0, 0x0, 0x0, 0xFFFF, 0x0, 0x0⟩,
  ⟨"LSE_M_STATE", 0x121000, [(0x40, 8)], false, 0x0, 0x0, 0x0, 0x0, 0x0, 0x0⟩,
  ⟨"LSE_M_POS_LO", 0x121008, [(0x40, 8)], false, 0x0, 0x0, 0x0, 0x0, 0x0, 0x0⟩,
  ⟨"LSE_M_POS_HI", 0x12100C, [(0x40, 8)], false, 0x0, 0x0, 0x0, 0x0, 0x0, 0x0⟩,
  ⟨"LSE_M_VEL_LO", 0x121010, [(0x40, 8)], false, 0x0, 0x0, 0x0, 0x0, 0x0, 0x0⟩,
  ⟨"LSE_M_VEL_HI", 0x121014, [(0x40, 8)], false, 0x0, 0x0, 0x0, 0x0, 0x0, 0x0⟩,
  ⟨"LSE_M_ACC_LO", 0x121018, [(0x40, 8)], false, 0x0, 0x0, 0x0, 0x0, 0x0, 0x0⟩,
  ⟨"LSE_M_ACC_HI", 0x12101C, [(0x40, 8)], false, 0x0, 0x0, 0x0, 0x0, 0x0, 0x0⟩,
  ⟨"LSE_S_STATE", 0x124000, [(0x40, 128)], false, 0x0, 0x0, 0x0, 0x0, 0x0, 0x0⟩,
  ⟨"LSE_S_NUM", 0x124004, [(0x40, 128)], false, 0x0, 0x0, 0x0, 0x0, 0x0, 0x0⟩,
  ⟨"LSE_S_DEN", 0x124008, [(0x40, 128)], false, 0x0, 0x0, 0x0, 0x0, 0x0, 0x0⟩,
  ⟨"LSE_S_REM", 0x12400C, [(0x40, 128)], false, 0x0, 0x0, 0x0, 0x0, 0x0, 0x0⟩,
  ⟨"LSE_S_POS_LO", 0x124010, [(0x40, 128)], false, 0x0, 0x0, 0x0, 0x0, 0x0, 0x0⟩,
  ⟨"LSE_S_POS_HI", 0x124014, [(0x40, 128)], false, 0x0, 0x0, 0x0, 0x0, 0x0, 0x0⟩,
  ⟨"LSE_S_OFS_LO", 0x124018, [(0x40, 128)], false, 0x0, 0x0, 0x0, 0x0, 0x0, 0x0⟩,
  ⟨"LSE_S_OFS_HI", 0x12401C, [(0x40, 128)], false, 0x0, 0x0, 0x0, 0x0, 0x0, 0x0⟩,
  ⟨"LSE_S_CMD_LO", 0x124020, [(0x40, 128)], false, 0x0, 0x0, 0x0, 0x0, 0x0, 0x0⟩,
  ⟨"LSE_S_CMD_HI", 0x124024, [(0x40, 128)], false, 0x0, 0x0, 0x0, 0x0, 0x0, 0x0⟩,
  ⟨"LSE_S_PHASE", 0x124028, [(0x40, 128)], false, 0x0, 0x0, 0x0, 0x0, 0x0, 0x0⟩,
  ⟨"LSE_S_HELD", 0x12402C, [(0x40, 128)], false, 0x0, 0x0, 0x0, 0x0, 0x0, 0x0⟩,
  ⟨"LSE_R_STATE", 0x126000, [(0x20, 128)], false, 0x0, 0x0, 0x0, 0x0, 0x0, 0x0⟩,
  ⟨"LSE_R_ERR_LO", 0x126008, [(0x20, 128)], false, 0x0, 0x0, 0x0, 0x0, 0x0, 0x0⟩,
  ⟨"LSE_R_ERR_HI", 0x12600C, [(0x20, 128)], false, 0x0, 0x0, 0x0, 0x0, 0x0, 0x0⟩,
  ⟨"LSE_R_OFS_LO", 0x126010, [(0x20, 128)], false, 0x0, 0x0, 0x0, 0x0, 0x0, 0x0⟩,
  ⟨"LSE_R_OFS_HI", 0x126014, [(0x20, 128)], false, 0x0, 0x0, 0x0, 0x0, 0x0, 0x0⟩,
  ⟨"LSE_C_STATE", 0x127000, [(0x100, 4)], false, 0x0, 0x0, 0x0, 0x0, 0x0, 0x0⟩,
  ⟨"LSE_C_FACT", 0x127040, [(0x100, 4), (0x4, 16)], false, 0x0, 0x0, 0x0, 0x0, 0x0, 0x0⟩,
  ⟨"LSE_C_NEXT", 0x127080, [(0x100, 4), (0x4, 16)], false, 0x0, 0x0, 0x0, 0x0, 0x0, 0x0⟩]

def redRegs : List RegDesc := [
  ⟨"RED_CFG", 0x140000, [], false, 0x0, 0x0, 0x0, 0x0, 0x0, 0x13⟩,
  ⟨"RED_HOLDOFF", 0x140004, [], false, 0x0, 0x0, 0x0, 0x0, 0x0, 0x1FFFF⟩,
  ⟨"RED_PAIR_ID", 0x140008, [], false, 0x0, 0x0, 0x0, 0x0, 0x0, 0xFFFFFFFF⟩,
  ⟨"RED_STATUS", 0x14000C, [], false, 0x0, 0x0, 0x0, 0x0, 0x0, 0x0⟩,
  ⟨"RED_ALARM", 0x140010, [], false, 0x0, 0x1FFF, 0x0, 0x0, 0x0, 0x0⟩,
  ⟨"RED_EPOCH", 0x140014, [], false, 0x0, 0x0, 0x0, 0x0, 0x0, 0x0⟩,
  ⟨"RED_EPOCH_SEEN", 0x140018, [], false, 0x0, 0x0, 0x0, 0x0, 0x0, 0x0⟩,
  ⟨"RED_CKPT", 0x14001C, [], false, 0x0, 0x0, 0x0, 0x0, 0x0, 0x0⟩,
  ⟨"RED_CKPT_SIZE", 0x140020, [], false, 0x0, 0x0, 0x0, 0x0, 0x0, 0x0⟩,
  ⟨"RED_CKPT_BUDGET", 0x140024, [], false, 0x0, 0x0, 0x0, 0x0, 0x0, 0x0⟩,
  ⟨"RED_COUNTS", 0x140028, [], false, 0x0, 0x0, 0x0, 0x0, 0x0, 0x0⟩,
  ⟨"RED_HANDOVER", 0x14002C, [], false, 0x0, 0x0, 0x0, 0x0, 0x0, 0x0⟩,
  ⟨"RED_HOLDOFF_LEFT", 0x140030, [], false, 0x0, 0x0, 0x0, 0x0, 0x0, 0x0⟩,
  ⟨"RED_EVENTS", 0x140034, [], false, 0x0, 0x0, 0x0, 0xFFFFFFFF, 0x0, 0x0⟩,
  ⟨"RED_LAST_TAKEOVER", 0x140038, [], false, 0x0, 0x0, 0x0, 0x0, 0x0, 0x0⟩,
  ⟨"RED_LANE", 0x140040, [(0x4, 2)], false, 0x0, 0x0, 0x0, 0xFFFF0000, 0x0, 0x0⟩]

def fgrRegs : List RegDesc := [
  ⟨"FGR_P_STATUS", 0x200000, [(0x1000, 12)], false, 0x0, 0x0, 0x0, 0x0, 0x0, 0x0⟩,
  ⟨"FGR_P_RX", 0x200004, [(0x1000, 12)], false, 0x0, 0x0, 0x0, 0xFFFFFFFF, 0x0, 0x0⟩,
  ⟨"FGR_P_FWD", 0x200008, [(0x1000, 12)], false, 0x0, 0x0, 0x0, 0xFFFFFFFF, 0x0, 0x0⟩,
  ⟨"FGR_P_ERR", 0x20000C, [(0x1000, 12)], false, 0x0, 0x0, 0x0, 0xFFFFFFFF, 0x0, 0x0⟩,
  ⟨"FGR_P_VIOL", 0x200010, [(0x1000, 12)], false, 0x0, 0x0, 0x0, 0xFFFFFFFF, 0x0, 0x0⟩,
  ⟨"FGR_ETYPE", 0x20C000, [], false, 0x0, 0x0, 0x0, 0x0, 0x0, 0xFFFF⟩,
  ⟨"FGR_RING_STATUS", 0x20C100, [(0x20, 6)], false, 0x0, 0x0, 0x0, 0x0, 0x0, 0x0⟩,
  ⟨"FGR_RING_ALARM", 0x20C104, [(0x20, 6)], false, 0x0, 0x3F, 0x0, 0x0, 0x0, 0x0⟩,
  ⟨"FGR_STA", 0x20D000, [(0x4, 512)], false, 0x0, 0x0, 0x0, 0x0, 0x0, 0x0⟩]

def timeRegs : List RegDesc := [
  ⟨"TIME_CTRL", 0x300000, [], false, 0x1, 0x0, 0x2, 0x0, 0x0, 0x0⟩,
  ⟨"TIME_STATUS", 0x300004, [], false, 0x0, 0x3, 0x0, 0x0, 0x0, 0x0⟩,
  ⟨"TIME_CFG", 0x300008, [], false, 0x0, 0x0, 0x0, 0x0, 0x0, 0x17F⟩,
  ⟨"TIME_NOW_LO", 0x300010, [], false, 0x0, 0x0, 0x0, 0x0, 0x0, 0x0⟩,
  ⟨"TIME_NOW_HI", 0x300014, [], false, 0x0, 0x0, 0x0, 0x0, 0x0, 0x0⟩,
  ⟨"TIME_RAW_LO", 0x300018, [], false, 0x0, 0x0, 0x0, 0x0, 0x0, 0x0⟩,
  ⟨"TIME_RAW_HI", 0x30001C, [], false, 0x0, 0x0, 0x0, 0x0, 0x0, 0x0⟩,
  ⟨"TIME_INC_LO", 0x300020, [], false, 0xFFFFFFFF, 0x0, 0x0, 0x0, 0x0, 0x0⟩,
  ⟨"TIME_INC_HI", 0x300024, [], false, 0xFFFF, 0x0, 0x0, 0x0, 0x0, 0x0⟩,
  ⟨"TIME_STEP_LO", 0x300028, [], false, 0x0, 0x0, 0x0, 0x0, 0xFFFFFFFF, 0x0⟩,
  ⟨"TIME_STEP_HI", 0x30002C, [], false, 0x0, 0x0, 0x0, 0x0, 0xFFFFFFFF, 0x0⟩,
  ⟨"TIME_OFS_LO", 0x300030, [], false, 0x0, 0x0, 0x0, 0x0, 0x0, 0x0⟩,
  ⟨"TIME_OFS_HI", 0x300034, [], false, 0x0, 0x0, 0x0, 0x0, 0x0, 0x0⟩,
  ⟨"TIME_CAP_CFG", 0x300400, [(0x10, 16)], false, 0x133F, 0x0, 0x10000, 0x0, 0x0, 0x0⟩,
  ⟨"TIME_CAP_LO", 0x300404, [(0x10, 16)], false, 0x0, 0x0, 0x0, 0x0, 0x0, 0x0⟩,
  ⟨"TIME_CAP_HI", 0x300408, [(0x10, 16)], false, 0x0, 0x0, 0x0, 0x0, 0x0, 0x0⟩,
  ⟨"PTP_P_CFG", 0x301000, [(0x100, 12)], false, 0x0, 0x0, 0x0, 0x0, 0x0, 0x0⟩,
  ⟨"PTP_LAT_IN", 0x301004, [(0x100, 12)], false, 0xFFFF, 0x0, 0x0, 0x0, 0x0, 0x0⟩,
  ⟨"PTP_LAT_OUT", 0x301008, [(0x100, 12)], false, 0xFFFF, 0x0, 0x0, 0x0, 0x0, 0x0⟩,
  ⟨"PTP_ASYM", 0x30100C, [(0x100, 12)], false, 0xFFFF, 0x0, 0x0, 0x0, 0x0, 0x0⟩,
  ⟨"PTP_LINK_DELAY", 0x301010, [(0x100, 12)], false, 0xFFFFFFFF, 0x0, 0x0, 0x0, 0x0, 0x0⟩,
  ⟨"PTP_TXTS_TAG", 0x301020, [(0x100, 12)], false, 0x0, 0x0, 0x0, 0x0, 0x0, 0x0⟩,
  ⟨"PTP_TXTS_LO", 0x301024, [(0x100, 12)], false, 0x0, 0x0, 0x0, 0x0, 0x0, 0x0⟩,
  ⟨"PTP_TXTS_HI", 0x301028, [(0x100, 12)], false, 0x0, 0x0, 0x0, 0x0, 0x0, 0x0⟩,
  ⟨"PTP_TXTS_STATUS", 0x30102C, [(0x100, 12)], false, 0x0, 0x80000000, 0x0, 0x0, 0x0, 0x0⟩]

def ttrgRegs : List RegDesc := [
  ⟨"TTRG_CTL", 0x310000, [(0x40, 16)], false, 0x0, 0x0, 0x0, 0x0, 0x0, 0xFF7F⟩,
  ⟨"TTRG_START_LO", 0x310004, [(0x40, 16)], false, 0x0, 0x0, 0x0, 0x0, 0x0, 0xFFFFFFFF⟩,
  ⟨"TTRG_START_HI", 0x310008, [(0x40, 16)], false, 0x0, 0x0, 0x0, 0x0, 0x0, 0xFFFFFFFF⟩,
  ⟨"TTRG_PERIOD", 0x31000C, [(0x40, 16)], false, 0x0, 0x0, 0x0, 0x0, 0x0, 0xFFFFFFFF⟩,
  ⟨"TTRG_ARG", 0x310010, [(0x40, 16)], false, 0x0, 0x0, 0x0, 0x0, 0x0, 0xFFFFFFFF⟩,
  ⟨"TTRG_WIDTH", 0x310014, [(0x40, 16)], false, 0x0, 0x0, 0x0, 0x0, 0x0, 0xFFFFFFFF⟩,
  ⟨"TTRG_STATUS", 0x310018, [(0x40, 16)], false, 0x0, 0x7, 0x0, 0x0, 0x0, 0x0⟩,
  ⟨"TTRG_COUNT", 0x31001C, [(0x40, 16)], false, 0x0, 0x0, 0x0, 0xFFFFFFFF, 0x0, 0x0⟩,
  ⟨"TTRG_LAST_LO", 0x310020, [(0x40, 16)], false, 0x0, 0x0, 0x0, 0x0, 0x0, 0x0⟩,
  ⟨"TTRG_LAST_HI", 0x310024, [(0x40, 16)], false, 0x0, 0x0, 0x0, 0x0, 0x0, 0x0⟩]

def canRegs : List RegDesc := [
  ⟨"CAN_CFG", 0x400000, [(0x1000, 16)], false, 0x0, 0x0, 0x0, 0x0, 0x0, 0x7F1F⟩,
  ⟨"CAN_NBT", 0x400004, [(0x1000, 16)], false, 0x0, 0x0, 0x0, 0x0, 0x0, 0xFFFFFFFF⟩,
  ⟨"CAN_DBT", 0x400008, [(0x1000, 16)], false, 0x0, 0x0, 0x0, 0x0, 0x0, 0x3FFFF⟩,
  ⟨"CAN_CTRL", 0x40000C, [(0x1000, 16)], false, 0x2, 0x0, 0x1, 0x0, 0x0, 0x0⟩,
  ⟨"CAN_STATUS", 0x400010, [(0x1000, 16)], false, 0x0, 0x0, 0x0, 0x0, 0x0, 0x0⟩,
  ⟨"CAN_ERRCNT", 0x400014, [(0x1000, 16)], false, 0x0, 0x0, 0x0, 0x0, 0x0, 0x0⟩,
  ⟨"CAN_ERRS", 0x400018, [(0x1000, 16)], false, 0x0, 0x0, 0x0, 0xFFFFFFFF, 0x0, 0x0⟩,
  ⟨"CAN_ALARM", 0x40001C, [(0x1000, 16)], false, 0x0, 0x7F, 0x0, 0x0, 0x0, 0x0⟩,
  ⟨"CAN_CLASH", 0x400020, [(0x1000, 16)], false, 0x0, 0x0, 0x0, 0x0, 0x0, 0x0⟩,
  ⟨"CAN_B_TIME", 0x400024, [(0x1000, 16)], false, 0x0, 0x0, 0x0, 0x0, 0x0, 0xFFFFFFFF⟩,
  ⟨"CAN_REF_STATUS", 0x400028, [(0x1000, 16)], false, 0x0, 0x0, 0x0, 0x0, 0x0, 0x0⟩,
  ⟨"CAN_REF_MARK_LO", 0x400030, [(0x1000, 16)], false, 0x0, 0x0, 0x0, 0x0, 0x0, 0x0⟩,
  ⟨"CAN_REF_MARK_HI", 0x400034, [(0x1000, 16)], false, 0x0, 0x0, 0x0, 0x0, 0x0, 0x0⟩,
  ⟨"CAN_TXB_CANCEL", 0x400040, [(0x1000, 16)], false, 0x0, 0x0, 0xFFFFFFFF, 0x0, 0x0, 0x0⟩,
  ⟨"CAN_TXB_PEND", 0x400044, [(0x1000, 16)], false, 0x0, 0x0, 0x0, 0x0, 0x0, 0x0⟩,
  ⟨"CAN_TXB_STAT", 0x400080, [(0x1000, 16), (0x4, 32)], false, 0x0, 0x0, 0x0, 0x0, 0x0, 0x0⟩,
  ⟨"CAN_RX_CFG", 0x400100, [(0x1000, 16)], false, 0x1, 0x0, 0x0, 0x0, 0x0, 0x0⟩,
  ⟨"CAN_RX_STATUS", 0x400104, [(0x1000, 16)], false, 0x0, 0x80000000, 0x0, 0x0, 0x0, 0x0⟩,
  ⟨"CAN_RXW", 0x400180, [(0x1000, 16), (0x4, 20)], false, 0x0, 0x0, 0x0, 0x0, 0x0, 0x0⟩]

def dioRegs : List RegDesc := [
  ⟨"DIO_CH_CFG", 0x500000, [(0x100, 32)], false, 0x0, 0x0, 0x0, 0x0, 0x0, 0x7⟩,
  ⟨"DIO_CH_CFG", 0x502000, [(0x100, 32)], false, 0x0, 0x0, 0x0, 0x0, 0x0, 0x300⟩,
  ⟨"DIO_CH_STATUS", 0x500004, [(0x100, 64)], false, 0x0, 0x0, 0x0, 0x0, 0x0, 0x0⟩,
  ⟨"DIO_CH_DIAG", 0x500008, [(0x100, 64)], false, 0x0, 0xBF0, 0x0, 0x0, 0x0, 0x0⟩,
  ⟨"DIO_CH_RISE", 0x50000C, [(0x100, 64)], false, 0x0, 0x0, 0x0, 0x0, 0x0, 0x0⟩,
  ⟨"DIO_CH_FALL", 0x500010, [(0x100, 64)], false, 0x0, 0x0, 0x0, 0x0, 0x0, 0x0⟩,
  ⟨"DIO_CH_TS_LO", 0x500014, [(0x100, 64)], false, 0x0, 0x0, 0x0, 0x0, 0x0, 0x0⟩,
  ⟨"DIO_CH_TS_HI", 0x500018, [(0x100, 64)], false, 0x0, 0x0, 0x0, 0x0, 0x0, 0x0⟩,
  ⟨"DIO_CH_DELAY", 0x50001C, [(0x100, 32)], false, 0xFFFFF, 0x0, 0x0, 0x0, 0x0, 0x0⟩,
  ⟨"DIO_CH_DELAY", 0x50201C, [(0x100, 32)], false, 0x0, 0x0, 0x0, 0x0, 0x0, 0x0⟩,
  ⟨"DIO_GRP_CFG", 0x508000, [(0x40, 2)], false, 0x0, 0x0, 0x0, 0x0, 0x0, 0x30⟩,
  ⟨"DIO_GRP_CFG", 0x508080, [(0x40, 2)], false, 0x0, 0x0, 0x0, 0x0, 0x0, 0x1⟩,
  ⟨"DIO_GRP_STATUS", 0x508004, [(0x40, 4)], false, 0x0, 0x0, 0x0, 0x0, 0x0, 0x0⟩,
  ⟨"DIO_GRP_MEAS", 0x508008, [(0x40, 4)], false, 0x0, 0x0, 0x0, 0x0, 0x0, 0x0⟩,
  ⟨"DIO_GRP_ALARM", 0x50800C, [(0x40, 4)], false, 0x0, 0x7, 0x0, 0x0, 0x0, 0x0⟩,
  ⟨"DIO_GRP_ACK", 0x508010, [(0x40, 4)], false, 0x0, 0x0, 0x0, 0x0, 0x1, 0x0⟩]

def aioRegs : List RegDesc := [
  ⟨"AO_CFG", 0x510000, [(0x100, 8)], false, 0x0, 0x0, 0x0, 0x0, 0x0, 0x13⟩,
  ⟨"AO_STATUS", 0x510004, [(0x100, 8)], false, 0x0, 0x0, 0x0, 0x0, 0x0, 0x0⟩,
  ⟨"AO_DIAG", 0x510008, [(0x100, 8)], false, 0x0, 0x2E, 0x0, 0x0, 0x0, 0x0⟩,
  ⟨"AO_SET", 0x51000C, [(0x100, 8)], false, 0x0, 0x0, 0x0, 0x0, 0x0, 0x0⟩,
  ⟨"AO_READ", 0x510010, [(0x100, 8)], false, 0x0, 0x0, 0x0, 0x0, 0x0, 0x0⟩,
  ⟨"AO_TRIM_GAIN", 0x510014, [(0x100, 8)], false, 0x0, 0x0, 0x0, 0x0, 0x0, 0xFFFFFFFF⟩,
  ⟨"AO_TRIM_OFS", 0x510018, [(0x100, 8)], false, 0x0, 0x0, 0x0, 0x0, 0x0, 0xFFFFFFFF⟩,
  ⟨"AO_MEAS", 0x51001C, [(0x100, 8)], false, 0x0, 0x0, 0x0, 0x0, 0x0, 0x0⟩,
  ⟨"AI_CFG", 0x510840, [(0x100, 8)], false, 0x0, 0x0, 0x0, 0x0, 0x0, 0x17⟩,
  ⟨"AI_STATUS", 0x510844, [(0x100, 8)], false, 0x0, 0x0, 0x0, 0x0, 0x0, 0x0⟩,
  ⟨"AI_DIAG", 0x510848, [(0x100, 8)], false, 0x0, 0xF, 0x0, 0x0, 0x0, 0x0⟩,
  ⟨"AI_VALUE", 0x51084C, [(0x100, 8)], false, 0x0, 0x0, 0x0, 0x0, 0x0, 0x0⟩,
  ⟨"AI_RAW", 0x510850, [(0x100, 8)], false, 0x0, 0x0, 0x0, 0x0, 0x0, 0x0⟩,
  ⟨"AI_TS_LO", 0x510854, [(0x100, 8)], false, 0x0, 0x0, 0x0, 0x0, 0x0, 0x0⟩,
  ⟨"AI_TS_HI", 0x510858, [(0x100, 8)], false, 0x0, 0x0, 0x0, 0x0, 0x0, 0x0⟩,
  ⟨"AIO_SUPPLY", 0x518000, [], false, 0x0, 0x0, 0x0, 0x0, 0x0, 0x0⟩]

def rtcRegs : List RegDesc := [
  ⟨"RTC_STATUS", 0x600000, [], false, 0x0, 0x600000C3, 0x0, 0x0, 0x0, 0x0⟩,
  ⟨"RTC_TIME", 0x600004, [], false, 0x0, 0x0, 0x0, 0x0, 0x0, 0x0⟩,
  ⟨"RTC_DATE", 0x600008, [], false, 0x0, 0x0, 0x0, 0x0, 0x0, 0x0⟩,
  ⟨"RTC_SUB", 0x60000C, [], false, 0x0, 0x0, 0x0, 0x0, 0x0, 0x0⟩,
  ⟨"RTC_SET_DATE", 0x600010, [], false, 0x1FF0F1F, 0x0, 0x0, 0x0, 0x0, 0x0⟩,
  ⟨"RTC_SET_TIME", 0x600014, [], false, 0x801F3F3F, 0x0, 0x0, 0x0, 0x0, 0x0⟩,
  ⟨"RTC_ALM_TIME", 0x600020, [(0x8, 2)], false, 0x1F3F3F, 0x0, 0x0, 0x0, 0x0, 0x0⟩,
  ⟨"RTC_ALM_DATE", 0x600024, [(0x8, 2)], false, 0x9F000F1F, 0x0, 0x0, 0x0, 0x0, 0x0⟩,
  ⟨"RTC_OPHOURS", 0x600030, [], false, 0x0, 0x0, 0x0, 0x0, 0x0, 0x0⟩,
  ⟨"RTC_OPSEC", 0x600034, [], false, 0x0, 0x0, 0x0, 0x0, 0x0, 0x0⟩,
  ⟨"RTC_PCYCLES", 0x600038, [], false, 0x0, 0x0, 0x0, 0x0, 0x0, 0x0⟩,
  ⟨"RTC_CELL", 0x60003C, [], false, 0x0, 0x0, 0x0, 0x0, 0x0, 0x0⟩]

def recRegs : List RegDesc := [
  ⟨"REC_CMD", 0x610000, [], true, 0x0, 0x0, 0x0, 0x0, 0xF, 0x0⟩,
  ⟨"REC_CMD_STATUS", 0x610004, [], true, 0x0, 0x0, 0x0, 0x0, 0x0, 0x0⟩,
  ⟨"REC_STATUS", 0x610008, [], false, 0x0, 0x18C000, 0x0, 0x0, 0x0, 0x0⟩,
  ⟨"REC_REFUSED", 0x61000C, [], false, 0x0, 0x0, 0x0, 0xFFFFFFFF, 0x0, 0x0⟩,
  ⟨"REC_SEQ", 0x610010, [], false, 0x0, 0x0, 0x0, 0x0, 0x0, 0x0⟩,
  ⟨"REC_REGION", 0x610014, [], false, 0x0, 0x0, 0x0, 0x0, 0x0, 0x0⟩,
  ⟨"REC_FEED_VAL", 0x610018, [], false, 0xFFFFFFFF, 0x0, 0x0, 0x0, 0x0, 0x0⟩,
  ⟨"REC_FEED", 0x61001C, [], false, 0x0, 0x0, 0x0, 0x0, 0xFF, 0x0⟩,
  ⟨"REC_SCRUB", 0x610020, [], false, 0x0, 0x0, 0x0, 0x0, 0x0, 0x0⟩,
  ⟨"REC_WEAR", 0x610024, [], false, 0x0, 0x0, 0x0, 0x0, 0x0, 0x0⟩,
  ⟨"REC_WEAR_BAD", 0x610028, [], false, 0x0, 0x0, 0x0, 0x0, 0x0, 0x0⟩,
  ⟨"REC_ARCH", 0x61002C, [], false, 0x0, 0x0, 0x0, 0x0, 0x0, 0x0⟩,
  ⟨"REC_H_CFG", 0x611000, [(0x10, 256)], false, 0x0, 0x0, 0x0, 0x0, 0x0, 0x1FFFF7FF⟩,
  ⟨"REC_H_BASE", 0x611004, [(0x10, 256)], false, 0x0, 0x0, 0x0, 0x0, 0x0, 0xFFFFFFFF⟩,
  ⟨"REC_H_WIDTH", 0x611008, [(0x10, 256)], false, 0x0, 0x0, 0x0, 0x0, 0x0, 0xFFFFFFFF⟩]

def svcRegs : List RegDesc := [
  ⟨"SVC_STATUS", 0x700000, [], false, 0x0, 0x0, 0x0, 0x0, 0x0, 0x0⟩,
  ⟨"SVC_ADDR", 0x700004, [], false, 0x0, 0x0, 0x0, 0x0, 0x0, 0x0⟩,
  ⟨"SVC_CLIENT", 0x700008, [], false, 0x0, 0x0, 0x0, 0x0, 0x0, 0x0⟩,
  ⟨"SVC_CNT", 0x70000C, [], false, 0x0, 0x0, 0x0, 0xFFFFFFFF, 0x0, 0x0⟩,
  ⟨"UPD_CMD", 0x700100, [], true, 0x0, 0x0, 0x0, 0x0, 0x10F, 0x0⟩,
  ⟨"UPD_CMD_STATUS", 0x700104, [], true, 0x0, 0x0, 0x0, 0x0, 0x0, 0x0⟩,
  ⟨"UPD_STATUS", 0x700108, [], false, 0x0, 0x0, 0x0, 0x0, 0x0, 0x0⟩,
  ⟨"UPD_SLOTS", 0x70010C, [], false, 0x0, 0x0, 0x0, 0x0, 0x0, 0x0⟩,
  ⟨"UPD_PROGRESS", 0x700110, [], false, 0x0, 0x0, 0x0, 0x0, 0x0, 0x0⟩,
  ⟨"UPD_BOOT", 0x700114, [], false, 0x0, 0x0, 0x0, 0x0, 0x0, 0x0⟩,
  ⟨"UPD_CFG", 0x700118, [], false, 0x3F, 0x0, 0x0, 0x0, 0x0, 0x0⟩,
  ⟨"UPD_VERSION", 0x70011C, [], false, 0x0, 0x0, 0x0, 0x0, 0x0, 0x0⟩]

def bistRegs : List RegDesc := [
  ⟨"BIST_CMD", 0x710000, [], true, 0x0, 0x0, 0x0, 0x0, 0x3F0F, 0x0⟩,
  ⟨"BIST_CMD_STATUS", 0x710004, [], true, 0x0, 0x0, 0x0, 0x0, 0x0, 0x0⟩,
  ⟨"BIST_STATUS", 0x710008, [], false, 0x0, 0x0, 0x0, 0x0, 0x0, 0x0⟩,
  ⟨"BIST_RES", 0x710010, [(0x8, 6)], false, 0x0, 0x0, 0x0, 0x0, 0x0, 0x0⟩,
  ⟨"BIST_DUR", 0x710014, [(0x8, 6)], false, 0x0, 0x0, 0x0, 0x0, 0x0, 0x0⟩]

def queRegs : List RegDesc := [
  ⟨"QUE_RING_BASE", 0x800000, [(0x40, 128)], false, 0x0, 0x0, 0x0, 0x0, 0x0, 0x1FFFFF0⟩,
  ⟨"QUE_CFG", 0x800004, [(0x40, 128)], false, 0x0, 0x0, 0x0, 0x0, 0x0, 0xF1FFFF1⟩,
  ⟨"QUE_TAIL", 0x800008, [(0x40, 128)], false, 0xFFFF, 0x0, 0x0, 0x0, 0x0, 0x0⟩,
  ⟨"QUE_HEAD", 0x80000C, [(0x40, 128)], false, 0x0, 0x0, 0x0, 0x0, 0x0, 0x0⟩,
  ⟨"QUE_STATUS", 0x800010, [(0x40, 128)], false, 0x0, 0xF, 0x0, 0x0, 0x0, 0x0⟩,
  ⟨"QUE_COUNT", 0x800014, [(0x40, 128)], false, 0x0, 0x0, 0x0, 0xFFFFFFFF, 0x0, 0x0⟩,
  ⟨"QUE_POOL", 0x802000, [], false, 0x0, 0x0, 0x0, 0x0, 0x0, 0x0⟩,
  ⟨"QUE_ECC_CNT", 0x802008, [], false, 0x0, 0x0, 0x0, 0xFFFFFFFF, 0x0, 0x0⟩,
  ⟨"QUE_ECC_ADDR", 0x80200C, [], false, 0x0, 0x80000000, 0x0, 0x0, 0x0, 0x0⟩]

/-- The register map of the 64 KiB block with a number (address bits 31:16), Table 1.12. -/
def blockRegs : Nat → List RegDesc
  | 0x0 => sysRegs
  | 0x1 => clkRegs
  | 0x2 => pwrRegs
  | 0x3 => ctuRegs
  | 0x4 => artRegs
  | 0x5 => secRegs
  | 0x10 => engRegs
  | 0x11 => laneRegs
  | 0x14 => redRegs
  | 0x20 => fgrRegs
  | 0x30 => timeRegs
  | 0x31 => ttrgRegs
  | 0x40 => canRegs
  | 0x50 => dioRegs
  | 0x51 => aioRegs
  | 0x60 => rtcRegs
  | 0x61 => recRegs
  | 0x70 => svcRegs
  | 0x71 => bistRegs
  | 0x12 => lseRegs
  | 0x13 => lseRegs
  | 0x80 => queRegs
  | _ => []

/-- Does `off` lie at a place of an array with these strides and counts? -/
def inArr : List (Nat × Nat) → Nat → Bool
  | [], off => off == 0
  | (st, n) :: l, off => (List.range n).any fun i => decide (i * st ≤ off) && inArr l (off - i * st)

/-- Does a row of a register map describe the register at an address? One-dimensional arrays are decided by division. -/
def descAt (a : Nat) (d : RegDesc) : Bool :=
  match d.arr with
  | [] => a == d.addr
  | [(st, n)] => decide (d.addr ≤ a) && (a - d.addr) % st == 0 && decide ((a - d.addr) / st < n)
  | l => decide (d.addr ≤ a) && inArr l (a - d.addr)

/-- The register at an address, none where no register map has one (R25). -/
def desc? (a : Nat) : Option RegDesc := (blockRegs (a / 0x10000)).find? (descAt a)

/-- The reset values that are not 0 (R6), as pairs of address and value for the registers that are not arrayed. -/
def resetTable : List (Nat × Nat) := [
  (SYS_ID, 0x08804101), (ENG_CTRL, 0x103), (CLK_DIV, 0x28030505), (CLK_DIV_STATUS, 0x28030505), (CLK_GATE_LO, 0x3FFF00FF),
  (CLK_GATE_HI, 0x00FFFF3F), (PWR_CFG, 0x1F40), (RED_CFG, 0x10), (RED_HOLDOFF, 0x3C), (FGR_ETYPE, 0x88B5), (TIME_CTRL, 0x3),
  (TIME_INC_HI, 0x400), (UPD_CFG, 0xA), (QUE_POOL, 0x1800)]

/-- Is `a` one of `n` addresses that lie `st` apart from `b` on? -/
def inRow (a b st n : Nat) : Bool := decide (b ≤ a) && (a - b) % st == 0 && decide ((a - b) / st < n)

/-- The reset value of the register at an address (R6); the "—" and "S" of the Reset columns read 0 here. -/
def resetValue (a : Nat) : Word :=
  match resetTable.find? (fun p => p.1 == a) with
  | some p => BitVec.ofNat 32 p.2
  | none =>
    if inRow a (TIME_CAP_CFG 0) 0x10 16 then 0x3F
    else if inRow a (TTRG_CTL 0) 0x40 16 then 0x100
    else if inRow a (LSE_S_DEN 0) 0x40 128 then 1
    else if inRow a (REC_H_WIDTH 0) 0x10 256 then 1
    else if decide (CAN_TXB_STAT 0 0 ≤ a) && inRow ((a - CAN_TXB_STAT 0 0) % 0x1000) 0 4 32 &&
        decide ((a - CAN_TXB_STAT 0 0) / 0x1000 < 16) then 0x30000000
    else 0

end Reg

end Sys2Proof.Machine
end

