-- ==== Sys2Proof/Machine/Sparse.lean ====
section
/-!
DEFINITION. Sparse stores: addresses to words, as a list in one canonical form (addresses strictly rising, no listed word 0;
an address that is not listed holds 0). The registers, the Central Store, Ballast, the image words and every other large
array of the module are held in this form, so that equal contents are equal data.
-/
namespace Sys2Proof.Machine

/-- The cells of a sparse store. -/
abbrev Cells (w : Nat) := List (Nat × BitVec w)

/-- The canonical form: addresses strictly rising, and no cell holds what an unlisted address reads as. -/
abbrev Cells.wf {w : Nat} (l : Cells w) : Prop :=
  l.Pairwise (fun a b => a.1 < b.1) ∧ ∀ c ∈ l, c.2 ≠ 0

/-- The word at an address: 0 where nothing is listed. -/
def Cells.get {w : Nat} : Cells w → Nat → BitVec w
  | [], _ => 0
  | c :: l, a => if c.1 = a then c.2 else Cells.get l a

/-- A cell ahead of a list whose addresses are all higher: a word 0 is not listed. -/
def Cells.cons {w : Nat} (a : Nat) (v : BitVec w) (l : Cells w) : Cells w :=
  if v = 0 then l else (a, v) :: l

/-- Write of one word, keeping the canonical form. -/
def Cells.put {w : Nat} : Cells w → Nat → BitVec w → Cells w
  | [], a, v => Cells.cons a v []
  | c :: l, a, v =>
    if a < c.1 then Cells.cons a v (c :: l)
    else if a = c.1 then Cells.cons a v l
    else c :: Cells.put l a v

theorem Cells.wf_cons {w : Nat} {a : Nat} {v : BitVec w} {l : Cells w} (h : Cells.wf l)
    (ha : ∀ c ∈ l, a < c.1) : Cells.wf (Cells.cons a v l) := by
  unfold Cells.cons
  split
  · exact h
  · refine ⟨List.Pairwise.cons ha h.1, ?_⟩
    intro c hc
    rcases List.mem_cons.mp hc with rfl | hc
    · assumption
    · exact h.2 c hc

theorem Cells.mem_cons' {w : Nat} {l : Cells w} {a : Nat} {v : BitVec w} {c : Nat × BitVec w}
    (h : c ∈ Cells.cons a v l) : c.1 = a ∨ c ∈ l := by
  unfold Cells.cons at h
  split at h
  · exact .inr h
  · rcases List.mem_cons.mp h with h | h
    · exact .inl (by rw [h])
    · exact .inr h

theorem Cells.mem_put {w : Nat} {l : Cells w} {a : Nat} {v : BitVec w} {c : Nat × BitVec w}
    (h : c ∈ Cells.put l a v) : c.1 = a ∨ c ∈ l := by
  induction l with
  | nil => exact Cells.mem_cons' h
  | cons d l ih =>
    unfold Cells.put at h
    split at h
    · exact Cells.mem_cons' h
    · split at h
      · exact (Cells.mem_cons' h).imp_right (List.mem_cons_of_mem _)
      · rcases List.mem_cons.mp h with h | h
        · exact .inr (h ▸ List.mem_cons_self)
        · exact (ih h).imp_right (List.mem_cons_of_mem _)

/-- A write keeps the canonical form. -/
theorem Cells.wf_put {w : Nat} {l : Cells w} (h : Cells.wf l) (a : Nat) (v : BitVec w) :
    Cells.wf (Cells.put l a v) := by
  induction l with
  | nil => exact Cells.wf_cons h (by simp)
  | cons d l ih =>
    have hd := List.pairwise_cons.mp h.1
    have hl : Cells.wf l := ⟨hd.2, fun c hc => h.2 c (List.mem_cons_of_mem _ hc)⟩
    unfold Cells.put
    split
    · rename_i hlt
      refine Cells.wf_cons h fun c hc => ?_
      rcases List.mem_cons.mp hc with rfl | hc
      · exact hlt
      · exact Nat.lt_trans hlt (hd.1 c hc)
    · split
      · rename_i heq
        exact Cells.wf_cons hl fun c hc => heq ▸ hd.1 c hc
      · refine ⟨List.Pairwise.cons (fun c hc => ?_) (ih hl).1, fun c hc => ?_⟩
        · rcases Cells.mem_put hc with h1 | h1
          · omega
          · exact hd.1 c h1
        · rcases List.mem_cons.mp hc with rfl | hc
          · exact h.2 _ (by simp)
          · exact (ih hl).2 c hc

/-- A sparse store in canonical form. -/
structure SMap (w : Nat) where
  cells : Cells w
  ok : Cells.wf cells
  deriving DecidableEq, Repr

/-- The store that holds 0 everywhere. -/
def SMap.empty {w : Nat} : SMap w := ⟨[], List.Pairwise.nil, by simp⟩

/-- The word at an address. -/
def SMap.get {w : Nat} (m : SMap w) (a : Nat) : BitVec w := Cells.get m.cells a

/-- The store with one word written. -/
def SMap.put {w : Nat} (m : SMap w) (a : Nat) (v : BitVec w) : SMap w := ⟨Cells.put m.cells a v, Cells.wf_put m.ok a v⟩

/-- The store with consecutive words written from an address on. -/
def SMap.putList {w : Nat} : SMap w → Nat → List (BitVec w) → SMap w
  | m, _, [] => m
  | m, a, v :: l => SMap.putList (m.put a v) (a + 1) l

/-- The store with `n` consecutive words from an address on holding 0. -/
def SMap.clear {w : Nat} (m : SMap w) (a n : Nat) : SMap w :=
  ⟨m.cells.filter fun c => decide (c.1 < a) || decide (a + n ≤ c.1),
   m.ok.1.filter _, fun c hc => m.ok.2 c (List.mem_filter.mp hc).1⟩

/-- `n` consecutive words from an address on. -/
def SMap.getList {w : Nat} (m : SMap w) (a n : Nat) : List (BitVec w) := (List.range n).map fun i => m.get (a + i)

/-- A table with few entries: entries by number, numbers rising. -/
abbrev Tab (α : Type) := List (Nat × α)

/-- The entry with a number. -/
def Tab.get? {α : Type} : Tab α → Nat → Option α
  | [], _ => none
  | e :: l, k => if e.1 = k then some e.2 else Tab.get? l k

/-- The table with one entry written. -/
def Tab.put {α : Type} : Tab α → Nat → α → Tab α
  | [], k, x => [(k, x)]
  | e :: l, k, x => if k < e.1 then (k, x) :: e :: l else if k = e.1 then (k, x) :: l else e :: Tab.put l k x

/-- The table without an entry. -/
def Tab.erase {α : Type} (l : Tab α) (k : Nat) : Tab α := l.filter fun e => e.1 != k

end Sys2Proof.Machine
end

