-- ==== Sys2Proof/Machine/State.lean ====
section
/-!
DEFINITION. The state of the module, as plain data: every register, table, queue, counter, mode and pin the spec gives
it, and the queue of waiting commands. Field defaults are the reset values (R6, R382, and the entries of notes/assumptions
that each docstring names).
-/
namespace Sys2Proof.Machine

/-! ### Module states and the masters -/

/-- The module states (Table 3.3). -/
inductive Mode where
  | boot | hold | standby | detached | active | solo | safe | service
  deriving DecidableEq, Repr

/-- The code of a module state (Table 3.3). -/
def Mode.code : Mode → Nat
  | .boot => 0 | .hold => 1 | .standby => 2 | .detached => 3 | .active => 4 | .solo => 5 | .safe => 6 | .service => 7

/-- The causes of a state transition (SYS_STATE.cause). -/
inductive Cause where
  | powerUp | bootDone | command | watchdog | laneFault | superseded | claim | handover | partner | tether | fwRestart
  deriving DecidableEq, Repr

/-- The code of a cause (SYS_STATE.cause). -/
def Cause.code : Cause → Nat
  | .powerUp => 0 | .bootDone => 1 | .command => 2 | .watchdog => 3 | .laneFault => 4 | .superseded => 5 | .claim => 6
  | .handover => 7 | .partner => 8 | .tether => 9 | .fwRestart => 10

/-- One copy of something for each master. -/
structure PerMaster (α : Type) where
  mc0 : α
  mc1 : α
  service : α
  debug : α
  tether : α
  deriving DecidableEq, Repr

def PerMaster.get {α : Type} (p : PerMaster α) : Master → α
  | .mc0 => p.mc0 | .mc1 => p.mc1 | .service => p.service | .debug => p.debug | .tether => p.tether

def PerMaster.set {α : Type} (p : PerMaster α) (m : Master) (x : α) : PerMaster α :=
  match m with
  | .mc0 => { p with mc0 := x }
  | .mc1 => { p with mc1 := x }
  | .service => { p with service := x }
  | .debug => { p with debug := x }
  | .tether => { p with tether := x }

/-- The same copy for every master. -/
def PerMaster.all {α : Type} (x : α) : PerMaster α := ⟨x, x, x, x, x⟩

/-- One copy of something for each cycle class. -/
structure PerCls (α : Type) where
  fast : α
  mid : α
  slow : α
  background : α
  deriving DecidableEq, Repr

def PerCls.get {α : Type} (p : PerCls α) : Cls → α
  | .fast => p.fast | .mid => p.mid | .slow => p.slow | .background => p.background

def PerCls.set {α : Type} (p : PerCls α) (k : Cls) (x : α) : PerCls α :=
  match k with
  | .fast => { p with fast := x }
  | .mid => { p with mid := x }
  | .slow => { p with slow := x }
  | .background => { p with background := x }

def PerCls.all {α : Type} (x : α) : PerCls α := ⟨x, x, x, x⟩

/-- How an access was answered (R3, R5, R25, Table 17.6): the data of a read (of 8 bytes: `data64`), a write done, a bus error, an access
fault of a core, or no error for a refused posted store. -/
inductive Resp where
  | none | data (w : Word) | data64 (w : BitVec 64) | done | busError | accessFault
  deriving DecidableEq, Repr

/-! ### Time unit (R300 to R321) -/

/-- A transmit timestamp queue entry (R307): the tag word (PTP_TXTS_TAG without port and valid) and bits 47:0 of the timestamp. -/
structure TxTs where
  aborted : Bool
  msgType : BitVec 4
  tag : BitVec 16
  ts : BitVec 48
  deriving DecidableEq, Repr

/-- A capture unit (R311): the window that a CAPTURE_ARM firing opened, and whether its event was taken. -/
structure CapUnit where
  openAt : Option Int := none
  closeAt : Int := 0
  took : Bool := false
  deriving DecidableEq, Repr

/-- A time trigger (R316): its next scheduled instant, whether a step or a late commit passed that instant, and the firings scheduled behind
it where a step has broken its grid, each with its late flag (R320). -/
structure Trig where
  next : Option Int := none
  late : Bool := false
  resume : List (Int × Bool) := []
  deriving DecidableEq, Repr

/-- The time unit: counter C, increment, base of the present rate, offset (R300); the edge of the last step with local time before it
(R62); transmit timestamp queues (R307). -/
structure TimeUnit where
  c : Nat := 0
  inc : Nat := 2 ^ 42
  ab : Nat := 0
  cb : Nat := 0
  off : BitVec 64 := 0
  stepped : Option (Nat × Int) := none
  txts : Vector (List TxTs) 12 := Vector.replicate 12 []
  caps : Vector CapUnit 16 := Vector.replicate 16 {}
  trigs : Vector Trig 16 := Vector.replicate 16 {}
  deriving DecidableEq, Repr

/-! ### Local I/O (R340 to R362) -/

/-- A DI channel: level at the isolator and accepted level, the crossing that may become an edge (compensated instant, raw
counter), the newest edge's kind, the edges not yet frozen in a snapshot, and what the last freeze at a T0 found. -/
structure DiCh where
  raw : Bool := false
  level : Bool := false
  lastRise : Bool := false
  cross : Option (Int × Nat) := none
  wait : List (Int × Bool) := []
  fzLevel : Bool := false
  fzRises : Word := 0
  fzFalls : Word := 0
  fzRise : Option Int := none
  fzFall : Option Int := none
  deriving DecidableEq, Repr

/-- A DO channel: commanded value, output stage, pulse (R317), shadow loaded by a class (R158), the last sample, the times since
which the conditions of Table 14.4 have held, the off periods, and the live flags. -/
structure DoCh where
  cmd : Bool := false
  stage : Bool := false
  pulseEnd : Option Int := none
  shadow : Option (Bool × Cls) := none
  readback : Bool := false
  mA : Nat := 0
  limSince : Option Nat := none
  lowSince : Option Nat := none
  highSince : Option Nat := none
  rbOnSince : Option Nat := none
  rbOffSince : Option Nat := none
  okSince : Option Nat := none
  coolSince : Option Nat := none
  ovlUntil : Option Nat := none
  otUntil : Option Nat := none
  overload : Bool := false
  overtemp : Bool := false
  openWire : Bool := false
  extDrive : Bool := false
  isoLost : Bool := false
  deriving DecidableEq, Repr

/-- A DIO group: supply sample, consecutive low samples, the time since which every sample has been at or above 19.2 V, the flags of
R350 and R351, the wait for a FAST OR, and the GROUP_OVL off period. -/
structure DioGrp where
  mV : Nat := 0
  mA : Nat := 0
  low19 : Nat := 0
  low15 : Nat := 0
  goodSince : Option Nat := none
  sag : Bool := false
  undervolt : Bool := false
  ovl : Bool := false
  latched : Bool := false
  ackRefused : Bool := false
  awaitOr : Bool := false
  highSince : Option Nat := none
  ovlUntil : Nat := 0
  deriving DecidableEq, Repr

/-- An AO unit: released value, shadow, measured current with its instant, compliance, junction, flags and the times since which
the conditions of R355 and R356 have held; `parEnd` is when PAR_OFF last ended (R358). -/
structure AoCh where
  cmd : Word := 0
  released : Bool := false
  shadow : Option (Word × Cls) := none
  read : Word := 0
  readAt : Option Int := none
  vcomp : Nat := 0
  temp : BitVec 16 := 0
  atMax : Bool := false
  shortSince : Option Nat := none
  okSince : Option Nat := none
  lowSince : Option Nat := none
  openLoop : Bool := false
  compl : Bool := false
  thermal : Bool := false
  parOff : Bool := false
  parEnd : Option Nat := none
  isoLost : Bool := false
  deriving DecidableEq, Repr

/-- An AI sample: trigger instant, REAL value, and whether a fault stood. -/
structure AiSample where
  ts : Int
  value : Word
  fault : Bool
  deriving DecidableEq, Repr

/-- An AI unit: the conversion in progress (raw counter and instant of its start), the last start, the newest two samples, live
faults of Table 14.6. -/
structure AiCh where
  conv : Option Int := none
  startC : Option Nat := none
  cur : Option AiSample := none
  prev : Option AiSample := none
  code : BitVec 16 := 0
  seq : BitVec 8 := 0
  overR : Bool := false
  underR : Bool := false
  wire : Bool := false
  shunt : Bool := false
  shuntAt : Nat := 0
  deriving DecidableEq, Repr

/-- The local I/O section. -/
structure LocalIo where
  di : Vector DiCh 32 := Vector.replicate 32 {}
  dout : Vector DoCh 32 := Vector.replicate 32 {}
  grp : Vector DioGrp 4 := Vector.replicate 4 {}
  ao : Vector AoCh 8 := Vector.replicate 8 {}
  ai : Vector AiCh 8 := Vector.replicate 8 {}
  loopMv : Nat := 0
  loopLow : Bool := false
  deriving DecidableEq, Repr

/-! ### Time of day and recorder (R383 to R400) -/

/-- A civil date and time. -/
structure Cal where
  year : Nat := 0
  month : Nat := 1
  day : Nat := 1
  hour : Nat := 0
  min : Nat := 0
  sec : Nat := 0
  deriving DecidableEq, Repr

/-- An alarm: the applied time and date words of Table 16.4, and the unreach flag. -/
structure Alarm where
  time : Word := 0
  date : Word := 0
  unreach : Bool := false
  fired : Bool := false
  deriving DecidableEq, Repr

/-- The RTC domain. It keeps its values through power-up and rack reset (R385). The values before anything is set are those of a
lost domain, R391 (notes/assumptions/9.md). -/
structure Rtc where
  cal : Cal := {}
  secC : Nat := 0
  timeValid : Bool := false
  lost : Bool := true
  rolled : Bool := false
  cellLow : Bool := false
  dateInvalid : Bool := false
  alarmInvalid : Bool := false
  setDate : Word := 0
  setTime : Word := 0
  pendSet : Option Cal := none
  almTime : Vector Word 2 := Vector.replicate 2 0
  alarms : Vector Alarm 2 := Vector.replicate 2 {}
  opH : Word := 0
  opS : Nat := 0
  cellMv : BitVec 16 := 0
  onCell : Bool := false
  integrity : Bool := false
  irq : Bool := false
  deriving DecidableEq, Repr

/-- An update waiting in Q61 (R397): an event, or a value for a histogram. -/
inductive RecUpd where
  | event (code param sev : Nat)
  | sample (hist : Nat) (x : Int)
  deriving DecidableEq, Repr

/-- The recorder beside its region in the Central Store: Q61, flush and archive operations (R398), archives held. -/
structure Recorder where
  queue : List RecUpd := []
  used : Nat := 0
  flushing : Option Nat := none
  flushPend : Option Nat := none
  archiving : Bool := false
  archPend : Bool := false
  archives : List (SMap 8) := []
  ballastPasses : Nat := 0
  deriving DecidableEq, Repr

/-! ### The cycle scheduler (R59 to R75) -/

/-- One cycle class of the scheduler. `lastT0` is the T0 of the last cycle started since the engine began to execute, `snapT0` the
T0 of the last snapshot and `prevT0` that of the one before it; `skipT0` a T0 at which R73 started no cycle; `late` a cycle that runs on past its OC; `orAt` the OR at
which a committed vector is due; `lastNo` the number of the last evaluation (R61); `comNo` and `comT0` those of the last committed
cycle, for BACKGROUND the pass count. -/
structure ClassRun where
  lastT0 : Option Int := none
  snapT0 : Option Int := none
  prevT0 : Option Int := none
  lastNo : Option Nat := none
  elapsed : Nat := 1
  running : Bool := false
  waves : Nat := 0
  chainsDone : Bool := false
  complete : Bool := false
  late : Bool := false
  skipT0 : Option Int := none
  inject : Nat := 0
  injected : Bool := false
  orAt : Option Int := none
  comNo : Nat := 0
  comT0 : Option Int := none
  lseDone : Bool := false
  deriving DecidableEq, Repr

/-! ### Clocks and power (R363 to R382) -/

/-- The states of a rack lane (Table 15.1). -/
inductive RefState where
  | down | judging | good | suspect
  deriving DecidableEq, Repr

def RefState.code : RefState → Nat
  | .down => 0 | .judging => 1 | .good => 2 | .suspect => 3

/-- A rack lane: its state, consecutive passing windows, consecutive windows in GOOD, and the count of the last window. -/
structure RefLane where
  st : RefState := .down
  run : Nat := 0
  goodWin : Nat := 0
  count : Nat := 0
  deriving DecidableEq, Repr

/-- The close of a clock gate that waits for idle (R375): master, gate asked for, gates still to close in order, start of the present
wait. -/
structure GateReq where
  m : Master
  gate : Nat
  todo : List Nat
  startC : Nat
  deriving DecidableEq, Repr

/-- Reference, PLLs, dividers in force and gates. `pendSel` is a switch decided and not yet made, with whether rule 1 of R366
decided it. -/
structure Clocks where
  a : RefLane := {}
  b : RefLane := {}
  selB : Bool := false
  pendSel : Option (Bool × Bool) := none
  pll0 : Bool := false
  pll1 : Bool := false
  holdAt : Option Nat := none
  divCore : Nat := 5
  divStore : Nat := 5
  divMgmt : Nat := 3
  divIo : Nat := 40
  ramping : Bool := false
  gates : BitVec 64 := 0x00FFFF3F3FFF00FF
  req : Option GateReq := none
  deriving DecidableEq, Repr

/-- The power states (Table 15.4). -/
inductive PowerState where
  | main | holdup | backup
  deriving DecidableEq, Repr

/-- Supply state: consecutive low samples, time since which every sample has been at or above 19.0 V, entry of HOLDUP, and whether
the stop at t_s has been made. -/
structure Power where
  st : PowerState := .main
  low : Nat := 0
  goodSince : Option Nat := none
  entryC : Nat := 0
  stopped : Bool := false
  deriving DecidableEq, Repr

/-- What firmware keeps in Ballast at places the spec does not give (notes/assumptions/10.md): the reset record and stop counts
(R379, R382), the operating hours of the last flush and the power cycles (R392), the highest known Bridle epoch
(R261), and that a reset has ended an exchange (R225). -/
structure BallastRec where
  cause : Nat := 0
  also : Nat := 0
  stops : Nat := 0
  clockStops : Nat := 0
  opH : Word := 0
  opS : Nat := 0
  pcycles : Word := 0
  epoch : Nat := 0
  xchLost : Bool := false
  deriving DecidableEq, Repr

/-! ### Hardware queues (R14 to R22) -/

/-- A descriptor posted and not yet completed: when it was posted, whether the engine has taken it (with the address it was taken
from), its outcome once known, and for class B the FAST period since which it has waited for budget. -/
structure Fly where
  postC : Nat
  takenAt : Option Nat := none
  outcome : Option Nat := none
  late : Nat := 0
  poisoned : Bool := false
  waitFrom : Option Int := none
  deriving DecidableEq, Repr

/-- A queue beside its registers: descriptors in ring order, class B bytes sent in a FAST period, and for received frames the buffers of the
pool that each one holds until software posts again (notes/assumptions/71.md), oldest first. -/
structure Queue where
  fly : List Fly := []
  bufs : List Nat := []
  bUsed : Nat := 0
  bPeriod : Int := 0
  deriving DecidableEq, Repr

/-! ### CAN (R322 to R339) -/

/-- The state of a CAN channel (CAN_STATUS.state). -/
inductive CanState where
  | off | integrating | errorActive | errorPassive | busOff | recovering
  deriving DecidableEq, Repr

def CanState.code : CanState → Nat
  | .off => 0 | .integrating => 1 | .errorActive => 2 | .errorPassive => 3 | .busOff => 4 | .recovering => 5

/-- A transmit buffer beside its CAN_TXB_STAT register: the frame pending or on the bus, whether it is on the bus and since when, the
opening of its window and the OC that bounds it, the descriptor of a queue frame with its order of taking, and a payload that waits
behind a frame on the bus. -/
structure TxBuf where
  frame : Option CanFrame := none
  onBus : Bool := false
  sof : Int := 0
  opensAt : Int := 0
  bound : Int := 0
  desc : Option Nat := none
  order : Nat := 0
  later : Option (CanFrame × Int × Int) := none
  deriving DecidableEq, Repr

/-- A CAN channel beside its registers. `refAt` is when another master's reference message was last received; `refT0` is the T0 of the cycle in which
the channel last sent its own, or found itself BACKUP; `held` are the addresses
of completed receive descriptors not yet released; `lock` is the holder of the receive window and its last read. -/
structure CanCh where
  st : CanState := .off
  txb : Vector TxBuf 32 := Vector.replicate 32 {}
  taken : Nat := 0
  refAt : Option Int := none
  refT0 : Option Int := none
  held : List Nat := []
  lock : Option (Master × Nat) := none
  bUsed : Nat := 0
  bPeriod : Int := 0
  deriving DecidableEq, Repr

/-- The newest two frames taken for a receive message: timestamp and payload (R335). -/
structure CanRx where
  cur : Option (Int × List Byte) := none
  prev : Option (Int × List Byte) := none
  deriving DecidableEq, Repr

/-- A frame or datagram that leaves the module: on a Feger port (ending with a good FCS, or with an inverted one), a Tether lane, a CAN channel, or X40 (to an address and port, or an
Ethernet answer with its kind). The list of them is the model's own record of what it sent (notes/assumptions/7.md). -/
inductive OutMsg where
  | port (p : Nat) (frame : List Byte) (good : Bool)
  | tether (lane : Nat) (frame : List Byte)
  | can (unit : Nat) (f : CanFrame)
  | x40 (frame : List Byte)
  | udp (ip : Word) (dport : BitVec 16) (payload : List Byte)
  | arp (target asker : Word)
  | icmp (ip : Word) (data : List Byte)
  deriving DecidableEq, Repr
/-! ### The Structure Image (R28 to R38) -/

/-- A part of a section: its type, its part number and its records, each read as one little-endian number. -/
structure Part where
  typ : Nat
  part : Nat
  recs : List Nat
  deriving DecidableEq, Repr

/-- The content of a Structure Image: its identity, the header flag split_required, and its parts. The empty image (id 0) is
"no image loaded". -/
structure Image where
  id : Nat := 0
  split : Bool := false
  parts : List Part := []
  deriving DecidableEq, Repr

/-! ### Process image, blocks and chains (R67, R115, R130, R161) -/

/-- Words and quality bytes of the process image, by word number. -/
structure ImgView where
  w : SMap 32 := SMap.empty
  q : SMap 8 := SMap.empty
  deriving DecidableEq, Repr

/-- An enabled override entry as a class has taken it (R161, R162). -/
structure Ovr where
  entry : Nat
  sig : Nat
  sim : Bool
  q : Byte
  value : BitVec 64
  deriving DecidableEq, Repr

/-- A chain's state (R130). -/
structure ChainSt where
  active : Nat := 0
  entered : Bool := false
  hold : Bool := false
  blocked : Bool := false
  final : Bool := false
  cis : Nat := 0
  moves : Nat := 0
  deriving DecidableEq, Repr

/-- The commands that SCCTL has latched for a chain's next run (R132). -/
structure ScLatch where
  rst : Bool := false
  hold : Bool := false
  jmp : Option Nat := none
  deriving DecidableEq, Repr

/-- The program's memory: the published image (R143), each class's own view of it, the overrides each class has taken, block state
and chain state as the last evaluation left them and as the last commit of their class took them (R137), SCCTL latches, the memories of blocks
that a switch left for their next evaluation to set (by first slot; Table 8.4, R211), and the published image at the last FAST OC (R137). -/
structure Prog where
  pub : ImgView := {}
  view : PerCls ImgView := PerCls.all {}
  ovr : PerCls (List Ovr) := PerCls.all []
  winOvr : List Ovr := []
  slots : SMap 8 := SMap.empty
  cslots : SMap 8 := SMap.empty
  chain : Tab ChainSt := []
  cchain : Tab ChainSt := []
  latch : Tab ScLatch := []
  unset : Tab Nat := []
  ocPub : Option ImgView := none
  deriving DecidableEq, Repr

/-! ### The Line-Shaft Engine (R168 to R205) -/

/-- A setpoint polynomial (R188): coefficients, end position and speed, the FAST cycle number of its origin and the instant of that
OR, its validity and flags. -/
structure Poly where
  a0 : BitVec 64
  a1 : Word
  a2 : Word
  a3 : Word
  x1 : BitVec 64
  v1 : Word
  h : Nat
  orAt : Int
  validity : Nat
  origin : Bool
  join : Bool
  hold : Bool
  deriving DecidableEq, Repr

/-- A virtual master: position with its fraction, speed, acceleration, latched inputs (R174), state word of the last update, staged
polynomial and the last four committed. -/
structure LseMaster where
  p48 : BitVec 80 := 0
  v : BitVec 64 := 0
  a : BitVec 64 := 0
  en : Bool := false
  qs : Bool := false
  vt : Word := 0
  stWord : Word := 0
  staged : Option Poly := none
  polys : List Poly := []
  deriving DecidableEq, Repr

/-- A slave axis: position, offset, remainder, cam phase, fractional carry, commanded position at OR, held ratio with the den that the remainder
counts in (R180, R181) and latched inputs (R178), flags, staged polynomial and the last four committed (the newest is the held polynomial, R186). -/
structure LseSlave where
  s : BitVec 64 := 0
  o : BitVec 64 := 0
  oCmd : BitVec 64 := 0
  r : Nat := 0
  phi : BitVec 64 := 0
  f : BitVec 64 := 0
  xOr : BitVec 64 := 0
  num : BitVec 32 := 0
  den : Nat := 1
  rDen : Nat := 1
  en : Bool := false
  ot : BitVec 64 := 0
  k : Word := 0x3F800000
  lnum : BitVec 32 := 0
  lden : Nat := 1
  badRatio : Bool := false
  stWord : Word := 0
  fresh : Bool := true
  staged : Option Poly := none
  polys : List Poly := []
  spd : Word := 0
  deriving DecidableEq, Repr

/-- A registration record: latched inputs (R195), the last instant taken, offset, last error, result and counts. -/
structure LseReg where
  en : Bool := false
  rst : Bool := false
  ts : Int := 0
  usable : Bool := false
  tgt : BitVec 64 := 0
  last : Option Int := none
  oReg : BitVec 64 := 0
  err : BitVec 64 := 0
  result : Nat := 0
  accepted : Nat := 0
  misses : Nat := 0
  deriving DecidableEq, Repr

/-- The schedule F[0] to F[4] of a cascade stand (R199). -/
structure LseStand where
  f : Vector Word 5 := Vector.replicate 5 0x3F800000
  fresh : Bool := true
  clamped : Bool := false
  deriving DecidableEq, Repr

/-- The Line-Shaft Engine. -/
structure Lse where
  masters : Tab LseMaster := []
  slaves : Tab LseSlave := []
  regs : Tab LseReg := []
  stands : Tab LseStand := []
  deriving DecidableEq, Repr

/-! ### Lanes (R226 to R241) -/

/-- A lane fault that waits for the first FAST OC (R234): the partner's readiness at its instant, the classes in which faults arose with
the T0 of the cycle, and whether it is an ECC fault in split mode (R237). -/
structure LaneFault where
  ready : Bool
  classes : List (Cls × Int)
  splitEcc : Bool
  deriving DecidableEq, Repr

/-- The lanes: mode, lane B off, a deferred command (master, SPLIT, raw instant), the history of LATENTs, the words and slots that have
diverged in the present cycle of each class, a fault waiting, cycles that have lost their commit, an armed injection. -/
structure LaneSt where
  split : Bool := false
  bOff : Bool := false
  pend : Option (Master × Bool × Nat) := none
  hist : List Nat := []
  diverged : PerCls (List Nat) := PerCls.all []
  fault : Option LaneFault := none
  lost : PerCls (Option Int) := PerCls.all none
  inject : Option Nat := none
  deriving DecidableEq, Repr

/-! ### Module commands (R79 to R81) -/

/-- The deferred module commands. -/
inductive SysCmd where
  | stop | safe | handover
  deriving DecidableEq, Repr

/-- A deferred module command with the masters that wait for it. -/
structure SysPend where
  cmd : SysCmd
  masters : List Master
  deriving DecidableEq, Repr

/-! ### The redundant pair (R242 to R277) -/

/-- A Tether lane: raw instants of the last good frame and the last good Cricket, start of the present run of good Crickets, up, PCS lock, the
partner's rx_ok, transceiver, frames sent. -/
structure TLane where
  lastGood : Option Nat := none
  lastCrk : Option Nat := none
  runFrom : Option Nat := none
  up : Bool := false
  pcs : Bool := false
  partnerRx : Bool := false
  present : Bool := false
  los : Bool := false
  seq : Nat := 0
  deriving DecidableEq, Repr

/-- The partner as its last Tether Cricket showed it, with what no frame carries: its firmware's major version fits, and its running image
(notes/assumptions/23.md). -/
structure Partner where
  at' : Option Nat := none
  state : Nat := 0
  ready : Bool := false
  lagging : Bool := false
  leaving : Bool := false
  exec : Bool := false
  xch : Nat := 0
  rings : Nat := 0
  ckpt : Nat := 0
  sender : Nat := 0
  timeOk : Bool := false
  fwOk : Bool := true
  image : Nat := 0
  deriving DecidableEq, Repr

/-- A checkpoint delta being streamed (R255, R256): its cycle, the words captured by Store word number, flags, last cycle numbers,
frames sent, the frames that were asked for again, and whether CKPT_END has gone out and was answered. -/
structure Delta where
  k : Nat
  words : List (Nat × Word)
  full : Bool
  flags : Nat
  last : List Nat
  next : Nat := 0
  again : List Nat := []
  ended : Bool := false
  deriving DecidableEq, Repr

/-- A checkpoint delta being received (R258): frames by index, and the fields of CKPT_END. -/
structure DeltaIn where
  k : Nat
  frames : Tab (List Byte) := []
  ended : Bool := false
  nFrames : Nat := 0
  nBytes : Nat := 0
  crc : Word := 0
  last : List Nat := []
  flags : Nat := 0
  deriving DecidableEq, Repr

/-- The progress of a planned handover (RED_HANDOVER.state). -/
inductive HandSt where
  | idle | proposed | streaming | go | done | cancelled
  deriving DecidableEq, Repr

def HandSt.code : HandSt → Nat
  | .idle => 0 | .proposed => 1 | .streaming => 2 | .go => 3 | .done => 4 | .cancelled => 5

/-- What an active restores on GO (R274): the program's memory and the LSE as they stood at OC(N), by the cycle scheduler's classes. -/
structure UndoLog where
  prog : Prog
  lse : Lse
  cls : PerCls ClassRun
  deriving DecidableEq, Repr

/-- A planned handover: progress, N, attempts, the undo log, whether this module is the new active, the raw instant of GO. -/
structure Handover where
  st : HandSt := .idle
  n : Nat := 0
  attempts : Nat := 0
  undo : Option UndoLog := none
  taking : Bool := false
  goSent : Bool := false
  deriving DecidableEq, Repr

/-- The pair: Tether lanes, the partner, own epochs, signs of life, counts, readiness, checkpoint in both directions, START, handover. -/
structure Red where
  lanes : Vector TLane 2 := Vector.replicate 2 {}
  partner : Partner := {}
  /-- The epoch under which the module owns the line. -/
  epoch : Nat := 0
  /-- The newest pair seen from others. -/
  seenPair : Nat × Nat := (0, 0)
  newer : Bool := false
  paired : Bool := false
  /-- Since when both lanes have been down (R277); none: since they were last up, or always. -/
  downAt : Option Int := none
  /-- The last sign of life, the last one of an earlier FAST interval than that one's, and the same of signs on a ring (R254). -/
  lifeAt : Option Int := none
  lifeBefore : Option Int := none
  lifeReady : Bool := false
  ringAt : Option Int := none
  ringBefore : Option Int := none
  /-- The T0 whose FAST interval's end was last judged. -/
  endT0 : Option Int := none
  silence : Nat := 0
  isolation : Nat := 0
  lag : Nat := 0
  lagging : Bool := false
  resyncLeft : Nat := 0
  ready : Bool := false
  leaving : Bool := false
  readySince : Option Nat := none
  /-- REQUEST has been sent since the hold-off began (R276). -/
  requested : Bool := false
  ringWorse : Nat := 0
  /-- `START` listens: for how many ns, and since when; none: a divider still ramps (R271, R371). -/
  listen : Option Nat := none
  listenAt : Option Int := none
  sawExec : Bool := false
  firstT0 : Option Int := none
  ckAt : Option Nat := none
  ckImage : Nat := 0
  ckLast : List Nat := []
  sentBytes : Nat := 0
  sentPeriod : Int := 0
  base : SMap 32 := SMap.empty
  fullNext : Bool := true
  markSwitch : Nat := 0
  outDelta : Option Delta := none
  /-- Deltas that have ended and that the standby has not acknowledged yet, oldest first (R258). -/
  unacked : List Delta := []
  inDelta : Option DeltaIn := none
  /-- Deltas in staging that began before `inDelta`, oldest first (R258). -/
  inOld : List DeltaIn := []
  /-- The words of the exchange state as the last complete checkpoint gave them (R255, R267). -/
  ckXch : SMap 32 := SMap.empty
  /-- The isolated module has committed a cycle since (R269). -/
  isoCommitted : Bool := false
  imgRx : Option (Nat × Nat × SMap 8 × Nat) := none
  hand : Handover := {}
  deriving DecidableEq, Repr

/-! ### Feger rings (R278 to R299) -/

/-- The states of a station (Table 11.8). -/
inductive StaState where
  | lost | returning | fresh | missed
  deriving DecidableEq, Repr

def StaState.code : StaState → Nat
  | .lost => 0 | .returning => 1 | .fresh => 2 | .missed => 3

/-- An uplink segment as received: index, valid, payload words (R284). -/
structure UpSeg where
  index : Nat
  valid : Bool
  words : List Word
  deriving DecidableEq, Repr

/-- A good uplink copy: receive timestamp, status byte, segments. -/
structure UpCopy where
  ts : Int
  status : Byte
  segs : List UpSeg
  deriving DecidableEq, Repr

/-- A station record's state (R292, R293, FGR_STA_s): bound address, good uplinks in a row while RETURNING, identity matched, the copy
taken in the present interval (receive timestamp, status, segments), uplinks heard in this interval and the last whether taken or refused, a
RETURNING entered in this interval, what is seen of conflict cases, the last segments taken, and the raw instant of the last IDENTIFY. -/
structure Station where
  st : StaState := .lost
  missing : Nat := 0
  stStatus : Byte := 0
  conflict : Bool := false
  conflictNow : Bool := false
  clean : Nat := 0
  badA : Bool := false
  badB : Bool := false
  idMismatch : Bool := false
  stale : Bool := false
  viaA : Bool := false
  viaB : Bool := false
  seenA : Bool := false
  seenB : Bool := false
  src : Option Nat := none
  goods : Nat := 0
  idOk : Bool := false
  identAt : Option Nat := none
  got : Option UpCopy := none
  heard : Bool := false
  heardLast : Bool := false
  entered : Bool := false
  segs : List UpSeg := []
  good : Bool := false
  holdFrom : Option Int := none
  deriving DecidableEq, Repr

/-- A downlink segment: payload last sent or to be sent, and whether it is fresh in the present set. -/
structure DlSeg where
  data : List Byte := []
  fresh : Bool := false
  deriving DecidableEq, Repr

/-- The Feger unit: links, stations, downlink segments, the header of the present set and its frames sent (ring, frame), the image and segments
of a set committed before a delta switch (R218), class E frames of the module's own that wait on a port (R296), ring Crickets out and returned,
PARAM tags sent and recent deliveries, old uplink slots in force until an instant (R295), and the stations and station_lost alarms as they stood
before the last interval end, for an uplink that was still in a crossing then (R63). -/
structure Feger where
  link : Vector Bool 12 := Vector.replicate 12 false
  sta : Tab Station := []
  segs : Tab DlSeg := []
  cycle : Nat := 0
  release : Int := 0
  relMid : Int := 0
  relSlow : Int := 0
  safeSet : Bool := false
  haveSet : Bool := false
  sent : List (Nat × Nat) := []
  oldSet : Option (Image × Tab DlSeg) := none
  urgent : List (Nat × List Byte) := []
  crkOut : BitVec 6 := 0
  crkBack : BitVec 12 := 0
  returned : BitVec 12 := 0
  closed : BitVec 6 := 0
  tags : List (Nat × Nat × Nat) := []
  recent : List (Nat × Nat × Nat × Nat) := []
  oldSlots : Option (Int × Image) := none
  ptpLast : Tab Nat := []
  rings : Nat := 0
  before : Option (Int × Tab Station × BitVec 6) := none
  deriving DecidableEq, Repr

/-! ### Configuration transactions and exchange (R45 to R54, R206 to R225) -/

/-- The states of a transaction (Table 2.11). -/
inductive TxnState where
  | idle | opened | verifying | verified | pending | failed
  deriving DecidableEq, Repr

def TxnState.code : TxnState → Nat
  | .idle => 0 | .opened => 1 | .verifying => 2 | .verified => 3 | .pending => 4 | .failed => 5

/-- A configuration transaction of a master: state, staged registers, flags of CTU_STATUS, the boundary of its COMMIT with the instant
of the command, the last instant that the 5 s of R54 count from, and what verification found: the image, the recorder roots, whether it is a
delta, its Migration Map and the t_SW of its switch and of the switch back; `ran` tells that a VERIFY has been made (R48). -/
structure Txn where
  st : TxnState := .idle
  staged : Tab Word := []
  conflict : Bool := false
  overflow : Bool := false
  image : Bool := false
  aborted : Bool := false
  boundary : Nat := 0
  latch : Int := 0
  lastC : Nat := 0
  cand : Option Image := none
  roots : List Nat := []
  delta : Bool := false
  map : List Nat := []
  tsw : Nat := 0
  tBack : Nat := 0
  ran : Bool := false
  deriving DecidableEq, Repr

/-- The states of an exchange (Table 8.1). -/
inductive XchState where
  | none | pending | unconfirmed | reverting | archiving
  deriving DecidableEq, Repr

def XchState.code : XchState → Nat
  | .none => 0 | .pending => 1 | .unconfirmed => 2 | .reverting => 3 | .archiving => 4

/-- The online exchange: state, the replaced image, the Migration Map, a REVERT waiting (master, if it was given here, and instant), passed-over
T0, the image_id that R214 keeps a copy for, the container of the replaced image, t_SW of the switch back. -/
structure Xch where
  st : XchState := .none
  base : Image := {}
  map : List Nat := []
  revert : Option (Option Master × Int) := none
  deferrals : Nat := 0
  keepBase : Nat := 0
  cont : List Byte := []
  tBack : Nat := 0
  deriving DecidableEq, Repr

/-! ### Retentive set (R135 to R139) -/

/-- A capture of the retentive set: reason, image, data, the three T0 fields of its header, operating hours. -/
structure Capture where
  reason : Nat
  image : Nat
  data : List Byte
  t0s : List Byte
  hours : Nat
  deriving DecidableEq, Repr

/-- The write in progress: the base of its copy and the header that goes in last; a capture that waits for its end; a START that waits
(R138); the restored T0 of each class until its first cycle (R139), and until its first commit (Table 5.8); the number of the last write begun
(R136). -/
structure Retain where
  writing : Option (Nat × List Byte) := none
  pend : Option Capture := none
  startWaits : Bool := false
  t0s : PerCls (Option Int) := PerCls.all none
  baseT0s : PerCls (Option Int) := PerCls.all none
  seq : Nat := 0
  deriving DecidableEq, Repr


/-! ### Security, access rules and debug (R403 to R421) -/

/-- The debug port: state (0 CLOSED, 1 CHALLENGED, 2 OPENED), opener, consecutive failures, lock, nonce and the instant it was generated, a
signature being verified, frozen and halted units, the result of the last DACC access, the bypass register, the boundary-scan cells, what was
last shifted out of the port, and what drives the pins in EXTEST and INTEST. -/
structure Debug where
  st : Nat := 0
  openedBy : Nat := 0
  fails : Nat := 0
  lockAt : Option Nat := none
  nonceAt : Option Nat := none
  nonce : List Byte := []
  verifying : Bool := false
  frozen : Bool := false
  mc0 : Bool := false
  mc1 : Bool := false
  resultStatus : Nat := 0
  resultData : Word := 0
  bypassBit : Bool := false
  cells : List Bool := []
  scanOut : List Bool := []
  driven : Option (List Bool) := none
  deriving DecidableEq, Repr

/-- Fuse copies (R413) and the rule epoch: number, and the masters whose transactions wait for accesses of the old epoch (R411). -/
structure Art where
  fuse0 : Word := 0
  fuse1 : Word := 0
  epoch : Nat := 0
  draining : Bool := false
  waiting : List Master := []
  deriving DecidableEq, Repr

/-! ### Service port, update and self-test (R422 to R442) -/

/-- A service session: identity, client address, nonce, proven, the last good request, the last answer with its sequence. -/
structure Session where
  id : Word
  ip : Word
  nonce : List Byte
  proven : Bool
  lastC : Nat
  last : Option (Word × List Byte)
  deriving DecidableEq, Repr

/-- The service port: link, address and the addresses that conflicts have used up, the session, consecutive failed PROVE, lock. -/
structure Service where
  link : Bool := false
  addrOk : Bool := false
  tries : Nat := 0
  session : Option Session := none
  fails : Nat := 0
  lockAt : Option Nat := none
  deriving DecidableEq, Repr

/-- An Archive slot: manifest, blocks with their CRC by number, trailer. -/
structure ArchSlot where
  manifest : List Byte := []
  blocks : Tab (List Byte) := []
  trailer : List Byte := []
  deriving DecidableEq, Repr

/-- A download: kind, slot, and the parts received of each block by block number and offset. -/
structure Download where
  image : Bool
  slot : Fin 4
  parts : Tab (Tab (List Byte)) := []
  deriving DecidableEq, Repr

/-- Firmware update: Archive slots FW-A, FW-B, SI-A, SI-B, the open download, the slot of the last command, a VERIFY in progress with its
master, the operating seconds at which the present firmware began to count, the running firmware's slot and version, and whether its own checks
passed. -/
structure Update where
  slots : Vector ArchSlot 4 := Vector.replicate 4 {}
  dl : Option Download := none
  target : Nat := 0
  fail : Nat := 0
  verifying : Option (Master × Fin 4) := none
  total : Nat := 0
  done : Nat := 0
  unconfS : Nat := 0
  version : Word := 0
  fwSlot : Nat := 0
  checksOk : Bool := false
  deriving DecidableEq, Repr

/-- A Scarab run: the test running and the tests after it. -/
structure Scarab where
  test : Nat
  later : List Nat
  deriving DecidableEq, Repr

/-! ### The machine -/

/-- The state of the module. -/
structure State where
  /-- The commands that are waiting, first in, first out. -/
  pending : List Instr := []
  /-- The module is held in reset, or its logic has no power (R369, R380, R382). -/
  held : Bool := true
  /-- The registers, each as its difference from its reset value (R6); a per-master copy lies 2 ^ 32 × (master + 1) higher. -/
  regs : SMap 32 := SMap.empty
  mode : Mode := .boot
  prev : Mode := .boot
  cause : Cause := .powerUp
  /-- The slot strap: SECONDARY. -/
  strap : Bool := false
  time : TimeUnit := {}
  io : LocalIo := {}
  cls : PerCls ClassRun := PerCls.all {}
  /-- The FAST commit last made, and the instant from which the engine has executed. -/
  lastOc : Option Int := none
  clk : Clocks := {}
  pwr : Power := {}
  rtc : Rtc := {}
  rcd : Recorder := {}
  /-- The running image. -/
  img : Image := {}
  /-- The container that the running image was loaded from; empty where a delta has made it. -/
  container : List Byte := []
  /-- The module is owner (R76, R77), and it is isolated (R269). -/
  owner : Bool := false
  isolated : Bool := false
  /-- The bytes of the Central Store outside the tables that the window computes (notes/assumptions/5.md). -/
  store : SMap 8 := SMap.empty
  /-- Words of the Central Store with an ECC error: 1 single-bit, 2 double-bit, by 64-bit word (R10). -/
  ecc : SMap 2 := SMap.empty
  /-- The bytes of the DDR, by offset from 0x8000_0000 (R26), and its words with an ECC error, as in `ecc`. -/
  ddr : SMap 8 := SMap.empty
  ddrEcc : SMap 2 := SMap.empty
  /-- The next line the scrubber reads (R11). -/
  scrub : Nat := 0
  can : Vector CanCh 16 := Vector.replicate 16 {}
  /-- The newest frames of the CAN receive messages, by message record. -/
  canRx : Tab CanRx := []
  /-- Frames sent, newest first. -/
  out : List OutMsg := []
  que : Vector Queue 128 := Vector.replicate 128 {}
  prog : Prog := {}
  lse : Lse := {}
  /-- The words that recorder sources named when the running image was verified (R394). -/
  recRoots : List Nat := []
  /-- PAR_OFF as the last OR of the module left it (R269, R353), and outputs that stay as released until the OR that follows a handover or
  a STOP (R80, R274). -/
  parHeld : Bool := true
  untilOr : Bool := false
  lane : LaneSt := {}
  sysPend : Option SysPend := none
  red : Red := {}
  fgr : Feger := {}
  txn : PerMaster Txn := PerMaster.all {}
  xch : Xch := {}
  retain : Retain := {}
  /-- The LSE as the last FAST commit took it (R255). -/
  cLse : Lse := {}
  /-- The bytes of Ballast. -/
  ballast : SMap 8 := SMap.empty
  bal : BallastRec := {}
  /-- The captures of R145: key of the high register or word for a master, and the captured word. -/
  hiCap : List (Nat × Word) := []
  /-- The answer to the last access. -/
  resp : Resp := .none
  /-- Interrupts raised: RTC (R389), queue (Table 1.8), ART (R409). -/
  irqQueue : Bool := false
  irqArt : Bool := false
  dbg : Debug := {}
  art : Art := {}
  svc : Service := {}
  upd : Update := {}
  bist : Option Scarab := none
  /-- How many free values have been taken. -/
  freeCtr : Nat := 0
  deriving DecidableEq, Repr

/-- Why the machine stops with a fault. -/
inductive Fault where
  /-- R373, raised by a divider ramp step: "no defined behaviour" of a clock ratio. Safe: the model stops. -/
  | clockRatioUndefined
  deriving DecidableEq, Repr

/-- Why a command has no meaning. -/
inductive Refusal where
  /-- The command has no meaning yet; raised by its arm of `exec`. Safe: the model stops. -/
  | notModelled (mnemonic : String)
  deriving DecidableEq, Repr

/-- The module as State holds it before power-up: every register at its reset value (R6), no image, nothing in the stores. -/
def State.reset : State := {}

end Sys2Proof.Machine
end

