-- ==== Sys2Proof/Machine/Ops.lean ====
section
/-!
DEFINITION. The named operations that every meaning uses: fields of registers, the register store, byte and word
accesses to the Central Store and Ballast, time, the recorder's queue, and the state predicates of Table 3.3.
-/
namespace Sys2Proof

/-- Bits of a word, as a number. -/
def Fld.get (f : Fld) (w : Word) : Nat := (w >>> f.lo).toNat % 2 ^ f.w

/-- The word with a field replaced. -/
def Fld.put (f : Fld) (w : Word) (v : Nat) : Word :=
  (w &&& ~~~(BitVec.ofNat 32 ((2 ^ f.w - 1) <<< f.lo))) ||| BitVec.ofNat 32 ((v % 2 ^ f.w) <<< f.lo)

/-- A field as a number in its place, for words built from fields. -/
def Fld.mk' (f : Fld) (v : Nat) : Word := BitVec.ofNat 32 ((v % 2 ^ f.w) <<< f.lo)

namespace Machine

/-! ### Numbers and bytes -/

def b2n (b : Bool) : Nat := if b then 1 else 0

/-- A number put into an ascending list, before the first that is not below it. -/
def insertNat (x : Nat) : List Nat → List Nat
  | [] => [x]
  | y :: l => if x ≤ y then x :: y :: l else y :: insertNat x l

/-- A list of numbers in ascending order. -/
def sortNats (l : List Nat) : List Nat := l.foldr insertNat []

/-- Bits `lo` to `lo + w - 1` of a number. -/
def bits (n lo w : Nat) : Nat := (n >>> lo) % 2 ^ w

/-- Bit `i` of a number. -/
def bit (n i : Nat) : Bool := n.testBit i

/-- The number that little-endian bytes spell. -/
def leNat : List Byte → Nat
  | [] => 0
  | b :: l => b.toNat + 256 * leNat l

/-- `n` bytes of a number, little-endian. -/
def leBytes : Nat → Nat → List Byte
  | 0, _ => []
  | n + 1, v => BitVec.ofNat 8 v :: leBytes n (v / 256)

/-- The number that big-endian bytes spell. -/
def beNat (l : List Byte) : Nat := leNat l.reverse

/-- `n` bytes of a number, big-endian. -/
def beBytes (n v : Nat) : List Byte := (leBytes n v).reverse

/-- A number as a signed number of `w` bits. -/
def sgn (w n : Nat) : Int := (BitVec.ofNat w n).toInt

/-- The `w` bits of an integer, as a number (two's complement). -/
def unsgn (w : Nat) (x : Int) : Nat := (BitVec.ofInt w x).toNat

/-- Bytes `off` to `off + n - 1` of a list. -/
def slice {α : Type} (l : List α) (off n : Nat) : List α := (l.drop off).take n

/-- CRC-32C (Table 0.6), one bit step of the reflected register. -/
def crcBit (r : Word) : Word := if r.getLsbD 0 then (r >>> 1) ^^^ 0x82F63B78 else r >>> 1

/-- One byte of CRC-32C. -/
def crcByte (r : Word) (b : Byte) : Word :=
  crcBit (crcBit (crcBit (crcBit (crcBit (crcBit (crcBit (crcBit (r ^^^ b.setWidth 32))))))))

/-- CRC-32C of a byte string: polynomial 0x1EDC_6F41 reflected, initial value and final XOR 0xFFFF_FFFF (Table 0.6). -/
def crc32c (l : List Byte) : Word := ~~~(l.foldl crcByte 0xFFFFFFFF)

/-! ### The register store -/

/-- The key of a master's own copy of a register. -/
def pm (m : Master) (a : Nat) : Nat := a + 0x100000000 * (m.code + 1)

/-- The stored value of a register. -/
def getR (s : State) (a : Nat) : Word := s.regs.get a ^^^ Reg.resetValue (a % 0x100000000)

/-- The state with a register's stored value replaced. -/
def setR (s : State) (a : Nat) (v : Word) : State :=
  { s with regs := s.regs.put a (v ^^^ Reg.resetValue (a % 0x100000000)) }

def getF (s : State) (a : Nat) (f : Fld) : Nat := f.get (getR s a)

def setF (s : State) (a : Nat) (f : Fld) (v : Nat) : State := setR s a (f.put (getR s a) v)

/-- A one-bit field. -/
def flag (s : State) (a : Nat) (f : Fld) : Bool := getF s a f == 1

def setB (s : State) (a : Nat) (f : Fld) (b : Bool) : State := setF s a f (b2n b)

/-- A counter field that saturates at its largest value, raised by `n`. -/
def satAdd (s : State) (a : Nat) (f : Fld) (n : Nat) : State := setF s a f (min (getF s a f + n) (2 ^ f.w - 1))

/-- A counter field that wraps, raised by `n`. -/
def wrapAdd (s : State) (a : Nat) (f : Fld) (n : Nat) : State := setF s a f (getF s a f + n)

/-! ### Bytes of the Central Store and of Ballast -/

def ldBytes (m : SMap 8) (a n : Nat) : List Byte := m.getList a n

def ld (m : SMap 8) (a n : Nat) : Nat := leNat (ldBytes m a n)

def stBytes (m : SMap 8) (a : Nat) (l : List Byte) : SMap 8 := m.putList a l

def st (m : SMap 8) (a n v : Nat) : SMap 8 := stBytes m a (leBytes n v)

/-! ### Time -/

/-- Nominal TIME ticks in `n` microseconds, milliseconds, seconds (R300: 4 ns a tick). -/
def usT (n : Nat) : Nat := 250 * n
def msT (n : Nat) : Nat := 250000 * n
def secT (n : Nat) : Nat := 250000000 * n

/-- A(C) at a counter value (R300). -/
def TimeUnit.a (t : TimeUnit) (c : Nat) : Nat := t.ab + (c - t.cb) * t.inc

/-- Local time at a counter value: off + floor(A(C) / 2^40), as a signed 64-bit number (R300). -/
def TimeUnit.localAt (t : TimeUnit) (c : Nat) : Int := (t.off + BitVec.ofNat 64 (t.a c / 2 ^ 40)).toInt

/-- Local time now. -/
def now (s : State) : Int := s.time.localAt s.time.c

/-- The raw counter moves to the instant of a command; it never moves back. -/
def tick (t : Nat) (s : State) : State := { s with time := { s.time with c := max s.time.c t } }

/-- Has at least `d` ticks passed since a raw counter value? -/
def sinceAtLeast (s : State) (x : Option Nat) (d : Nat) : Bool :=
  match x with
  | some c => decide (c + d ≤ s.time.c)
  | none => false

/-- Start a "held since" timer while its condition holds, and clear it when it does not. -/
def since (cond : Bool) (x : Option Nat) (c : Nat) : Option Nat :=
  if cond then some (x.getD c) else none

/-- The first multiple of `p` at or after `x` (`p` positive). -/
def gridUp (p : Nat) (x : Int) : Int := (p : Int) * (-(-x / (p : Int)))

/-! ### Module state -/

/-- The engine executes in ACTIVE and SOLO (Table 3.3). -/
def executing (s : State) : Bool := s.mode == .active || s.mode == .solo

/-- Local outputs are off in every state but ACTIVE, SOLO and SAFE (Table 3.3). -/
def Mode.outputsOff : Mode → Bool
  | .active => false | .solo => false | .safe => false
  | .boot => true | .hold => true | .standby => true | .detached => true | .service => true

/-! ### The running image -/

/-- The records of a part of an image; a part that the image does not hold has none (R31). -/
def Image.recs (g : Image) (typ part : Nat) : List Nat :=
  match g.parts.find? (fun p => p.typ == typ && p.part == part) with
  | some p => p.recs
  | none => []

/-- `n` bytes from byte `off` of a record, as a number. -/
def fld (r off n : Nat) : Nat := bits r (8 * off) (8 * n)

/-- The CLASSES record of a class (R32). -/
def Image.clsRec (g : Image) (k : Nat) : Option Nat := (g.recs 0x01 0).find? (fun r => fld r 0 1 == k)

def Image.hasCls (g : Image) (k : Nat) : Bool := (g.clsRec k).isSome

/-- The period of a class in ticks; 0 for BACKGROUND and for an absent class. -/
def Image.ticks (g : Image) (k : Nat) : Nat := ((g.clsRec k).map (fld · 2 2)).getD 0

/-- The period of a class in ns (R59). -/
def Image.period (g : Image) (k : Nat) : Nat := 31250 * g.ticks k

/-- The release offset of a class in ns (R69). -/
def Image.relofs (g : Image) (k : Nat) : Nat := ((g.clsRec k).map (fld · 4 4)).getD 0

def loaded (s : State) : Bool := s.img.id != 0

/-! ### The recorder's queue (R397) -/

/-- Room in Q61 for updates (notes/assumptions/12.md). -/
def recCap : Nat := 4096

/-- Post an update to the recorder; a full Q61 refuses it. -/
def recPost (s : State) (u : RecUpd) : State :=
  if s.rcd.queue.length < recCap then { s with rcd := { s.rcd with queue := s.rcd.queue ++ [u] } } else s

/-- Post an event of Table 16.3. -/
def recEvent (s : State) (code param sev : Nat) : State := recPost s (.event code param sev)

/-- The histograms whose source is `src` (R393), from the written REC_H_CFG registers (their reset value is 0, off). -/
def histsOf (s : State) (src : Nat) : List Nat :=
  (s.regs.cells.filter fun c =>
    Reg.inRow c.1 (Reg.REC_H_CFG 0) 0x10 256 && Reg.REC_H_CFG_src.get c.2 == src).map fun c => (c.1 - Reg.REC_H_CFG 0) / 0x10

/-- Post a value of a source to every histogram that takes it (R393). -/
def recSample (s : State) (src : Nat) (x : Int) : State :=
  (histsOf s src).foldl (fun s h => recPost s (.sample h x)) s

/-! ### Layout of the Central Store (Table 1.4, notes/assumptions/5.md) -/

def blockTableBase : Nat := 0x0000000
def slotBase : Nat := 0x0200000
def paramBase : Nat := 0x0300000
def imageBase : Nat := 0x0500000
def qualityBase : Nat := 0x0580000
def camBase : Nat := 0x05A0000
def smtBase : Nat := 0x06A0000
def chainBase : Nat := smtBase + 0x84000
def queueBase : Nat := 0x0740000
def ckptBase : Nat := 0x1340000
def recBase : Nat := 0x1740000
def freeBase : Nat := 0x1840000
def storeSize : Nat := 0x2000000

/-! ### Commands of the command registers (R79) -/

/-- The outcome of a command, in a status register of the layout of SYS_CMD_STATUS, in the master's own copy. -/
def cmdDone (s : State) (m : Master) (reg cmd status : Nat) : State :=
  setR s (pm m reg) (Reg.SYS_CMD_STATUS_cmd.mk' cmd ||| Reg.SYS_CMD_STATUS_state.mk' s.mode.code ||| Reg.SYS_CMD_STATUS_status.mk' status)

/-- A command refused by the module state: REFUSED_STATE, counted by the recorder with the command register's address (Table 16.3). -/
def cmdRefused (s : State) (m : Master) (cmdReg reg cmd : Nat) : State :=
  recEvent (cmdDone s m reg cmd 1) 0x0001 (cmdReg % 2 ^ 24) 0

/-! ### Security state (R413) -/

/-- A fuse copy decodes as 0 OPEN, 1 SEALED or 2 RMA. -/
def fuseState (w : Word) : Nat := if w = 0 then 0 else if w = 0xFFFFFFFF then 2 else 1

/-- The security state: the higher of the two decodes. -/
def secState (s : State) : Nat := max (fuseState s.art.fuse0) (fuseState s.art.fuse1)

/-! ### Free values -/

/-- Take the number of the next free value. -/
def takeFree (s : State) : State := { s with freeCtr := s.freeCtr + 1 }

end Machine

end Sys2Proof
end

