-- ==== Sys2Proof/Machine/Ed25519.lean ====
section
/-!
DEFINITION. Ed25519 signature verification as RFC 8032 (January 2017) defines it (R8, Table 0.6, R39): SHA-512, the field of 2^255 - 19, the
twisted Edwards curve in extended coordinates, decoding of points, and the group equation of its section 5.1.7.
-/
namespace Sys2Proof.Machine

/-! ### SHA-512 -/

def sha512K0 : List (BitVec 64) :=
  [0x428A2F98D728AE22, 0x7137449123EF65CD, 0xB5C0FBCFEC4D3B2F, 0xE9B5DBA58189DBBC,
   0x3956C25BF348B538, 0x59F111F1B605D019, 0x923F82A4AF194F9B, 0xAB1C5ED5DA6D8118,
   0xD807AA98A3030242, 0x12835B0145706FBE, 0x243185BE4EE4B28C, 0x550C7DC3D5FFB4E2,
   0x72BE5D74F27B896F, 0x80DEB1FE3B1696B1, 0x9BDC06A725C71235, 0xC19BF174CF692694,
   0xE49B69C19EF14AD2, 0xEFBE4786384F25E3, 0x0FC19DC68B8CD5B5, 0x240CA1CC77AC9C65]

def sha512K1 : List (BitVec 64) :=
  [0x2DE92C6F592B0275, 0x4A7484AA6EA6E483, 0x5CB0A9DCBD41FBD4, 0x76F988DA831153B5,
   0x983E5152EE66DFAB, 0xA831C66D2DB43210, 0xB00327C898FB213F, 0xBF597FC7BEEF0EE4,
   0xC6E00BF33DA88FC2, 0xD5A79147930AA725, 0x06CA6351E003826F, 0x142929670A0E6E70,
   0x27B70A8546D22FFC, 0x2E1B21385C26C926, 0x4D2C6DFC5AC42AED, 0x53380D139D95B3DF,
   0x650A73548BAF63DE, 0x766A0ABB3C77B2A8, 0x81C2C92E47EDAEE6, 0x92722C851482353B]

def sha512K2 : List (BitVec 64) :=
  [0xA2BFE8A14CF10364, 0xA81A664BBC423001, 0xC24B8B70D0F89791, 0xC76C51A30654BE30,
   0xD192E819D6EF5218, 0xD69906245565A910, 0xF40E35855771202A, 0x106AA07032BBD1B8,
   0x19A4C116B8D2D0C8, 0x1E376C085141AB53, 0x2748774CDF8EEB99, 0x34B0BCB5E19B48A8,
   0x391C0CB3C5C95A63, 0x4ED8AA4AE3418ACB, 0x5B9CCA4F7763E373, 0x682E6FF3D6B2B8A3,
   0x748F82EE5DEFB2FC, 0x78A5636F43172F60, 0x84C87814A1F0AB72, 0x8CC702081A6439EC]

def sha512K3 : List (BitVec 64) :=
  [0x90BEFFFA23631E28, 0xA4506CEBDE82BDE9, 0xBEF9A3F7B2C67915, 0xC67178F2E372532B,
   0xCA273ECEEA26619C, 0xD186B8C721C0C207, 0xEADA7DD6CDE0EB1E, 0xF57D4F7FEE6ED178,
   0x06F067AA72176FBA, 0x0A637DC5A2C898A6, 0x113F9804BEF90DAE, 0x1B710B35131C471B,
   0x28DB77F523047D84, 0x32CAAB7B40C72493, 0x3C9EBE0A15C9BEBC, 0x431D67C49C100D4C,
   0x4CC5D4BECB3E42B6, 0x597F299CFC657E2A, 0x5FCB6FAB3AD6FAEC, 0x6C44198C4A475817]

def sha512K : List (BitVec 64) := sha512K0 ++ sha512K1 ++ sha512K2 ++ sha512K3

/-- The eight working words of SHA-512. -/
structure Sha512 where
  a : BitVec 64
  b : BitVec 64
  c : BitVec 64
  d : BitVec 64
  e : BitVec 64
  f : BitVec 64
  g : BitVec 64
  h : BitVec 64
  deriving DecidableEq, Repr

def sha512Init : Sha512 :=
  ⟨0x6A09E667F3BCC908, 0xBB67AE8584CAA73B, 0x3C6EF372FE94F82B, 0xA54FF53A5F1D36F1,
   0x510E527FADE682D1, 0x9B05688C2B3E6C1F, 0x1F83D9ABFB41BD6B, 0x5BE0CD19137E2179⟩

/-- One round with its constant and message word. -/
def sha512Round (x : Sha512) (k w : BitVec 64) : Sha512 :=
  let s1 := x.e.rotateRight 14 ^^^ x.e.rotateRight 18 ^^^ x.e.rotateRight 41
  let t1 := x.h + s1 + ((x.e &&& x.f) ^^^ (~~~x.e &&& x.g)) + k + w
  let s0 := x.a.rotateRight 28 ^^^ x.a.rotateRight 34 ^^^ x.a.rotateRight 39
  let t2 := s0 + ((x.a &&& x.b) ^^^ (x.a &&& x.c) ^^^ (x.b &&& x.c))
  ⟨t1 + t2, x.a, x.b, x.c, x.d + t1, x.e, x.f, x.g⟩

/-- The next message word from the last sixteen, oldest first. -/
def sha512Next (w : List (BitVec 64)) : BitVec 64 :=
  let x := w.getD 14 0
  let y := w.getD 1 0
  (x.rotateRight 19 ^^^ x.rotateRight 61 ^^^ x >>> 6) + w.getD 9 0 + (y.rotateRight 1 ^^^ y.rotateRight 8 ^^^ y >>> 7) + w.getD 0 0

/-- The rounds of a block: the constants still to come, the last sixteen message words, the working words. -/
def sha512Rounds : List (BitVec 64) → List (BitVec 64) → Sha512 → Sha512
  | [], _, x => x
  | k :: ks, w, x => sha512Rounds ks (w.drop 1 ++ [sha512Next w]) (sha512Round x k (w.getD 0 0))

/-- One block of 128 bytes. -/
def sha512Block (x : Sha512) (b : List Byte) : Sha512 :=
  let w := (List.range 16).map fun i => BitVec.ofNat 64 (beNat (slice b (8 * i) 8))
  let y := sha512Rounds sha512K w x
  ⟨x.a + y.a, x.b + y.b, x.c + y.c, x.d + y.d, x.e + y.e, x.f + y.f, x.g + y.g, x.h + y.h⟩

/-- SHA-512 of a byte string. -/
def sha512 (m : List Byte) : List Byte :=
  let m' := m ++ [0x80] ++ List.replicate ((239 - m.length % 128) % 128) 0 ++ beBytes 16 (8 * m.length)
  let x := (List.range (m'.length / 128)).foldl (fun x i => sha512Block x (slice m' (128 * i) 128)) sha512Init
  [x.a, x.b, x.c, x.d, x.e, x.f, x.g, x.h].flatMap fun w => beBytes 8 w.toNat

/-! ### The field and the curve -/

/-- The prime 2^255 - 19, the order L of the base point, and the curve constant d. -/
def edP : Nat := 2 ^ 255 - 19
def edL : Nat := 2 ^ 252 + 27742317777372353535851937790883648493
def edD : Nat := 37095705934669439343138083508754565189542113879843219016388785533085940283555

/-- x to the power n modulo p, over at most `fuel` bits of n. -/
def edPow : Nat → Nat → Nat → Nat
  | 0, _, _ => 1
  | fuel + 1, x, n => if n = 0 then 1 else (if n % 2 = 1 then x else 1) * edPow fuel (x * x % edP) (n / 2) % edP

/-- A point in extended coordinates. -/
structure EdPoint where
  x : Nat
  y : Nat
  z : Nat
  t : Nat
  deriving DecidableEq, Repr

def edZero : EdPoint := ⟨0, 1, 1, 0⟩

def edBase : EdPoint :=
  let x := 15112221349535400772501151409588531511454012693041857206046113283949847762202
  let y := 46316835694926478169428394003475163141307993866256225615783033603165251855960
  ⟨x, y, 1, x * y % edP⟩

/-- The sum of two points (RFC 8032, 5.1.4). -/
def edAdd (p q : EdPoint) : EdPoint :=
  let a := (p.y + edP - p.x) * (q.y + edP - q.x) % edP
  let b := (p.y + p.x) * (q.y + q.x) % edP
  let c := p.t * 2 * edD % edP * q.t % edP
  let d := p.z * 2 * q.z % edP
  let e := b + edP - a
  let f := d + edP - c
  let g := d + c
  let h := b + a
  ⟨e * f % edP, g * h % edP, f * g % edP, e * h % edP⟩

/-- n times a point, over at most `fuel` bits of n. -/
def edMul : Nat → Nat → EdPoint → EdPoint
  | 0, _, _ => edZero
  | fuel + 1, n, p =>
    if n = 0 then edZero
    else
      let r := edMul fuel (n / 2) (edAdd p p)
      if n % 2 = 1 then edAdd p r else r

/-- The same point: cross products of projective coordinates. -/
def edSame (p q : EdPoint) : Bool := p.x * q.z % edP == q.x * p.z % edP && p.y * q.z % edP == q.y * p.z % edP

/-- The point that 32 bytes spell (RFC 8032, 5.1.3); none where they spell none. -/
def edDecode (b : List Byte) : Option EdPoint :=
  let n := leNat b
  let y := n % 2 ^ 255
  let sign := n / 2 ^ 255
  if b.length ≠ 32 ∨ edP ≤ y then none
  else
    let u := (y * y + edP - 1) % edP
    let v := (edD * y % edP * y + 1) % edP
    let v3 := v * v % edP * v % edP
    let x := u * v3 % edP * edPow 255 (u * (v3 * v3 % edP * v % edP) % edP) ((edP - 5) / 8) % edP
    let w := v * x % edP * x % edP
    let root := if w = u then some x else if w = (edP - u) % edP then some (x * edPow 255 2 ((edP - 1) / 4) % edP) else none
    match root with
    | none => none
    | some x =>
      if x = 0 ∧ sign = 1 then none
      else
        let x := if x % 2 = sign then x else edP - x
        some ⟨x, y, 1, x * y % edP⟩

/-- Ed25519 verification of a message's 64-byte signature under a 32-byte public key (RFC 8032, 5.1.7). -/
def ed25519 (key m sig : List Byte) : Bool :=
  let s := leNat (slice sig 32 32)
  match edDecode key, edDecode (slice sig 0 32) with
  | some a, some r =>
    let k := leNat (sha512 (slice sig 0 32 ++ key ++ m)) % edL
    sig.length == 64 && decide (s < edL) &&
      edSame (edMul 256 (8 * s) edBase) (edAdd (edMul 4 8 r) (edMul 256 (8 * k) a))
  | _, _ => false

end Sys2Proof.Machine
end

