-- ==== Sys2Proof/Config.lean ====
section
/-!
DEFINITION. What an implementation fixes and the spec leaves open, as constants without a body: nothing can evaluate them,
and every statement about them holds whatever they are. Each is named in an entry of notes/assumptions.
-/
namespace Sys2Proof.Config

/-- The base, width and source words of the default configuration of histogram `h` (offset 0, 4 or 8) that firmware loads at BOOT (R393). -/
opaque recDefault : Nat → Nat → Word

/-- The reason byte of a recorder flush that the `FLUSH` or `CLEAR` command starts (R398 gives none). -/
opaque recFlushReason : Byte

/-- The bytes of Table 5.8 that R398 gives no meaning for in a recorder copy (the three T0 fields). -/
opaque recHeaderT0 : Nat → Byte

/-- A byte of the Central Store that an uncorrectable read finds (R10: "returns no usable data"), by the number of the read and the Store
offset. -/
opaque freeByte : Nat → Nat → Byte

/-- The CRC that lane B's read path forms where it differs from lane A's, by lane A's (R229). -/
opaque laneCrc : BitVec 32 → BitVec 32

/-- What LANE_MM records of a value and a quality that no lane has written: the lane's that did not write under TIMEOUT, both lanes' under ECC, by
the number of the free value and the lane (R228, R231). -/
opaque laneValue : Nat → Bool → BitVec 64
opaque laneQuality : Nat → Bool → Byte

/-- The firmware keys in ROM by key_id 0xDA00_0001 and 0xDA00_0002, and the RMA key (R40, R415, R416). -/
opaque romKey : Word → List Byte
opaque rmaKey : List Byte

/-- The fresh nonces, random session identities and link-local candidates that firmware draws, by the number of the draw (R418, R422, R425). -/
opaque nonce : Nat → Nat → Byte
opaque sessionId : Nat → Word
opaque linkLocal : Nat → Word

/-- The module serial number (R422), and the manufacturer field of IDCODE, which the BSDL file gives (R417). -/
opaque serial : Nat
opaque manufacturer : BitVec 11

/-- The module's factory calibration record, by kind and place: port latencies in (0) and out (1), DIO channel delays (2), trim gain (3) and offset
(4) of the current-loop outputs (R305, R343, R357). -/
opaque calibration : Nat → Nat → Nat

/-- The receive error counter after a good frame on a channel that was at 128 or more, less 119: ISO 11898-1 leaves 119 to 127 (R336). By the number
of the free value. -/
opaque canRec : Nat → Nat

/-- The image_id that the partner runs when a pair forms or the partner begins to execute: no frame carries it (R244, R245). By the number of the
free value. -/
opaque partnerImage : Nat → BitVec 64

/-- The bits that EXTEST and INTEST capture from pins and core logic, by the number of the read and the cell (R417, R420). -/
opaque scanBit : Nat → Nat → Bool

/-- The class C demand of an image (the parts, each with type, part and records) against a budget of Table 2.10 whose demand the spec gives no
rule for: STORE by class, BUFFERS, QUEUE by queue. Arguments: the parts, the code, the unit. -/
opaque classCDemand : List (Nat × Nat × List Nat) → Nat → Nat → Nat

end Sys2Proof.Config
end

