-- ==== Sys2Proof/Machine/ImageRec.lean ====
section
/-!
DEFINITION. The records of the Structure Image as the units read them: signals, signal map entries, ports, CAN, I/O and trigger
records (Tables 2.4 to 2.7, 6.2, 12.4, 13.2, 14.7).
-/
namespace Sys2Proof.Machine

/-! ### Signals (Table 2.5) -/

/-- A run of signals. -/
structure SigRun where
  index : Nat
  typ : Nat
  retentive : Bool
  obsForce : Bool
  run : Nat
  safe : Nat
  subst : Nat
  deriving DecidableEq, Repr

/-- Image words of a signal of a type: LINT, POS and TIME have two (R140). -/
def typWords (t : Nat) : Nat := if 5 ≤ t then 2 else 1

def sigRun (r : Nat) : SigRun :=
  { index := fld r 0 4 % 2 ^ 17, typ := fld r 4 1, retentive := bit (fld r 5 1) 0, obsForce := bit (fld r 5 1) 1
    run := fld r 6 2, safe := fld r 8 8, subst := fld r 16 8 }

/-- Words that a run covers. -/
def SigRun.words (g : SigRun) : Nat := g.run * typWords g.typ

def Image.signals (g : Image) : List SigRun := (g.recs 0x02 0).map sigRun

/-- The run that holds a word. -/
def Image.sigOf (g : Image) (n : Nat) : Option SigRun :=
  g.signals.find? fun r => decide (r.index ≤ n) && decide (n < r.index + r.words)

/-- The type of the signal at a word; none outside the runs. -/
def Image.sigTyp (g : Image) (n : Nat) : Option Nat := (g.sigOf n).map (·.typ)

/-- Is the word the low word of a signal? -/
def Image.sigLow (g : Image) (n : Nat) : Bool :=
  match g.sigOf n with
  | some r => (n - r.index) % typWords r.typ == 0
  | none => false

/-- The half of a run's safe or substitute value that belongs to a word. -/
def SigRun.half (r : SigRun) (v n : Nat) : Word :=
  if typWords r.typ = 2 ∧ (n - r.index) % 2 = 1 then BitVec.ofNat 32 (v / 2 ^ 32) else BitVec.ofNat 32 v

def Image.safeWord (g : Image) (n : Nat) : Word := match g.sigOf n with
  | some r => r.half r.safe n
  | none => 0

def Image.substWord (g : Image) (n : Nat) : Word := match g.sigOf n with
  | some r => r.half r.subst n
  | none => 0

/-! ### Signal map (Table 6.2, Table 6.3) -/

structure SmtEnt where
  sig : Nat
  out : Bool
  kind : Nat
  opt : Nat
  unit : Nat
  offset : Nat
  cnt : Nat
  deriving DecidableEq, Repr

def smtEnt (r : Nat) : SmtEnt :=
  let w := fld r 0 4
  let h := fld r 6 2
  { sig := bits w 0 17, out := bit w 17, kind := bits w 20 4, opt := bits w 24 8, unit := fld r 4 2, offset := bits h 0 10
    cnt := bits h 10 6 + 1 }

/-- Image words of an element of an entry (Table 6.3). -/
def SmtEnt.width (e : SmtEnt) : Nat :=
  if e.kind = 3 ∨ e.kind = 5 ∨ e.kind = 0xC ∨ (e.kind = 0xD ∧ e.unit = 1) then 2 else 1

/-- Words that an entry covers. -/
def SmtEnt.words (e : SmtEnt) : Nat := e.cnt * e.width

def SmtEnt.covers (e : SmtEnt) (n : Nat) : Bool := decide (e.sig ≤ n) && decide (n < e.sig + e.words)

def Image.smt (g : Image) : List SmtEnt := (g.recs 0x03 0).map smtEnt
def Image.smtIn (g : Image) : List SmtEnt := g.smt.filter fun e => !e.out
def Image.smtOut (g : Image) : List SmtEnt := g.smt.filter fun e => e.out

/-- An input entry fills the word. -/
def Image.isInput (g : Image) (n : Nat) : Bool := g.smtIn.any fun e => e.covers n

/-- Elements of a DIO or AIO kind belong to unit + j (R147). -/
def SmtEnt.names (e : SmtEnt) (lo hi : Nat) : Bool := decide (e.unit < hi) && decide (lo < e.unit + e.cnt)

/-! ### Ports, CAN, I/O, triggers -/

/-- The role of a front port (Table 2.7): 0 OFF, 1 RING, 2 PTP, 3 USER; a port without a record is OFF (R35). -/
def Image.port (g : Image) (p : Nat) : Option Nat := (g.recs 0x0A 0).find? fun r => fld r 0 1 == p
def Image.role (g : Image) (p : Nat) : Nat := ((g.port p).map (fld · 1 1)).getD 0
def Image.ptp (g : Image) (p : Nat) : Nat := ((g.port p).map (fld · 2 1)).getD 0
def Image.bBudget (g : Image) (p : Nat) : Nat := ((g.port p).map (fld · 4 4)).getD 0

/-- The channel record of a CAN unit, and its mode; a unit without one is OFF (R325). -/
def Image.canRec (g : Image) (u : Nat) : Option Nat := (g.recs 0x0C 0).find? fun r => fld r 0 1 == u
def Image.canMode (g : Image) (u : Nat) : Nat := ((g.canRec u).map (fld · 1 1)).getD 0

/-- A CAN message record (Table 13.2). -/
structure CanMsg where
  id : Nat
  ide : Bool
  fdf : Bool
  brs : Bool
  unit : Nat
  tx : Bool
  len : Nat
  time : Nat
  deriving DecidableEq, Repr

def canMsg (r : Nat) : CanMsg :=
  let w := fld r 0 4
  { id := bits w 0 29, ide := bit w 29, fdf := bit w 30, brs := bit w 31, unit := fld r 4 1, tx := fld r 5 1 == 1
    len := fld r 6 1, time := fld r 8 4 }

def Image.canMsgs (g : Image) : List CanMsg := (g.recs 0x0C 1).map canMsg

/-- The transmit messages of a unit with their record numbers, in record order. -/
def Image.canTx (g : Image) (u : Nat) : List (Nat × CanMsg) :=
  ((g.canMsgs.zipIdx).map fun p => (p.2, p.1)).filter fun p => p.2.tx && p.2.unit == u

/-- A reference record (Table 13.2). -/
structure CanRef where
  prio : Nat
  cls : Nat
  ccMax : Nat
  id : Nat
  ide : Bool
  offset : Nat
  deriving DecidableEq, Repr

def Image.canRef (g : Image) (u : Nat) : Option CanRef :=
  ((g.recs 0x0C 2).find? fun r => fld r 0 1 == u).map fun r =>
    { prio := fld r 1 1, cls := fld r 2 1, ccMax := fld r 3 1, id := bits (fld r 4 4) 0 29, ide := bit (fld r 4 4) 29
      offset := fld r 8 4 }

/-- Record k of an I/O part; units beyond the count take the record of zeros (R360). -/
def Image.io (g : Image) (part k : Nat) : Nat := ((g.recs 0x0D part)[k]?).getD 0

/-- A TRIG record (Table 12.4). -/
structure TrigRec where
  trig : Nat
  target : Nat
  cls : Nat
  every : Nat
  phase : Nat
  arg : Nat
  width : Nat
  deriving DecidableEq, Repr

def trigRec (r : Nat) : TrigRec :=
  { trig := fld r 0 1, target := fld r 1 1, cls := fld r 2 1, every := fld r 3 1, phase := fld r 4 4, arg := fld r 8 4
    width := fld r 12 4 }

def Image.trigRecs (g : Image) : List TrigRec := (g.recs 0x0E 0).map trigRec

end Sys2Proof.Machine
end

