-- ==== Sys2Proof/Machine/Art.lean ====
section
/-!
DEFINITION. The Access Rule Table (R401 to R411): which rules match an access, the default map, and the record of a refusal.
-/
namespace Sys2Proof.Machine

/-- The kind of an access (ART_FAULT_INFO.kind). -/
inductive AccKind where
  | read | write | fetch | atomic
  deriving DecidableEq, Repr

def AccKind.code : AccKind → Nat
  | .read => 1 | .write => 2 | .fetch => 3 | .atomic => 4

/-- The privilege of an access as the ART sees it: 0 M, 1 S, 2 U, 3 none (R402). -/
def privCode (m : Master) (p : Priv) : Nat :=
  match m, p with
  | .mc0, .machine => 0 | .mc1, .machine => 0
  | .mc0, .supervisor => 1 | .mc1, .supervisor => 1
  | .mc0, .user => 2 | .mc1, .user => 2
  | _, _ => 3

/-- The enabled rules with their attributes, in ascending order. -/
def enabledRules (s : State) : List (Nat × Word) :=
  (s.regs.cells.filter fun c => Reg.inRow c.1 (Reg.ART_ATTR 0) 0x10 256 && Reg.ART_ATTR_enable.get c.2 == 1).map fun c =>
    ((c.1 - Reg.ART_ATTR 0) / 0x10, c.2)

/-- A rule covers every byte of an access. -/
def ruleCovers (s : State) (r addr n : Nat) : Bool :=
  let b := (getR s (Reg.ART_BASE r)).toNat
  decide (b ≤ addr) && decide (addr + n ≤ b + (getR s (Reg.ART_SIZE r)).toNat)

/-- The rules that match an access by the master of a set bit, with a privilege (R403). -/
def ruleMatch (s : State) (setBit priv addr n : Nat) : List (Nat × Word) :=
  (enabledRules s).filter fun p =>
    ruleCovers s p.1 addr n && (getR s (Reg.ART_MASTERS p.1)).getLsbD setBit && (priv == 3 || p.2.getLsbD (4 + priv))

/-- The rights of a matched rule hold: a fetch needs x, an atomic access r and w. -/
def ruleAllows (k : AccKind) (attr : Word) : Bool :=
  match k with
  | .read => Reg.ART_ATTR_r.get attr == 1
  | .write => Reg.ART_ATTR_w.get attr == 1
  | .fetch => Reg.ART_ATTR_x.get attr == 1
  | .atomic => Reg.ART_ATTR_r.get attr == 1 && Reg.ART_ATTR_w.get attr == 1

/-- Addresses of the Module Register Space that S mode does not reach: SYS, ART, SEC and DBG, CTU, Ballast (Table 17.2). -/
def closedToS (addr : Nat) : Bool :=
  let blk := addr / 0x10000
  blk == 0 || blk == 4 || blk == 5 || blk == 3 || (decide (0x08000000 ≤ addr) && decide (addr < 0x09000000))

/-- What a closed debug port reaches: DBG_CTRL, DBG_STATUS, DBG_NONCE, DBG_RESP (Table 17.2). -/
def openToClosedDebug (addr : Nat) : Bool :=
  addr == Reg.DBG_CTRL || addr == Reg.DBG_STATUS || Reg.inRow addr (Reg.DBG_NONCE 0) 4 4 || Reg.inRow addr (Reg.DBG_RESP 0) 4 16

/-- The default map (Table 17.2) for the masters of the Module Register Space and the DDR. -/
def defaultAllows (s : State) (m : Master) (priv addr : Nat) : Bool :=
  match m with
  | .mc0 | .mc1 => priv == 0 || (priv == 1 && !closedToS addr)
  | .debug => s.dbg.st == 2 || openToClosedDebug addr
  | .service | .tether => false

/-- The ART's answer: allowed, or refused with the rule matched (none: the default map) and a second matching rule. -/
inductive Verdict where
  | allowed
  | refused (rule : Option Nat) (second : Option Nat)
  deriving DecidableEq, Repr

/-- The judgement of an access from the rules that match it (R403, R407, R410). -/
def judge (k : AccKind) (dflt : Bool) : List (Nat × Word) → Verdict
  | [] => if dflt then .allowed else .refused none none
  | [r] => if ruleAllows k r.2 then .allowed else .refused (some r.1) none
  | r :: q :: _ => .refused (some r.1) (some q.1)

/-- SYS_HW_FAULT: an access found two matching rules (R410). -/
def recordHw (code a b : Nat) (s : State) : State :=
  if flag s Reg.SYS_HW_FAULT Reg.SYS_HW_FAULT_valid then satAdd s Reg.SYS_HW_FAULT Reg.SYS_HW_FAULT_count 1
  else setR s Reg.SYS_HW_FAULT (Reg.SYS_HW_FAULT_valid.mk' 1 ||| Reg.SYS_HW_FAULT_master.mk' code ||| Reg.SYS_HW_FAULT_rule_b.mk' b |||
    Reg.SYS_HW_FAULT_rule_a.mk' a ||| Reg.SYS_HW_FAULT_count.mk' 1)

/-- The record of two matching rules, where there were two. -/
def recordSecond (code : Nat) (rule second : Option Nat) (s : State) : State :=
  match rule, second with
  | some a, some b => recordHw code a b s
  | _, _ => s

/-- A precise refusal (R408). -/
def recordRefusal (code priv : Nat) (k : AccKind) (rule second : Option Nat) (addr : Nat) (s : State) : State :=
  let s := satAdd s Reg.ART_REFUSED Reg.ART_REFUSED_precise 1
  let s :=
    if flag s Reg.ART_FAULT_INFO Reg.ART_FAULT_INFO_valid then satAdd s Reg.ART_FAULT_INFO Reg.ART_FAULT_INFO_count 1
    else
      let s := setR s Reg.ART_FAULT_INFO (Reg.ART_FAULT_INFO_valid.mk' 1 ||| Reg.ART_FAULT_INFO_master.mk' code |||
        Reg.ART_FAULT_INFO_nomatch.mk' (b2n rule.isNone) ||| Reg.ART_FAULT_INFO_priv.mk' priv ||| Reg.ART_FAULT_INFO_kind.mk' k.code |||
        Reg.ART_FAULT_INFO_rule.mk' (rule.getD 0) ||| Reg.ART_FAULT_INFO_count.mk' 1)
      setR s Reg.ART_FAULT_ADDR (BitVec.ofNat 32 addr)
  recordSecond code rule second s

/-- A refused posted store: a notice and the ART interrupt (R409). A store during draining is checked under the new epoch (R411). -/
def recordPosted (code : Nat) (rule second : Option Nat) (s : State) : State :=
  let s := satAdd { s with irqArt := true } Reg.ART_REFUSED Reg.ART_REFUSED_posted 1
  let s :=
    if flag s Reg.ART_NOTICE Reg.ART_NOTICE_valid then satAdd s Reg.ART_NOTICE Reg.ART_NOTICE_count 1
    else setR s Reg.ART_NOTICE (Reg.ART_NOTICE_valid.mk' 1 ||| Reg.ART_NOTICE_master.mk' code ||| Reg.ART_NOTICE_count.mk' 1 |||
      Reg.ART_NOTICE_epoch.mk' ((s.art.epoch + b2n s.art.draining) % 65536))
  recordSecond code rule second s

/-! ### Containers that no master writes (R48) -/

/-- The masters that hold transactions. -/
def masters : List Master := [.mc0, .mc1, .service, .debug, .tether]

/-- The Store range of a transaction's container (R48). -/
def txnRange (s : State) (x : Txn) : Nat × Nat :=
  (((Tab.get? x.staged Reg.CTU_IMAGE_BASE).getD (getR s Reg.CTU_IMAGE_BASE)).toNat,
   ((Tab.get? x.staged Reg.CTU_IMAGE_LEN).getD (getR s Reg.CTU_IMAGE_LEN)).toNat)

/-- A Store write of `n` bytes meets the container of a transaction from its `VERIFY` until commit or rollback (R48). -/
def storeLocked (s : State) (off n : Nat) : Bool :=
  masters.any fun m =>
    let x := s.txn.get m
    let r := txnRange s x
    x.ran && x.st != .idle && decide (off < r.1 + r.2) && decide (r.1 < off + n)

/-! ### The hardware's own accesses to the Store (Table 17.1, codes 0x05 to 0x33) -/

/-- The base of the Central Store window. -/
def storeWin : Nat := 0x10000000

/-- An access by a unit of the hardware to `n` bytes of the Store: refused or not. The default map allows it. -/
def unitRefused (s : State) (setBit : Nat) (k : AccKind) (off n : Nat) : Bool :=
  judge k true (ruleMatch s setBit 3 (storeWin + off) n) != .allowed

/-- An enabled rule names the master of a set bit: without one the default map allows what that unit does (Table 17.2). -/
def ruled (s : State) (setBit : Nat) : Bool := (enabledRules s).any fun p => (getR s (Reg.ART_MASTERS p.1)).getLsbD setBit

/-- The same, with the record of a refusal. -/
def unitAccess (code setBit : Nat) (k : AccKind) (off n : Nat) (s : State) : State × Bool :=
  match judge k true (ruleMatch s setBit 3 (storeWin + off) n) with
  | .allowed => (s, false)
  | .refused r q => (recordRefusal code 3 k r q (storeWin + off) s, true)

/-- Accesses of one unit to several ranges: whether any is refused. -/
def unitAccesses (code setBit : Nat) (k : AccKind) (l : List (Nat × Nat)) (s : State) : State × Bool :=
  l.foldl (fun p r =>
    let x := unitAccess code setBit k r.1 r.2 p.1
    (x.1, p.2 || x.2)) (s, false)

/-- The 32-byte lines of a range. -/
def linesOf (off n : Nat) : List (Nat × Nat) := (List.range ((n + 31) / 32)).map fun i => (off + 32 * i, 32)

end Sys2Proof.Machine
end

