-- ==== Sys2Proof/Machine/Que.lean ====
section
/-!
DEFINITION. The Central Store's ECC and scrubber, and the hardware queues: descriptors, posting, completion, reception (chapter
"Module Architecture, Data Paths and Limits").
-/
namespace Sys2Proof.Machine

/-! ### ECC (R10, R11) -/

/-- A read of the 64-bit word `w` of the Store: a single-bit error is corrected and counted, a double-bit error is counted and its
address recorded while none is. The flag says that the data is not usable. -/
def eccWord (w : Nat) (s : State) : State × Bool :=
  match s.ecc.get w with
  | 0 => (s, false)
  | 1 => (satAdd { s with ecc := s.ecc.put w 0 } Reg.QUE_ECC_CNT Reg.QUE_ECC_CNT_corrected 1, false)
  | _ =>
    let s := satAdd s Reg.QUE_ECC_CNT Reg.QUE_ECC_CNT_uncorrected 1
    let s :=
      if flag s Reg.QUE_ECC_ADDR Reg.QUE_ECC_ADDR_valid then s
      else setB (setF s Reg.QUE_ECC_ADDR Reg.QUE_ECC_ADDR_word w) Reg.QUE_ECC_ADDR Reg.QUE_ECC_ADDR_valid true
    (s, true)

/-- A read of `n` bytes of the Store from byte `a` on. -/
def eccRead (a n : Nat) (s : State) : State × Bool :=
  (List.range ((a + n + 7) / 8 - a / 8)).foldl (fun p i =>
    let r := eccWord (a / 8 + i) p.1
    (r.1, p.2 || r.2)) (s, false)

/-- A read of a buffer by a queue engine, with its code and set bit (Table 17.1): the flag says that the data is not usable (R10, R408). -/
def engineRead (code setBit a n : Nat) (s : State) : State × Bool :=
  match unitAccess code setBit .read a n s with
  | (s, true) => (s, true)
  | (s, false) => eccRead a n s

/-- The master code and set bit of a queue's engine (Tables 1.7 and 17.1). -/
def qEng (q : Nat) : Nat × Nat :=
  if q < 24 then (0x10 + q % 12, 12)
  else if q < 56 then (0x20 + (q - 24) % 16, 13)
  else if q < 60 then (0x30 + q % 2, 14)
  else if q = 60 then (0x09, 9)
  else if q = 61 then (0x0A, 10)
  else if q < 64 then (0x32, 15)
  else (0x33, 16)

/-- Good ECC for the words that a write of `n` bytes covers. -/
def eccClean (off n : Nat) (s : State) : State :=
  if s.ecc.cells.isEmpty then s
  else { s with ecc := (List.range ((off + n + 7) / 8 - off / 8)).foldl (fun m i => m.put (off / 8 + i) 0) s.ecc }

/-- A write of bytes to the Store: the words written hold good ECC from then on. -/
def storeWrite (a : Nat) (l : List Byte) (s : State) : State := eccClean a l.length { s with store := stBytes s.store a l }

/-- A write by a queue's engine: without effect where the ART refuses it or where it meets a container under verification (R48, R408). -/
def engineWrite (q a : Nat) (l : List Byte) (s : State) : State :=
  if storeLocked s a l.length then s
  else match unitAccess (qEng q).1 (qEng q).2 .write a l.length s with
    | (s, true) => s
    | (s, false) => storeWrite a l s

/-- SCRUB_LINE: one line of 32 bytes is read, counted and logged; a corrected word is written back unless a master writes the line in that clock
(`written`), and an uncorrectable word stays (R10, R11). -/
def scrubLine (written : Bool) (s : State) : State :=
  let w := 4 * s.scrub
  let r := (engineRead 0x0B 11 (8 * w) 32 s).1
  let s := if written then { r with ecc := s.ecc } else r
  let last := s.scrub + 1 = 0x100000
  let s := { s with scrub := if last then 0 else s.scrub + 1 }
  if last then wrapAdd s Reg.REC_SCRUB Reg.REC_SCRUB_store_passes 1 else s

/-! ### Rings and descriptors (R19, R20, Table 1.8) -/

def setQ (s : State) (q : Fin 128) (x : Queue) : State := { s with que := s.que.set q x }

/-- The ring size 2^size_log2, and the occupancy limit (0: the ring size). -/
def qSize (s : State) (q : Nat) : Nat := 2 ^ getF s (Reg.QUE_CFG q) Reg.QUE_CFG_size_log2
def qLimit (s : State) (q : Nat) : Nat :=
  let l := getF s (Reg.QUE_CFG q) Reg.QUE_CFG_limit
  if l = 0 then qSize s q else l

def qHead (s : State) (q : Nat) : Nat := getF s (Reg.QUE_HEAD q) Reg.QUE_HEAD_head
def qTail (s : State) (q : Nat) : Nat := getF s (Reg.QUE_TAIL q) Reg.QUE_TAIL_tail

/-- The Store offset of the descriptor with a count. -/
def descAddrOf (s : State) (q n : Nat) : Nat :=
  (getF s (Reg.QUE_RING_BASE q) Reg.QUE_RING_BASE_base * 16 + 16 * (n % qSize s q)) % storeSize

/-- A descriptor, read from the Store. -/
structure Desc where
  buf : Nat
  len : Nat
  cls : Nat
  ts : Bool
  irq : Bool
  slot : Nat
  deriving DecidableEq, Repr

/-- The engine's own read of a descriptor of which it looks at the fields: the flag says that the words give no usable data (R10, R408). -/
def fetchDesc (q a : Nat) (s : State) : State × Bool := engineRead (qEng q).1 (qEng q).2 a 16 s

def readDesc (s : State) (a : Nat) : Desc :=
  let w1 := ld s.store (a + 4) 4
  { buf := ld s.store a 4 % 2 ^ 25, len := w1 % 2 ^ 14, cls := bits w1 16 2, ts := bit w1 18, irq := bit w1 19
    slot := ld s.store (a + 8) 4 % 2 ^ 16 }

/-- Completion word and own bit of a descriptor, and the flags and counters of its outcome (R17, R19): 0 SENT, 1 SENT_LATE,
2 REFUSED_FULL, 3 REFUSED_BUDGET. -/
def writeCompletion (q : Nat) (a : Nat) (e : Fly) (s : State) : State :=
  let o := e.outcome.getD 0
  let d := readDesc s a
  let w := o + (if e.poisoned then 4 else 0) + (if o = 1 then min 65535 e.late * 2 ^ 16 else 0)
  let s := engineWrite q (a + 12) (leBytes 4 w) s
  let s := engineWrite q (a + 7) [BitVec.ofNat 8 (ld s.store (a + 7) 1 % 128)] s
  let s := wrapAdd s (Reg.QUE_HEAD q) Reg.QUE_HEAD_done 1
  let s := if o = 1 then satAdd (setB s (Reg.QUE_STATUS q) Reg.QUE_STATUS_late true) (Reg.QUE_COUNT q) Reg.QUE_COUNT_late_cnt 1 else s
  let s := if 2 ≤ o then
      satAdd (setB s (Reg.QUE_STATUS q) Reg.QUE_STATUS_refused true) (Reg.QUE_COUNT q) Reg.QUE_COUNT_refused_cnt 1
    else s
  let s := if e.poisoned then setB s (Reg.QUE_STATUS q) Reg.QUE_STATUS_poisoned true else s
  if d.irq then { s with irqQueue := true } else s

/-- Completions are written in ring order: the known outcomes at the front of the ring (R19). -/
def flushList (q : Nat) : List Fly → State → State × List Fly
  | [], s => (s, [])
  | e :: l, s =>
    match e.outcome with
    | none => (s, e :: l)
    | some _ =>
      match e.takenAt with
      | some a => flushList q l (writeCompletion q a e s)
      | none =>
        let s := writeCompletion q (descAddrOf s q (qHead s q)) e s
        flushList q l (wrapAdd s (Reg.QUE_HEAD q) Reg.QUE_HEAD_head 1)

def qFlush (q : Fin 128) (s : State) : State :=
  let r := flushList q s.que[q].fly s
  setQ r.1 q { s.que[q] with fly := r.2 }

/-- New descriptors, oldest first: one posted while the occupancy already exceeds the limit, or the frame-buffer pool is exhausted, has the
outcome REFUSED_FULL (R20, Table 1.6). -/
def postList (c limit : Nat) (noPool : Bool) : Nat → Nat → List Fly
  | 0, _ => []
  | n + 1, occ => { postC := c, outcome := if noPool || decide (limit < occ) then some 2 else none } :: postList c limit noPool n (occ + 1)

/-- QUE_POOL.free by a difference. -/
def poolFree (s : State) : Nat := getF s Reg.QUE_POOL Reg.QUE_POOL_free

/-- Buffers of received frames go back to the pool, the oldest `n` of the queue, as software posts `n` descriptors anew. -/
def poolReturn (q : Fin 128) (n : Nat) (s : State) : State :=
  let x := s.que[q]
  if x.bufs.isEmpty then s
  else setF (setQ s q { x with bufs := x.bufs.drop n }) Reg.QUE_POOL Reg.QUE_POOL_free (poolFree s + (x.bufs.take n).sum)

/-- QUE_TAIL_WRITE (R20). A tail set back within the ring withdraws the newest descriptors. -/
def queTailWrite (q : Fin 128) (v : Word) (s : State) : State :=
  let tail := v.toNat % 65536
  let old := qTail s q
  let head := qHead s q
  let occ := (tail + 65536 - head) % 65536
  let occ0 := (old + 65536 - head) % 65536
  if qSize s q < occ then setB s (Reg.QUE_STATUS q) Reg.QUE_STATUS_ring_ovf true
  else
    let s := poolReturn q (occ - occ0) (setF s (Reg.QUE_TAIL q) Reg.QUE_TAIL_tail tail)
    let x := s.que[q]
    let fly := if occ0 ≤ occ then x.fly ++ postList s.time.c (qLimit s q) (poolFree s == 0) (occ - occ0) occ0
      else x.fly.take (x.fly.length - (occ0 - occ))
    qFlush q (setQ s q { x with fly := fly })

/-- Mark the descriptor at the head as taken: descriptors whose outcome is known already are passed. The result is the address of the
descriptor taken. -/
def takeList (q : Nat) : List Fly → State → Option (State × List Fly × Nat)
  | [], _ => none
  | e :: l, s =>
    match e.takenAt with
    | some _ => (takeList q l s).map fun r => (r.1, e :: r.2.1, r.2.2)
    | none =>
      let a := descAddrOf s q (qHead s q)
      let s := wrapAdd s (Reg.QUE_HEAD q) Reg.QUE_HEAD_head 1
      let e := { e with takenAt := some a }
      match e.outcome with
      | some _ => (takeList q l s).map fun r => (r.1, e :: r.2.1, r.2.2)
      | none => some (s, e :: l, a)

/-- The engine takes the next descriptor of a queue. -/
def qTake (q : Fin 128) (s : State) : Option (State × Nat) :=
  (takeList q s.que[q].fly s).map fun r => (setQ r.1 q { s.que[q] with fly := r.2.1 }, r.2.2)

/-- The address of the next descriptor to take, and its waiting entry. -/
def qPeek (q : Fin 128) (s : State) : Option (Nat × Fly) :=
  (takeList q s.que[q].fly s).map fun r =>
    (r.2.2, ((s.que[q].fly.filter fun e => e.takenAt.isNone && e.outcome.isNone).head?).getD { postC := 0 })

/-- Give the taken descriptor at an address its outcome, then write what is due (R17, R19). -/
def qComplete (q : Fin 128) (a outcome late : Nat) (poisoned : Bool) (s : State) : State :=
  let x := s.que[q]
  let fly := x.fly.map fun e =>
    if e.takenAt == some a && e.outcome.isNone then { e with outcome := some outcome, late := late, poisoned := e.poisoned || poisoned }
    else e
  qFlush q (setQ s q { x with fly := fly })

/-- Change the taken descriptor at an address that has no outcome yet. -/
def qMark (q : Fin 128) (a : Nat) (f : Fly → Fly) (s : State) : State :=
  let x := s.que[q]
  setQ s q { x with fly := x.fly.map fun e => if e.takenAt == some a && e.outcome.isNone then f e else e }

/-- A class B frame that has waited over budget since FAST period `x` has waited b_wait periods (R17). -/
def bWaited (s : State) (q : Fin 128) (e : Fly) (period : Int) : Bool :=
  match e.waitFrom with
  | some x => decide (x + (getF s (Reg.QUE_CFG q) Reg.QUE_CFG_b_wait : Int) ≤ period)
  | none => false

/-- The outcome of a delivery that ends now: SENT within a tick of its posting, otherwise SENT_LATE with whole ticks (Table 1.6). -/
def sentOutcome (s : State) (e : Fly) : Nat × Nat :=
  let ticks := 4 * (s.time.c - e.postC) / 31250
  if ticks = 0 then (0, 0) else (1, ticks)

/-- The oldest descriptor that is taken and has no outcome yet: the one being delivered. -/
def qServing (q : Fin 128) (s : State) : Option Fly :=
  s.que[q].fly.find? fun e => e.takenAt.isSome && e.outcome.isNone

/-- DESCRIPTOR_COMPLETE: the delivery of the queue's oldest taken descriptor ends (R17, R19). Class C is never SENT_LATE. -/
def descriptorComplete (q : Fin 128) (s : State) : State :=
  match qServing q s with
  | none => s
  | some e =>
    let a := e.takenAt.getD 0
    let o := if (readDesc s a).cls = 0 then (0, 0) else sentOutcome s e
    qComplete q a o.1 o.2 e.poisoned s

/-! ### Reception (R18, R21) -/

/-- A dropped received frame is counted (R21). -/
def rxDrop (q : Nat) (s : State) : State :=
  satAdd (setB s (Reg.QUE_STATUS q) Reg.QUE_STATUS_refused true) (Reg.QUE_COUNT q) Reg.QUE_COUNT_refused_cnt 1

/-- The buffers kept for class E: the last eighth of those not reserved for class C (R18). -/
def poolReserve (s : State) : Nat := (6144 - getF s Reg.QUE_POOL Reg.QUE_POOL_reserved_c) / 8

/-- Buffers of 2 KiB that a received frame with its trailer takes (R18). -/
def poolNeed (frame trailer : List Byte) : Nat := max 1 ((frame.length + trailer.length + 2047) / 2048)

/-- A received frame takes its buffers from the pool, which hold until the queue is posted again (notes/assumptions/71.md). -/
def poolTake (q : Fin 128) (n : Nat) (s : State) : State :=
  let x := s.que[q]
  setF (setQ s q { x with bufs := x.bufs ++ [n] }) Reg.QUE_POOL Reg.QUE_POOL_free (poolFree s - n)

/-- A received frame goes to the buffer of the next posted descriptor, with `trailer` bytes after it at a multiple of 8 (R306); it is
dropped where none is posted, the queue is not in service or the pool is short (R18, R21; a descriptor that a queue out of service holds is
left to the queue's engine: notes/assumptions/74.md). The flag says that it was delivered. -/
def rxDeliver (q : Fin 128) (classB : Bool) (frame trailer : List Byte) (s : State) : State × Bool :=
  let need := poolNeed frame trailer
  if (classB && decide (poolFree s < poolReserve s)) || decide (poolFree s < need) || !flag s (Reg.QUE_CFG q) Reg.QUE_CFG_enable then
    (rxDrop q s, false)
  else match qTake q s with
    | none => (rxDrop q s, false)
    | some (s, a) =>
      let r := fetchDesc q a (poolTake q need s)
      let s := r.1
      if r.2 then (rxDrop q (qComplete q a 0 0 true s), false)
      else
        let d := readDesc s a
        let s := engineWrite q d.buf frame s
        let s := if trailer.isEmpty then s else engineWrite q (d.buf + (frame.length + 7) / 8 * 8) trailer s
        let w1 := ld s.store (a + 4) 4
        let s := engineWrite q (a + 4) (leBytes 4 (w1 / 2 ^ 14 * 2 ^ 14 + frame.length % 2 ^ 14)) s
        (qComplete q a 0 0 false s, true)

/-- The engine takes the next descriptor and completes it without a delivery. -/
def endNext (q : Fin 128) (outcome : Nat) (poisoned : Bool) (s : State) : State :=
  match qTake q s with
  | some (s, a) => qComplete q a outcome 0 poisoned s
  | none => s

/-- A queue that is out of service: its engine takes the next descriptor and completes it REFUSED_BUDGET (R17, R22). -/
def refuseNext (q : Fin 128) (s : State) : State := endNext q 3 false s

/-- QUE_STATUS with its busy bit. -/
def queStatus (s : State) (q : Fin 128) : Word :=
  getR s (Reg.QUE_STATUS q) ||| Reg.QUE_STATUS_busy.mk' (b2n (!s.que[q].fly.isEmpty))

end Sys2Proof.Machine
end

