-- ==== Sys2Proof/Machine/Time.lean ====
section
/-!
DEFINITION. The time unit (chapter "Network Time, Time-Stamping and Time Triggers"): rate changes and steps of local
time, transmit timestamp queues, captures, and the time triggers with their targets.
-/
namespace Sys2Proof.Machine

/-! ### Edges (R59, R62) -/

/-- Local time before a step at the present TIME edge. -/
def stepFrom (s : State) : Option Int :=
  match s.time.stepped with
  | some p => if p.1 = s.time.c then some p.2 else none
  | none => none

/-- The present TIME edge is the first at which local time is at or past an instant (R59). Of the instants that a step at this edge goes
over, only the one on which it lands is reached (R62). -/
def edgeAt (s : State) (x : Int) : Bool :=
  match stepFrom s with
  | some a => x == now s || (decide (x ≤ a) && decide (s.time.localAt (s.time.c - 1) - (now s - a) < x))
  | none => decide (x ≤ now s) && (s.time.c == 0 || decide (s.time.localAt (s.time.c - 1) < x))

/-! ### Rate and step (R300 to R304) -/

/-- The bound on |inc − 2^42| in force (Table 12.1). -/
def incBound (s : State) : Nat := if flag s Reg.TIME_CTRL Reg.TIME_CTRL_mode then 439804651 else 4398046511

/-- A write of TIME_INC_HI: form inc, clamp it by the mode, and rebase at this TIME edge (R301, R302). -/
def timeRateChange (hi : Word) (s : State) : State :=
  let s := setF s Reg.TIME_INC_HI Reg.TIME_INC_HI_value (hi.toNat % 2 ^ 16)
  let want := (getR s Reg.TIME_INC_LO).toNat + 2 ^ 32 * (hi.toNat % 2 ^ 16)
  let lo := 2 ^ 42 - incBound s
  let up := 2 ^ 42 + incBound s
  let inc := max lo (min up want)
  let s := if inc = want then s else setB s Reg.TIME_STATUS Reg.TIME_STATUS_inc_clamped true
  { s with time := { s.time with ab := s.time.a s.time.c, cb := s.time.c, inc := inc } }

/-- The instants of the grid `g + k × p` that lie strictly between two instants. -/
def gridBetween (g : Int) (p : Nat) (a b : Int) : Nat :=
  let first := g + gridUp p (a + 1 - g)
  if first < b then ((b - 1 - first) / (p : Int)).toNat + 1 else 0

/-- The class a trigger names; code 3 acts as 0 (TTRG_CTL). -/
def trigCls (s : State) (i : Nat) : Nat :=
  let k := getF s (Reg.TTRG_CTL i) Reg.TTRG_CTL_class
  if k = 3 then 0 else k

/-- m of a CLASS trigger; 0 acts as 1 (TTRG_CTL). -/
def trigEvery (s : State) (i : Nat) : Nat := max 1 (getF s (Reg.TTRG_CTL i) Reg.TTRG_CTL_every)

/-- TTRG_START as a signed 64-bit instant. -/
def trigStart (s : State) (i : Nat) : Int :=
  sgn 64 ((getR s (Reg.TTRG_START_LO i)).toNat + 2 ^ 32 * (getR s (Reg.TTRG_START_HI i)).toNat)

/-- The first instant of a CLASS trigger's grid at or after `x` (R316): T0 + phase of the cycles whose number is a multiple of m. The
numbers wrap at 2^32, so the grid is walked cycle by cycle over at most 2 × m cycles. -/
def clsNext (p m : Nat) (phase x : Int) : Option Int :=
  let t0 := gridUp p (x - phase)
  ((List.range (2 * m)).map (fun (i : Nat) => t0 + (i : Int) * (p : Int))).find? (fun t => (t / (p : Int)) % 2 ^ 32 % m == 0)
    |>.map (· + phase)

/-- The first scheduled instant of a trigger at or after `x`, from its registers. -/
def trigNextFrom (s : State) (i : Nat) (x : Int) : Option Int :=
  match getF s (Reg.TTRG_CTL i) Reg.TTRG_CTL_timing with
  | 1 => if x ≤ trigStart s i then some (trigStart s i) else none
  | 2 =>
    let p := (getR s (Reg.TTRG_PERIOD i)).toNat
    some (max (trigStart s i) (trigStart s i + gridUp p (x - trigStart s i)))
  | 3 =>
    let k := trigCls s i
    if s.img.hasCls k then clsNext (s.img.period k) (trigEvery s i) (getR s (Reg.TTRG_START_LO i)).toNat x else none
  | _ => none

def setTrig (s : State) (i : Fin 16) (t : Trig) : State :=
  setB { s with time := { s.time with trigs := s.time.trigs.set i t } }
    (Reg.TTRG_STATUS i) Reg.TTRG_STATUS_waiting t.next.isSome

/-- A committed change of a trigger's registers schedules it anew (R316, R321): a PERIODIC trigger with a period below 1,000 ns is
turned off with `suppressed` set, and a ONCE trigger whose instant is not ahead fires at the next edge with `late`. Image triggers do not run in
BOOT (R319). -/
def trigArm (i : Fin 16) (s : State) : State :=
  let s :=
    if getF s (Reg.TTRG_CTL i) Reg.TTRG_CTL_timing = 2 ∧ (getR s (Reg.TTRG_PERIOD i)).toNat < 1000 then
      setB (setF s (Reg.TTRG_CTL i) Reg.TTRG_CTL_timing 0) (Reg.TTRG_STATUS i) Reg.TTRG_STATUS_suppressed true
    else s
  if s.mode = .boot ∧ flag s (Reg.TTRG_CTL i) Reg.TTRG_CTL_image = true then setTrig s i {}
  else if getF s (Reg.TTRG_CTL i) Reg.TTRG_CTL_timing = 1 ∧ trigStart s i ≤ now s then
    setTrig s i { next := some (trigStart s i), late := true }
  else setTrig s i { next := trigNextFrom s i (now s) }

/-- How many cycle numbers below `n` are multiples of m; numbers wrap at 2^32 (R60). -/
def multsBelow (m : Nat) (n : Int) : Int := n / 2 ^ 32 * ((2 ^ 32 + m - 1) / m) + (n % 2 ^ 32 + m - 1) / m

/-- The instants of a trigger's grid that lie after `a` and before `b`. -/
def trigPassed (s : State) (i : Nat) (a b : Int) : Nat :=
  match getF s (Reg.TTRG_CTL i) Reg.TTRG_CTL_timing with
  | 2 => gridBetween (trigStart s i) (max 1 (getR s (Reg.TTRG_PERIOD i)).toNat) (max a (trigStart s i - 1)) b
  | 3 =>
    let k := trigCls s i
    let p : Int := max 1 (s.img.period k)
    let phase : Int := (getR s (Reg.TTRG_START_LO i)).toNat
    if s.img.hasCls k then
      (multsBelow (trigEvery s i) (-(-(b - phase) / p)) - multsBelow (trigEvery s i) ((a - phase) / p + 1)).toNat
    else 0
  | _ => 0

/-- What a forward step from `a` to `b` does to a trigger (R320): firings that were due by `a` stand; of the instants after `a` and before `b`
a ONCE or PERIODIC trigger fires the first, late, and every further one, or for CLASS every one, is skipped; then its grid goes on from `b`. -/
def trigStepFwd (a b : Int) (s : State) (i : Fin 16) : State :=
  let t := s.time.trigs[i]
  match t.next with
  | none => s
  | some x =>
    let timing := getF s (Reg.TTRG_CTL i) Reg.TTRG_CTL_timing
    let l := (x, t.late) :: t.resume
    let due := l.takeWhile fun e => decide (e.1 ≤ a)
    let ahead := match (l.drop due.length).head? with
      | some e => some e.1
      | none => if timing = 1 then none else trigNextFrom s i (a + 1)
    match ahead with
    | none => s
    | some y =>
      if b ≤ y then s else
      let n := trigPassed s i (y - 1) b
      let first := if timing = 3 then [] else [(y, true)]
      let s := satAdd s (Reg.TTRG_COUNT i) Reg.TTRG_COUNT_skips (n - first.length)
      let on := if timing = 1 then [] else (trigNextFrom s i b).toList.map fun z => (z, false)
      match due ++ first ++ on with
      | e :: r => setTrig s i { next := some e.1, late := e.2, resume := r }
      | [] => setTrig s i {}

/-- The cycles of a class that a forward step passes over (R62), counted in ENG_CLS_OVR.time_skips. -/
def clsStepFwd (a b : Int) (s : State) (k : Cls) : State :=
  if executing s && s.img.hasCls k.code && k != .background then
    let from' := match (s.cls.get k).lastT0 with
      | some t => max a t
      | none => a
    satAdd s (Reg.ENG_CLS_OVR k.code) Reg.ENG_CLS_OVR_time_skips (gridBetween 0 (s.img.period k.code) from' b)
  else s

/-- A write of TIME_STEP_HI (R303): applied in INCR, in STEP_SLEW only when armed; otherwise refused and counted. -/
def timeStep (hi : Word) (s : State) : State :=
  let slew := flag s Reg.TIME_CTRL Reg.TIME_CTRL_mode
  let armed := flag s Reg.TIME_CTRL Reg.TIME_CTRL_arm
  if slew && !armed then
    satAdd (setB s Reg.TIME_STATUS Reg.TIME_STATUS_step_refused true) Reg.TIME_STATUS Reg.TIME_STATUS_refused_cnt 1
  else
    let a := now s
    let d : BitVec 64 := BitVec.ofNat 64 ((getR s Reg.TIME_STEP_LO).toNat + 2 ^ 32 * hi.toNat)
    let from' := match s.time.stepped with
      | some p => if p.1 = s.time.c then p.2 else a
      | none => a
    let s := { s with time := { s.time with off := s.time.off + d, stepped := some (s.time.c, from') } }
    let s := wrapAdd s Reg.TIME_STATUS Reg.TIME_STATUS_steps 1
    let s := if slew then setB s Reg.TIME_CTRL Reg.TIME_CTRL_arm false else s
    let b := now s
    if a < b then
      let s := (List.finRange 16).foldl (trigStepFwd a b) s
      [Cls.fast, Cls.mid, Cls.slow].foldl (clsStepFwd a b) s
    else s

/-- A write of TIME_CTRL (R303): the mode, and `arm` by a 1 or by a change of mode from INCR to STEP_SLEW. -/
def timeCtrlWrite (v : Word) (s : State) : State :=
  let old := flag s Reg.TIME_CTRL Reg.TIME_CTRL_mode
  let new := v.getLsbD 0
  let s := setB s Reg.TIME_CTRL Reg.TIME_CTRL_mode new
  if v.getLsbD 1 || (!old && new) then setB s Reg.TIME_CTRL Reg.TIME_CTRL_arm true else s

/-! ### Transmit timestamps (R305 to R307) -/

/-- A port's signed latency register, in 1/16 ns. -/
def lat (s : State) (a : Nat) : Int := sgn 16 (getR s a).toNat

/-- The receive timestamp of a frame whose timestamp point passes now (R305). -/
def rxStamp (s : State) (p : Nat) : Int := (now s * 16 - lat s (Reg.PTP_LAT_IN p)) / 16

/-- The transmit timestamp before rounding, in 2^-16 ns, and rounded (R305, R308). -/
def txStamp16 (s : State) (p : Nat) : Int := now s * 65536 + lat s (Reg.PTP_LAT_OUT p) * 4096
def txStamp (s : State) (p : Nat) : Int := (now s * 16 + lat s (Reg.PTP_LAT_OUT p)) / 16

/-- A new transmit timestamp entry of a port: kept in one of 16 places, or dropped and counted (R307). -/
def txtsPush (p : Fin 12) (e : TxTs) (s : State) : State :=
  if (s.time.txts[p]).length < 16 then
    { s with time := { s.time with txts := s.time.txts.set p (s.time.txts[p] ++ [e]) } }
  else
    satAdd (setB s (Reg.PTP_TXTS_STATUS p) Reg.PTP_TXTS_STATUS_overflow true) (Reg.PTP_TXTS_STATUS p)
      Reg.PTP_TXTS_STATUS_ovf_cnt 1

/-- The tag word of the oldest entry of a port; 0 while the queue is empty. -/
def txtsTag (s : State) (p : Fin 12) : Word :=
  match s.time.txts[p] with
  | [] => 0
  | e :: _ =>
    Reg.PTP_TXTS_TAG_valid.mk' 1 ||| Reg.PTP_TXTS_TAG_aborted.mk' (b2n e.aborted) |||
    Reg.PTP_TXTS_TAG_msg_type.mk' e.msgType.toNat ||| Reg.PTP_TXTS_TAG_port.mk' p ||| Reg.PTP_TXTS_TAG_tag.mk' e.tag.toNat

def txtsLo (s : State) (p : Fin 12) : Word :=
  match s.time.txts[p] with
  | [] => 0
  | e :: _ => e.ts.setWidth 32

def txtsHi (s : State) (p : Fin 12) : Word :=
  match s.time.txts[p] with
  | [] => 0
  | e :: _ => (e.ts >>> 32).setWidth 32

/-- A read of PTP_TXTS_HI removes the oldest entry (R307). -/
def txtsPop (p : Fin 12) (s : State) : State :=
  { s with time := { s.time with txts := s.time.txts.set p (s.time.txts[p]).tail } }

/-! ### Captures (R311) -/

/-- Write a capture: bits 47:0 of the instant, seq + 1, valid. -/
def capWrite (c : Fin 16) (x : Int) (s : State) : State :=
  let v := unsgn 64 x
  let s := setR s (Reg.TIME_CAP_LO c) (BitVec.ofNat 32 v)
  let s := setF s (Reg.TIME_CAP_HI c) Reg.TIME_CAP_HI_wrap (v / 2 ^ 32)
  let s := wrapAdd s (Reg.TIME_CAP_HI c) Reg.TIME_CAP_HI_seq 1
  setB s (Reg.TIME_CAP_HI c) Reg.TIME_CAP_HI_valid true

/-- The stamp of the event a capture unit's source has just given: the newest accepted edge of the DI channel when its kind is
selected, or the last firing of the trigger. None when the source gives none. -/
def capStamp (s : State) (c : Fin 16) : Option Int :=
  let src := getF s (Reg.TIME_CAP_CFG c) Reg.TIME_CAP_CFG_src
  if h : src < 32 then
    let e := getF s (Reg.TIME_CAP_CFG c) Reg.TIME_CAP_CFG_edge
    let rise := s.io.di[src].lastRise
    if e = 0 && !rise then none
    else if e = 1 && rise then none
    else some (sgn 64 ((getR s (Reg.DIO_CH_TS_LO src)).toNat + 2 ^ 32 * (getR s (Reg.DIO_CH_TS_HI src)).toNat))
  else if src < 48 then
    let t := src - 32
    if flag s (Reg.TTRG_STATUS t) Reg.TTRG_STATUS_fired || getF s (Reg.TTRG_COUNT t) Reg.TTRG_COUNT_fires != 0 then
      some (sgn 64 ((getR s (Reg.TTRG_LAST_LO t)).toNat + 2 ^ 32 * (getR s (Reg.TTRG_LAST_HI t)).toNat))
    else none
  else none

/-- An event at a capture unit: taken in FREE, and in ARMED only as the first within an open window; a window in which one came has not missed
it (R311). -/
def capTake (c : Fin 16) (x : Int) (s : State) : State :=
  let u := s.time.caps[c]
  let within := match u.openAt with
    | some o => decide (o ≤ x) && decide (x < u.closeAt)
    | none => false
  let s' := if within then { s with time := { s.time with caps := s.time.caps.set c { u with took := true } } } else s
  if flag s (Reg.TIME_CAP_CFG c) Reg.TIME_CAP_CFG_mode && !(within && !u.took) then s' else capWrite c x s'

/-- CAPTURE_EVENT: the event of the unit's source. -/
def captureEvent (c : Fin 16) (s : State) : State :=
  match capStamp s c with
  | some x => capTake c x s
  | none => s

/-- A write of TIME_CAP_CFG: source, edge and mode, and with `snap` a capture of local time now, which the mode governs as it does
every event. -/
def captureSnap (c : Fin 16) (v : Word) (s : State) : State :=
  let s := setF s (Reg.TIME_CAP_CFG c) Reg.TIME_CAP_CFG_src v.toNat
  let s := setF s (Reg.TIME_CAP_CFG c) Reg.TIME_CAP_CFG_edge (v.toNat >>> 8)
  let s := setF s (Reg.TIME_CAP_CFG c) Reg.TIME_CAP_CFG_mode (v.toNat >>> 12)
  if v.getLsbD 16 then capTake c (now s) s else s

/-- The end of a window: in ARMED `missed` says whether it closed without an event. -/
def captureWindowClose (c : Fin 16) (s : State) : State :=
  let u := s.time.caps[c]
  if u.openAt.isSome && decide (u.closeAt ≤ now s) then
    let s := if flag s (Reg.TIME_CAP_CFG c) Reg.TIME_CAP_CFG_mode then setB s (Reg.TIME_CAP_HI c) Reg.TIME_CAP_HI_missed (!u.took) else s
    { s with time := { s.time with caps := s.time.caps.set c {} } }
  else s

/-- A CAPTURE_ARM firing opens a window, or moves the end of an open one to the later end (R317). -/
def capArm (c : Fin 16) (width : Nat) (s : State) : State :=
  let u := s.time.caps[c]
  let e := now s + width
  let u' : CapUnit := match u.openAt with
    | some _ => { u with closeAt := max u.closeAt e }
    | none => { openAt := some (now s), closeAt := e, took := false }
  { s with time := { s.time with caps := s.time.caps.set c u' } }

end Sys2Proof.Machine
end

