-- ==== Sys2Proof/Machine/Can.lean ====
section
/-!
DEFINITION. The CAN channels (chapter "CAN FD Channels and Reference Messages"): transmit buffers, windows, queue frames, reference
messages, cancels, clashes, reception, the receive window, fault confinement.
-/
namespace Sys2Proof.Machine

def setCan (s : State) (u : Fin 16) (x : CanCh) : State := { s with can := s.can.set u x }
def setTxb (s : State) (u : Fin 16) (b : Fin 32) (x : TxBuf) : State :=
  setCan s u { s.can[u] with txb := s.can[u].txb.set b x }

/-- The queues of a unit: transmit Q24 + u, receive Q40 + u (Table 1.7). -/
def canTxQ (u : Fin 16) : Fin 128 := ⟨24 + u.val, by omega⟩
def canRxQ (u : Fin 16) : Fin 128 := ⟨40 + u.val, by omega⟩

def txStat (u : Fin 16) (b : Fin 32) : Nat := Reg.CAN_TXB_STAT u b
def canMode (s : State) (u : Fin 16) : Nat :=
  let m := getF s (Reg.CAN_CFG u) Reg.CAN_CFG_mode
  if m = 3 then 0 else m

/-! ### Frames, lengths and who may send (R326, R329) -/

/-- Payload length of a DLC, and the DLC of a length. -/
def dlcLen (fdf : Bool) (d : Nat) : Nat :=
  if d ≤ 8 then d else if !fdf then 8
  else match d with
    | 9 => 12 | 10 => 16 | 11 => 20 | 12 => 24 | 13 => 32 | 14 => 48 | _ => 64
def lenDlc (n : Nat) : Nat :=
  if n ≤ 8 then n else if n ≤ 12 then 9 else if n ≤ 16 then 10 else if n ≤ 20 then 11 else if n ≤ 24 then 12
  else if n ≤ 32 then 13 else if n ≤ 48 then 14 else 15

/-- Bit times in half nanoseconds: a quantum is brp / 80 MHz, and a bit lasts 1 + tseg1 + tseg2 quanta. -/
def bitHalfN (nbt : Nat) : Nat := 25 * (bits nbt 0 10 + 1) * (3 + bits nbt 10 8 + bits nbt 18 7)
def bitHalfD (dbt : Nat) : Nat := 25 * (bits dbt 0 5 + 1) * (3 + bits dbt 5 5 + bits dbt 10 4)

/-- Worst-case bits of a frame at the nominal and at the data bit time (R329). -/
def frameBits (ide fdf brs : Bool) (n : Nat) : Nat × Nat :=
  if !fdf then (if ide then 8 * n + 67 + (8 * n + 53) / 4 else 8 * n + 47 + (8 * n + 33) / 4, 0)
  else
    let a := if ide then 56 else 33
    let d := if n ≤ 16 then 10 * n + 34 else 10 * n + 39
    if brs then (a, d) else (a + d, 0)

/-- The length L of a frame in ns, rounded up (R329). -/
def frameNs (nbt dbt : Nat) (ide fdf brs : Bool) (n : Nat) : Nat :=
  let b := frameBits ide fdf brs n
  (b.1 * bitHalfN nbt + b.2 * bitHalfD dbt + 1) / 2

def canLen (s : State) (u : Fin 16) (f : CanFrame) : Nat :=
  frameNs (getR s (Reg.CAN_NBT u)).toNat (getR s (Reg.CAN_DBT u)).toNat f.ide f.fdf f.brs f.data.length

/-- An owner's channel may send: ACTIVE, SOLO, and SAFE while owner (R326). -/
def canOwner (s : State) : Bool := s.mode == .active || s.mode == .solo || (s.mode == .safe && s.owner)

/-- Queue frames may also go out in HOLD and SERVICE with svc_tx (R326). -/
def canQueueOk (s : State) (u : Fin 16) : Bool :=
  canOwner s || ((s.mode == .hold || s.mode == .service) && flag s (Reg.CAN_CTRL u) Reg.CAN_CTRL_svc_tx)

/-- A channel that may not send at all is in bus monitoring mode (R326). -/
def canMonitor (s : State) (u : Fin 16) : Bool := canMode s u != 0 && s.mode != .boot && !canQueueOk s u

/-- The channel is on the bus: error active or passive. -/
def canOnline (s : State) (u : Fin 16) : Bool := s.can[u].st == .errorActive || s.can[u].st == .errorPassive

/-- Frames may start on a bus: not in BOOT, held or stopped (R326, R369). -/
def busIdleNow (s : State) (u : Fin 16) : Bool :=
  canOnline s u && (List.finRange 32).all fun b => !s.can[u].txb[b].onBus

/-- The word of a buffer's status that a result leaves: nothing pending. -/
def txResult (u : Fin 16) (b : Fin 32) (r : Nat) (s : State) : State :=
  setF (setB s (txStat u b) Reg.CAN_TXB_STAT_pend false) (txStat u b) Reg.CAN_TXB_STAT_result r

/-- A pending cancel request of a buffer takes its outcome (Table 13.3). -/
def cancelOut (u : Fin 16) (b : Fin 32) (o : Nat) (s : State) : State :=
  if flag s (txStat u b) Reg.CAN_TXB_STAT_cancel_req then
    setF (setB s (txStat u b) Reg.CAN_TXB_STAT_cancel_req false) (txStat u b) Reg.CAN_TXB_STAT_cancel o
  else s

/-- A buffer holds a new pending frame; the outcome of the frame before it stands until this one has its own. -/
def txLoad (u : Fin 16) (b : Fin 32) (x : TxBuf) (s : State) : State :=
  setTxb (setF (setB s (txStat u b) Reg.CAN_TXB_STAT_pend true) (txStat u b) Reg.CAN_TXB_STAT_attempts 0) u b x

/-- A frame of a buffer starts on the bus. -/
def txStart (u : Fin 16) (b : Fin 32) (f : CanFrame) (s : State) : State :=
  let s := setTxb s u b { s.can[u].txb[b] with onBus := true, sof := now s }
  let s := satAdd s (txStat u b) Reg.CAN_TXB_STAT_attempts 1
  { s with out := .can u.val f :: s.out }

/-- CAN_ALARM.window_missed with a MISSED_WINDOW result (R328). -/
def missWindow (u : Fin 16) (b : Fin 32) (s : State) : State :=
  setB (txResult u b 5 s) (Reg.CAN_ALARM u) Reg.CAN_ALARM_window_missed true

/-! ### Class C messages (R327, R328) -/

/-- A committed frame goes to its buffer: it replaces one that has not started, and waits behind one on the bus (R328). An OFF channel has no
buffers. -/
def canCommit (u : Fin 16) (b : Fin 32) (f : CanFrame) (opens bound : Int) (s : State) : State :=
  let x := s.can[u].txb[b]
  if canMode s u = 0 then s
  else if x.onBus then setTxb s u b { x with later := some (f, opens, bound) }
  else
    let s := if x.frame.isSome then missWindow u b s else s
    txLoad u b { frame := some f, opensAt := opens, bound := bound } s

/-- The frame of a class C buffer could still end before its bound (R328). -/
def fits (s : State) (u : Fin 16) (x : TxBuf) (f : CanFrame) : Bool := decide (now s + canLen s u f ≤ x.bound)

/-- An INTEGRATING channel that finds the bus idle is error active (notes/assumptions/18.md). -/
def canSync (u : Fin 16) (s : State) : State :=
  if s.can[u].st = .integrating then setCan s u { s.can[u] with st := .errorActive } else s

/-- CAN_WINDOW_OPEN: at OR + time, or at the first idle bus after it, the frame starts single-shot (R328). -/
def canWindowOpen (u : Fin 16) (b : Fin 32) (idle : Bool) (s : State) : State :=
  let x := s.can[u].txb[b]
  match x.frame with
  | none => s
  | some f =>
    if idle && canOwner s && busIdleNow s u && getF s (txStat u b) Reg.CAN_TXB_STAT_owner == 1 &&
        decide (x.opensAt ≤ now s) && fits s u x f then
      txStart u b f s
    else s

/-- CAN_MISSED_WINDOW: a class C frame that has not started and can no longer end before its OC is not sent (R328). -/
def canMissedWindow (u : Fin 16) (b : Fin 32) (s : State) : State :=
  let x := s.can[u].txb[b]
  match x.frame with
  | none => s
  | some f =>
    if !x.onBus && getF s (txStat u b) Reg.CAN_TXB_STAT_owner == 1 && !fits s u x f then
      missWindow u b (setTxb s u b { x with frame := none })
    else s

/-! ### Queue frames (R330) -/

/-- The frame that a frame record of the Store spells (Table 13.5). A remote frame carries the DLC of len and no data. -/
def readFrame (s : State) (a : Nat) : CanFrame :=
  let w0 := ld s.store a 4
  let w1 := ld s.store (a + 4) 4
  let n := bits w1 8 8
  { id := BitVec.ofNat 29 w0, ide := bit w0 29, rtr := bit w0 30, fdf := bit w0 31, brs := bit w1 4, esi := bit w1 5
    dlc := BitVec.ofNat 4 (lenDlc n), data := if bit w0 30 then [] else ldBytes s.store (a + 16) n }

/-- A record of n payload bytes spells a frame of the channel's mode. -/
def validFrame (mode n : Nat) (f : CanFrame) : Bool :=
  (f.ide || decide (f.id.toNat < 2 ^ 11)) && (decide (n ≤ 8) || (f.fdf && dlcLen true (lenDlc n) == n)) &&
    (!f.fdf || (mode == 2 && !f.rtr)) && (!f.brs || f.fdf)

/-- The next class C or reference span of a channel begins at or after now: the windows of its transmit messages and its reference
message, on their grids (R328, R337). A message of BACKGROUND is committed and released with FAST (R71). -/
def nextSpan (s : State) (u : Fin 16) (msgCls : Nat → Nat) : Option Int :=
  if !canOwner s then none else
  let at' := fun (p : Nat) (off : Int) => off + gridUp (max 1 p) (now s - off)
  let cls := fun (n : Nat) => if msgCls n = 3 then 0 else msgCls n
  let tx := (s.img.canTx u).map fun m => at' (s.img.period (cls m.1)) (s.img.relofs (cls m.1) + m.2.time)
  let rf := match s.img.canRef u with
    | some r => [at' (s.img.period r.cls) r.offset]
    | none => []
  (tx ++ rf).min?

/-- Free queue buffers take descriptors in ring order; one that cannot be sent completes REFUSED_BUDGET at once, without a buffer where the
queue is out of service or the channel may not send (R17, R22, R330). -/
def canFill (u : Fin 16) : Nat → State → State
  | 0, s => s
  | n + 1, s =>
    let q := canTxQ u
    let serves := flag s (Reg.QUE_CFG q) Reg.QUE_CFG_enable && canQueueOk s u && canOnline s u
    let free := (List.finRange 32).find? fun b => s.can[u].txb[b].frame.isNone && getF s (txStat u b) Reg.CAN_TXB_STAT_owner == 0
    if serves && free.isNone then s
    else match qTake q s with
      | none => s
      | some (s, a) =>
        let r := fetchDesc q a s
        let s := r.1
        let d := readDesc s a
        let ends := fun (o : Nat) (poisoned : Bool) (s : State) => canFill u n (qComplete q a o 0 poisoned s)
        if r.2 then ends 0 true s
        else if !serves || d.cls == 3 then ends 3 false s
        else if d.len = 0 then ends 0 false s
        else if d.cls = 0 then ends 3 false s
        else
          let r := engineRead (qEng q).1 (qEng q).2 d.buf d.len s
          let s := r.1
          let f := readFrame s d.buf
          if r.2 then ends 0 true s
          else if !validFrame (canMode s u) (ld s.store (d.buf + 5) 1) f then ends 3 false s
          else match free with
            | none => s
            | some b =>
              let x := s.can[u]
              canFill u n (txLoad u b { frame := some f, desc := some a, order := x.taken } (setCan s u { x with taken := x.taken + 1 }))

/-- The arbitration value of a frame: lower wins (ISO 11898-1: base identifier, then the bits that set base and extended and remote
frames apart, then the rest). -/
def arbKey (f : CanFrame) : Nat :=
  let id := f.id.toNat
  if f.ide then (id / 2 ^ 18) * 2 ^ 21 + 3 * 2 ^ 19 + (id % 2 ^ 18) * 2 + b2n f.rtr
  else id * 2 ^ 21 + b2n f.rtr * 2 ^ 20

/-- The pending queue buffer with the highest priority; among equals the one taken first (R330). -/
def bestQueue (s : State) (u : Fin 16) : Option (Fin 32 × CanFrame) :=
  (List.finRange 32).foldl (fun best b =>
    let x := s.can[u].txb[b]
    match x.frame with
    | some f =>
      if x.desc.isSome && !x.onBus then
        match best with
        | none => some (b, f)
        | some (c, g) =>
          if arbKey f < arbKey g ∨ (arbKey f = arbKey g ∧ x.order < s.can[u].txb[c].order) then some (b, f) else best
      else best
    | none => best) none

/-- The FAST period that local time is in. -/
def fastPeriod (s : State) : Int := now s / (max 1 (s.img.period 0) : Nat)

/-- Class B bus time used by a channel in the present FAST period. -/
def canBUsed (s : State) (u : Fin 16) : Nat := if s.can[u].bPeriod = fastPeriod s then s.can[u].bUsed else 0

/-- A class B frame of the descriptor at `a` is over the channel's b_time of the present FAST period (R330). -/
def canOver (s : State) (u : Fin 16) (a : Nat) (f : CanFrame) : Bool :=
  (readDesc s a).cls == 2 && decide ((getR s (Reg.CAN_B_TIME u)).toNat < canBUsed s u + canLen s u f)

/-- CAN_QUEUE_FRAME_START: the best pending queue frame starts when it ends before the next class C or reference span, and for class B
within b_time per FAST period (R330). -/
def canQueueFrameStart (msgCls : Nat → Nat) (u : Fin 16) (s : State) : State :=
  let s := canFill u 32 (canSync u s)
  match bestQueue s u with
  | none => s
  | some (b, f) =>
    let n := canLen s u f
    let clear := match nextSpan s u msgCls with
      | some x => decide (now s + n ≤ x)
      | none => true
    let isB := (readDesc s ((s.can[u].txb[b].desc).getD 0)).cls == 2
    let used := canBUsed s u
    if canQueueOk s u && busIdleNow s u && clear && (!isB || decide (used + n ≤ (getR s (Reg.CAN_B_TIME u)).toNat)) then
      let s := if isB then setCan s u { s.can[u] with bUsed := used + n, bPeriod := fastPeriod s } else s
      txStart u b f s
    else if isB && decide ((getR s (Reg.CAN_B_TIME u)).toNat < used + n) then
      qMark (canTxQ u) ((s.can[u].txb[b].desc).getD 0) (fun e => { e with waitFrom := some (e.waitFrom.getD (fastPeriod s)) }) s
    else s

/-! ### Receiving (R333, R335, R338) -/

/-- The record of Table 13.5. -/
def frameRecord (f : CanFrame) (own ref : Bool) (ts : Int) : List Byte :=
  let n := f.data.length
  let w0 := f.id.toNat + b2n f.ide * 2 ^ 29 + b2n f.rtr * 2 ^ 30 + b2n f.fdf * 2 ^ 31
  let w1 := f.dlc.toNat + b2n f.brs * 16 + b2n f.esi * 32 + b2n own * 64 + b2n ref * 128 + n * 256
  leBytes 4 w0 ++ leBytes 4 w1 ++ leBytes 8 (unsgn 64 ts) ++ f.data ++ List.replicate ((n + 3) / 4 * 4 - n) 0

/-- A frame goes to the receive ring, or is dropped with rx_drop (R333, Table 13.4). -/
def canRing (u : Fin 16) (f : CanFrame) (own ref : Bool) (s : State) : State :=
  let q := canRxQ u
  let a := descAddrOf s q (qHead s q)
  let r := rxDeliver q false (frameRecord f own ref (now s)) [] s
  if r.2 then
    setCan r.1 u { r.1.can[u] with held := r.1.can[u].held ++ [a] }
  else setB r.1 (Reg.CAN_ALARM u) Reg.CAN_ALARM_rx_drop true

/-- Is the frame a reference message of a record (R338)? -/
def isRef (r : CanRef) (f : CanFrame) : Bool :=
  f.ide == r.ide && f.id.toNat / 8 == r.id / 8

/-- A matching receive message takes the frame; one of another length is counted (R335). A remote frame is no class C message (Table 13.1). -/
def canMatch (u : Fin 16) (f : CanFrame) (s : State) : State :=
  match (s.img.canMsgs.zipIdx).find? fun m =>
      !f.rtr && !m.1.tx && m.1.unit == u.val && m.1.id == f.id.toNat && m.1.ide == f.ide && m.1.fdf == f.fdf with
  | none => s
  | some (m, k) =>
    if m.len = f.data.length then
      let old := ((s.canRx.get? k).getD {}).cur
      { s with canRx := s.canRx.put k { cur := some (now s, f.data), prev := old } }
    else satAdd s (Reg.CAN_ERRS u) Reg.CAN_ERRS_len_mismatch 1

/-- The last reference message on the bus: its mark, and what it says (R338). -/
def canRefMark (u : Fin 16) (sof : Int) (f : CanFrame) (s : State) : State :=
  let d := (f.data.headD 0).toNat
  let m := unsgn 64 sof
  let s := setR (setR s (Reg.CAN_REF_MARK_LO u) (BitVec.ofNat 32 m)) (Reg.CAN_REF_MARK_HI u) (BitVec.ofNat 32 (m / 2 ^ 32))
  let a := Reg.CAN_REF_STATUS u
  setF (setB (setF s a Reg.CAN_REF_STATUS_prio f.id.toNat) a Reg.CAN_REF_STATUS_gap_seen (bit d 7)) a Reg.CAN_REF_STATUS_cycle_count d

/-- BACKUP: another master's reference message came first, and the module does not send in the cycle of a T0 (R338). -/
def canBackup (u : Fin 16) (t0 : Int) (s : State) : State :=
  let s := setCan s u { s.can[u] with refT0 := some t0 }
  setB (setF s (Reg.CAN_REF_STATUS u) Reg.CAN_REF_STATUS_role 2) (Reg.CAN_ALARM u) Reg.CAN_ALARM_ref_backup true

/-- The T0 of the cycle whose reference instant is the last at or before now (R337). -/
def refCycle (s : State) (r : CanRef) : Int :=
  let p := (max 1 (s.img.period r.cls) : Nat)
  (now s - r.offset) / (p : Int) * (p : Int)

/-- Another master's reference message: its mark, and BACKUP when it won arbitration over the module's in this cycle (R338). -/
def canRefSeen (u : Fin 16) (r : CanRef) (sof : Int) (f : CanFrame) (s : State) : State :=
  let s := canRefMark u sof f s
  let x := s.can[u]
  let lost := getF s (txStat u 0) Reg.CAN_TXB_STAT_owner == 2 && getF s (txStat u 0) Reg.CAN_TXB_STAT_result == 2 &&
    x.refT0 == some (refCycle s r) && decide (x.txb[0].sof ≤ sof)
  let s := setCan s u { x with refAt := some (now s) }
  if lost then canBackup u (refCycle s r) s else s

/-! ### Fault confinement (R326, R336) -/

/-- A queue frame's descriptor completes; the buffer is free. -/
def queueDone (u : Fin 16) (b : Fin 32) (ok : Bool) (s : State) : State :=
  match s.can[u].txb[b].desc with
  | none => s
  | some a =>
    let q := canTxQ u
    let d := readDesc s a
    let s := if ok && d.ts then engineWrite q (d.buf + 8) (leBytes 8 (unsgn 64 s.can[u].txb[b].sof)) s else s
    let o := if ok then
        (match s.que[q].fly.find? fun e => e.takenAt == some a && e.outcome.isNone with
          | some e => sentOutcome s e
          | none => (0, 0))
      else (3, 0)
    qComplete q a o.1 o.2 false s

/-- Every pending buffer of a channel completes with BUS_OFF, queue frames REFUSED_BUDGET (R324, R330, R336). -/
def canAllOff (u : Fin 16) (s : State) : State :=
  (List.finRange 32).foldl (fun s b =>
    if s.can[u].txb[b].frame.isSome then
      let s := cancelOut u b 1 (txResult u b 6 s)
      let s := queueDone u b false s
      setTxb s u b {}
    else s) s

/-- The error counters after an event, and the state that they give (R336). In monitoring mode the counters stay at 0 (R326). -/
def canCounts (u : Fin 16) (tec rec : Nat) (s : State) : State :=
  let (tec, rec) := if canMonitor s u then (0, 0) else (min 256 tec, min 255 rec)
  let s := setR s (Reg.CAN_ERRCNT u) (Reg.CAN_ERRCNT_rec.mk' rec ||| Reg.CAN_ERRCNT_tec.mk' tec)
  if !canOnline s u then s
  else if 256 ≤ tec then
    let s := canAllOff u s
    let s := setB s (Reg.CAN_ALARM u) Reg.CAN_ALARM_bus_off true
    setCan s u { s.can[u] with st := if flag s (Reg.CAN_CFG u) Reg.CAN_CFG_auto_recover then .recovering else .busOff }
  else if 128 ≤ tec ∨ 128 ≤ rec then
    let s := if s.can[u].st = .errorPassive then s else setB s (Reg.CAN_ALARM u) Reg.CAN_ALARM_error_passive true
    setCan s u { s.can[u] with st := .errorPassive }
  else setCan s u { s.can[u] with st := .errorActive }

def canTec (s : State) (u : Fin 16) : Nat := getF s (Reg.CAN_ERRCNT u) Reg.CAN_ERRCNT_tec
def canRecCnt (s : State) (u : Fin 16) : Nat := getF s (Reg.CAN_ERRCNT u) Reg.CAN_ERRCNT_rec

/-- An error moves the counters up: by how much, ISO 11898-1 says of what the channel sent and saw (notes/assumptions/102.md). -/
def canConfine (u : Fin 16) (tecUp recUp : Nat) (s : State) : State := canCounts u (canTec s u + tecUp) (canRecCnt s u + recUp) s

/-- An error with these moves takes the channel off the bus. -/
def goesBusOff (s : State) (u : Fin 16) (tecUp : Nat) : Bool := canOnline s u && !canMonitor s u && decide (256 ≤ canTec s u + tecUp)

/-- A frame sent well: the transmit error counter falls by 1. -/
def canSentWell (u : Fin 16) (s : State) : State := canCounts u (canTec s u - 1) (canRecCnt s u) s

/-- A frame received well: the receive error counter falls by 1; from 128 or more it goes to a value from 119 to 127. -/
def canHeardWell (u : Fin 16) (s : State) : State :=
  let n := canRecCnt s u
  if n < 128 then canCounts u (canTec s u) (n - 1) s
  else takeFree (canCounts u (canTec s u) (119 + Config.canRec s.freeCtr % 9) s)

/-- CAN_FRAME_RECEIVE: a valid frame goes to the ring, to a matching message, and to the reference status (R333, R335, R338). A format the
channel's mode does not enable is a protocol exception (Table 13.4). -/
def canFrameReceive (u : Fin 16) (sofC : Nat) (f : CanFrame) (s : State) : State :=
  let s := if s.mode = .boot then s else canSync u s
  if canMode s u = 0 ∨ s.mode = .boot ∨ canOnline s u = false then s
  else if f.fdf && canMode s u == 1 then
    satAdd (setB s (Reg.CAN_ALARM u) Reg.CAN_ALARM_proto_exc true) (Reg.CAN_ERRS u) Reg.CAN_ERRS_proto 1
  else
    let ref := match s.img.canRef u with
      | some r => isRef r f && !f.data.isEmpty && !f.rtr
      | none => false
    let s := canRing u f false ref s
    let s := canHeardWell u (canMatch u f s)
    match s.img.canRef u with
    | some r => if ref then canRefSeen u r (s.time.localAt sofC) f s else s
    | none => s

/-! ### The end of a frame (R328, R331, R332) -/

/-- A payload that waited behind a frame on the bus takes the buffer. -/
def txNext (u : Fin 16) (b : Fin 32) (s : State) : State :=
  match s.can[u].txb[b].later with
  | some (f, o, e) => txLoad u b { frame := some f, opensAt := o, bound := e } s
  | none => setTxb s u b { s.can[u].txb[b] with frame := none, onBus := false, desc := none, later := none }

/-- The clash tracker of a channel after a clash: at 3 on one identifier, id_clash and ID_CLASH (R332). -/
def clash (u : Fin 16) (f : CanFrame) (s : State) : State :=
  let s := satAdd s (Reg.CAN_ERRS u) Reg.CAN_ERRS_clash 1
  let a := Reg.CAN_CLASH u
  let same := decide (0 < getF s a Reg.CAN_CLASH_count) && getF s a Reg.CAN_CLASH_id == f.id.toNat && flag s a Reg.CAN_CLASH_ide == f.ide
  let n := if same then min 3 (getF s a Reg.CAN_CLASH_count + 1) else 1
  let s := setR s a (Reg.CAN_CLASH_count.mk' n ||| Reg.CAN_CLASH_ide.mk' (b2n f.ide) ||| Reg.CAN_CLASH_id.mk' f.id.toNat)
  if n = 3 then
    recEvent (setB s (Reg.CAN_ALARM u) Reg.CAN_ALARM_id_clash true) (0x0100 + u.val) (f.id.toNat + b2n f.ide * 2 ^ 29) 2
  else s

/-- A successful send of the tracked identifier sets the count to 0 (R332). -/
def clashClear (u : Fin 16) (f : CanFrame) (s : State) : State :=
  let a := Reg.CAN_CLASH u
  if getF s a Reg.CAN_CLASH_id == f.id.toNat && flag s a Reg.CAN_CLASH_ide == f.ide then setF s a Reg.CAN_CLASH_count 0 else s

/-- A queue frame waits in a buffer and is not on the bus. -/
def TxBuf.waits (x : TxBuf) : Bool := x.desc.isSome && !x.onBus

/-- Queue frames that wait on a channel that is no longer permitted to send complete REFUSED_BUDGET (R330). -/
def canRefuse (s : State) (u : Fin 16) : State :=
  if canQueueOk s u || s.que[canTxQ u].fly.isEmpty then s
  else (List.finRange 32).foldl (fun (s : State) b =>
    if (s.can[u].txb[b]).waits then queueDone u b false (setB s (txStat u b) Reg.CAN_TXB_STAT_pend false) else s) s

/-- A channel in monitoring mode has its error counters at 0, and is not error passive or bus-off by them (R326): one that was bus-off integrates
again (notes/assumptions/94.md). -/
def canQuiet (s : State) (u : Fin 16) : State :=
  if !canMonitor s u then s
  else
    let s := if getR s (Reg.CAN_ERRCNT u) = 0 then s else setR s (Reg.CAN_ERRCNT u) 0
    match s.can[u].st with
    | .errorPassive => setCan s u { s.can[u] with st := .errorActive }
    | .busOff | .recovering => setCan s u { s.can[u] with st := .integrating }
    | _ => s

/-- No queue frame waits on a channel that is not permitted to send, and a monitoring channel has counted no error (R326, R330). -/
def settleCan (s : State) : State :=
  let s := (List.finRange 16).foldl canQuiet ((List.finRange 16).foldl canRefuse s)
  { s with can := Vector.ofFn fun u =>
      if canQueueOk s u then s.can[u] else { s.can[u] with txb := s.can[u].txb.map fun x => if x.waits then {} else x } }

/-- CAN_FRAME_END: the frame on the bus ends (R328, R330 to R332), with what its error adds to the counters; one that takes the channel to bus-off
completes its frame with BUS_OFF (R336). -/
def canFrameEnd (u : Fin 16) (how : CanEnd) (tecUp recUp : Nat) (s : State) : State :=
  match (List.finRange 32).find? fun b => s.can[u].txb[b].onBus with
  | none => s
  | some b =>
    let x := s.can[u].txb[b]
    match x.frame with
    | none => s
    | some f =>
      let req := flag s (txStat u b) Reg.CAN_TXB_STAT_cancel_req
      let again := x.desc.isSome && !req
      let s := if how = .clash then clash u f s else s
      match how with
      | .sent =>
        let s := clashClear u f (cancelOut u b 2 (txResult u b 1 s))
        let s := if getF s (txStat u b) Reg.CAN_TXB_STAT_owner = 2 then canRefMark u x.sof f s else s
        let s := txNext u b (queueDone u b true s)
        canSentWell u (if flag s (Reg.CAN_CFG u) Reg.CAN_CFG_loopback then canRing u f true false s else s)
      | .lostArb =>
        if again then setTxb s u b { x with onBus := false }
        else if x.desc.isSome then txNext u b (queueDone u b false (cancelOut u b 1 (txResult u b 4 s)))
        else txNext u b (cancelOut u b 1 (txResult u b 2 s))
      | .error | .clash =>
        if goesBusOff s u tecUp then canConfine u tecUp recUp s
        else
          let r := if how = .clash ∧ !x.desc.isSome then 7 else 3
          let s := if again then setTxb s u b { x with onBus := false } else txNext u b (queueDone u b false (cancelOut u b 1 (txResult u b r s)))
          canConfine u tecUp recUp s

/-! ### Reference messages (R337, R338) -/

/-- Another master's reference message was received in the last 10 µs (R338). -/
def refBlocked (s : State) (u : Fin 16) : Bool :=
  match s.can[u].refAt with
  | some x => decide (now s - 10000 ≤ x)
  | none => false

/-- CAN_REFERENCE_SEND: at T0 + offset of a cycle of its class, once for each cycle, an owner's channel starts its reference message, unless another
master's was received up to 10 µs before (R337, R338). -/
def canReferenceSend (u : Fin 16) (s : State) : State :=
  match s.img.canRef u with
  | none => s
  | some r =>
    let p := max 1 (s.img.period r.cls)
    let t0 := refCycle s r
    if canOwner s && busIdleNow s u && s.can[u].txb[0].frame.isNone && edgeAt s (t0 + r.offset) && s.can[u].refT0 != some t0 then
      if refBlocked s u then canBackup u t0 s
      else
        let cc := ((t0 / (p : Int)) % 2 ^ 32).toNat % (r.ccMax + 1)
        let f : CanFrame := { id := BitVec.ofNat 29 (r.id + r.prio), ide := r.ide, rtr := false, fdf := false, brs := false, esi := false
                              dlc := 1, data := [BitVec.ofNat 8 (cc % 64)] }
        let s := setF s (Reg.CAN_REF_STATUS u) Reg.CAN_REF_STATUS_role 1
        let s := txLoad u 0 { frame := some f } (setCan s u { s.can[u] with refT0 := some t0 })
        txStart u 0 f s
    else s

/-! ### Cancel, errors, recovery (R331, R336) -/

/-- One bit of a write of CAN_TXB_CANCEL (Table 13.3). -/
def cancelOne (u : Fin 16) (s : State) (b : Fin 32) : State :=
  let a := txStat u b
  let x := s.can[u].txb[b]
  let owner := getF s a Reg.CAN_TXB_STAT_owner
  if flag s a Reg.CAN_TXB_STAT_cancel_req then s
  else if owner = 1 ∨ owner = 2 then setF s a Reg.CAN_TXB_STAT_cancel 4
  else if x.frame.isNone then setF s a Reg.CAN_TXB_STAT_cancel 3
  else if x.onBus then setB s a Reg.CAN_TXB_STAT_cancel_req true
  else
    let s := setF (txResult u b 4 s) a Reg.CAN_TXB_STAT_cancel 1
    setTxb (queueDone u b false s) u b {}

def canCancel (u : Fin 16) (mask : Word) (s : State) : State :=
  (List.finRange 32).foldl (fun s b => if mask.getLsbD b.val then cancelOne u s b else s) s

/-- CAN_BUS_ERROR: a violation is counted and confined, with what it adds to the counters (R336, Table 13.4). -/
def canBusError (u : Fin 16) (e : CanErr) (tecUp recUp : Nat) (s : State) : State :=
  if canMode s u = 0 ∨ s.mode = .boot then s else
  let s := match e with
    | .bit => satAdd s (Reg.CAN_ERRS u) Reg.CAN_ERRS_bit 1
    | .protocolException =>
      satAdd (setB s (Reg.CAN_ALARM u) Reg.CAN_ALARM_proto_exc true) (Reg.CAN_ERRS u) Reg.CAN_ERRS_proto 1
    | _ => satAdd s (Reg.CAN_ERRS u) Reg.CAN_ERRS_proto 1
  canConfine u tecUp recUp s

/-- A write of CAN_CTRL: svc_tx, and with `recover` the start of bus-off recovery (R336). -/
def canCtrlWrite (u : Fin 16) (v : Word) (s : State) : State :=
  let s := setB s (Reg.CAN_CTRL u) Reg.CAN_CTRL_svc_tx (v.getLsbD 1)
  if v.getLsbD 0 ∧ s.can[u].st = .busOff then setCan s u { s.can[u] with st := .recovering } else s

/-- CAN_RECOVERY_DONE: after 128 occurrences of 11 recessive bits the channel is error active with its counters at 0; an INTEGRATING channel
joins the bus (R324, R336). -/
def canRecoveryDone (u : Fin 16) (s : State) : State :=
  if s.can[u].st = .recovering then
    setCan (setR s (Reg.CAN_ERRCNT u) 0) u { s.can[u] with st := .errorActive }
  else canSync u s

/-! ### The receive window (R334) -/

/-- Word i of the frame under the window; 0 while the ring holds none. -/
def rxwWord (s : State) (u : Fin 16) (i : Nat) : Word :=
  match s.can[u].held with
  | [] => 0
  | a :: _ => BitVec.ofNat 32 (ld s.store ((readDesc s a).buf + 4 * i) 4)

/-- The index of the last word of the frame under the window. -/
def rxwLast (s : State) (u : Fin 16) : Nat := 3 + (bits (rxwWord s u 1).toNat 8 8 + 3) / 4

/-- The descriptor under the window is given back to the hardware: own is set again and the tail advances (R334). -/
def rxwRecycle (u : Fin 16) (s : State) : State :=
  match s.can[u].held with
  | [] => s
  | a :: l =>
    let q := canRxQ u
    let s := engineWrite q (a + 7) [BitVec.ofNat 8 (ld s.store (a + 7) 1 ||| 128)] s
    let s := queTailWrite q (BitVec.ofNat 32 (qTail s q + 1)) s
    setCan s u { s.can[u] with held := l, lock := none }

/-- Descriptors of a receive ring that are posted again, from a tail on, are released (R21, R334). -/
def canReposted (q : Nat) (old : Nat) (s : State) : State :=
  if h : 40 ≤ q ∧ q < 56 then
    let u : Fin 16 := ⟨q - 40, by omega⟩
    let n := (qTail s q + 65536 - old) % 65536
    let l := if n ≤ qSize s q then (List.range n).map fun i => descAddrOf s q (old + i) else []
    setCan s u { s.can[u] with held := s.can[u].held.filter fun a => !l.contains a }
  else s

/-- The window is locked by another master. -/
def rxwBarred (s : State) (u : Fin 16) (m : Master) : Bool :=
  match s.can[u].lock with
  | some (h, _) => h != m
  | none => false

/-- The locks of a master that is reset are released, and the frames stay (R334). -/
def rxwHolderReset (m : Master) (s : State) : State :=
  (List.finRange 16).foldl (fun (s : State) u =>
    match s.can[u].lock with
    | some (h, _) =>
      if h = m then setB (setCan s u { s.can[u] with lock := none }) (Reg.CAN_RX_STATUS u) Reg.CAN_RX_STATUS_lock_timeout true else s
    | none => s) s

/-- A read of CAN_RXW_i by a master: word 0 locks, the last word releases and recycles; another master's read of a locked window gets a
bus error (none). -/
def rxwRead (u : Fin 16) (i : Nat) (m : Master) (s : State) : State × Option Word :=
  if rxwBarred s u m then (s, none)
  else
    let w := rxwWord s u i
    let winMode := flag s (Reg.CAN_RX_CFG u) Reg.CAN_RX_CFG_window
    let isLocked := s.can[u].lock.isSome
    let s := if winMode && !s.can[u].held.isEmpty && (i == 0 || isLocked) then
        setCan s u { s.can[u] with lock := some (m, s.time.c) } else s
    let s := if winMode && isLocked && i != 0 && i == rxwLast s u then rxwRecycle u s else s
    (s, some w)

/-- CAN_RXW_LOCK_TIMEOUT: a lock without a read for 100 µs is released, and the frame stays (R334). -/
def rxwTimeout (u : Fin 16) (s : State) : State :=
  match s.can[u].lock with
  | some (_, c) =>
    if c + usT 100 ≤ s.time.c then
      setB (setCan s u { s.can[u] with lock := none }) (Reg.CAN_RX_STATUS u) Reg.CAN_RX_STATUS_lock_timeout true
    else s
  | none => s

/-! ### Configuration and registers (R324, R327) -/

/-- The buffers' owners after an image commit (R327): 0 the reference message, 1 upward the transmit messages, the rest the queue; unused on an
OFF channel. -/
def canOwners (u : Fin 16) (s : State) : State :=
  let hasRef := (s.img.canRef u).isSome
  let n := (s.img.canTx u).length
  (List.finRange 32).foldl (fun s b =>
    let o := if canMode s u = 0 then 3 else if b.val = 0 then (if hasRef then 2 else 0)
      else if b.val ≤ n then 1 else 0
    setF s (txStat u b) Reg.CAN_TXB_STAT_owner o) s

/-- A committed change of mode or bit timing takes the channel off the bus; it then integrates again (R324), with the buffers' owners as its mode
has them (R327). -/
def canReconfig (u : Fin 16) (s : State) : State :=
  let s := canOwners u (canAllOff u s)
  setCan s u { s.can[u] with st := if canMode s u = 0 then .off else .integrating }

def canStatus (s : State) (u : Fin 16) : Word :=
  Reg.CAN_STATUS_monitor.mk' (b2n (canMonitor s u)) ||| Reg.CAN_STATUS_state.mk' (if s.mode = .boot then 0 else s.can[u].st.code)

def canTxbPend (s : State) (u : Fin 16) : Word :=
  BitVec.ofNat 32 (((List.finRange 32).map fun b => if s.can[u].txb[b].frame.isSome then 2 ^ b.val else 0).sum)

def canRxStatus (s : State) (u : Fin 16) : Word :=
  getR s (Reg.CAN_RX_STATUS u) ||| Reg.CAN_RX_STATUS_held.mk' s.can[u].held.length |||
    (match s.can[u].lock with
      | some (m, _) => Reg.CAN_RX_STATUS_locked.mk' 1 ||| Reg.CAN_RX_STATUS_holder.mk' m.code
      | none => 0)

end Sys2Proof.Machine
end

