-- ==== Sys2Proof/Machine/Rtc.lean ====
section
/-!
DEFINITION. The RTC (chapter "Time of Day and the Event Recorder"): calendar, sets, alarms, supply of its domain, operating hours.
-/
namespace Sys2Proof.Machine

/-! ### The calendar (R383, R384) -/

/-- The Gregorian rule on years since 2000 (R384). -/
def leapYear (y : Nat) : Bool := y % 4 == 0 && (y % 100 != 0 || y % 400 == 0)

/-- The length of a month. -/
def monthDays (y m : Nat) : Nat :=
  match m with
  | 2 => if leapYear y then 29 else 28
  | 4 => 30 | 6 => 30 | 9 => 30 | 11 => 30
  | _ => 31

/-- Days before a month of a year. -/
def daysBefore (y m : Nat) : Nat := ((List.range (m - 1)).map fun i => monthDays y (i + 1)).sum

/-- Days from 2000-01-01 to a date. -/
def dayNumber (c : Cal) : Nat :=
  365 * c.year + (c.year + 3) / 4 - (c.year + 99) / 100 + (c.year + 399) / 400 + daysBefore c.year c.month + (c.day - 1)

/-- 0 Monday to 6 Sunday; 2000-01-01 is a Saturday (R384). -/
def weekday (c : Cal) : Nat := (dayNumber c + 5) % 7

/-- One second later; the flag says that 2399 has passed (R384). -/
def calNext (c : Cal) : Cal × Bool :=
  if c.sec < 59 then ({ c with sec := c.sec + 1 }, false)
  else if c.min < 59 then ({ c with sec := 0, min := c.min + 1 }, false)
  else if c.hour < 23 then ({ c with sec := 0, min := 0, hour := c.hour + 1 }, false)
  else if c.day < monthDays c.year c.month then ({ c with sec := 0, min := 0, hour := 0, day := c.day + 1 }, false)
  else if c.month < 12 then ({ c with sec := 0, min := 0, hour := 0, day := 1, month := c.month + 1 }, false)
  else if c.year < 399 then ({ year := c.year + 1 }, false)
  else ({}, true)

/-- Every field within its range (R386). -/
def Cal.valid (c : Cal) : Bool :=
  decide (c.year ≤ 399) && decide (1 ≤ c.month) && decide (c.month ≤ 12) && decide (1 ≤ c.day) &&
    decide (c.day ≤ monthDays c.year c.month) && decide (c.hour ≤ 23) && decide (c.min ≤ 59) && decide (c.sec ≤ 59)

/-! ### Alarms (R388, R389) -/

/-- The unmasked fields of an alarm match a calendar value. -/
def alarmMatches (a : Alarm) (c : Cal) : Bool :=
  let d := a.date.toNat
  let t := a.time.toNat
  (bit d 24 || bits t 0 6 == c.sec) && (bit d 25 || bits t 8 6 == c.min) && (bit d 26 || bits t 16 5 == c.hour) &&
    (bit d 27 || bits d 0 5 == c.day) && (bit d 28 || bits d 8 4 == c.month)

/-- Both alarms are compared with the value formed at a second boundary; an alarm that fires raises the RTC interrupt (R389). -/
def alarmsFire (r : Rtc) : Rtc :=
  let hit := fun (i : Fin 2) =>
    let a := r.alarms[i]
    bit a.date.toNat 31 && !a.unreach && alarmMatches a r.cal
  { r with
    alarms := Vector.ofFn (fun i => if hit i then { r.alarms[i] with fired := true } else r.alarms[i])
    irq := r.irq || hit 0 || hit 1 }

/-- An unmasked field of an alarm lies outside its own range (R388). -/
def alarmBad (time date : Nat) : Bool :=
  (!bit date 24 && decide (59 < bits time 0 6)) || (!bit date 25 && decide (59 < bits time 8 6)) ||
  (!bit date 26 && decide (23 < bits time 16 5)) || (!bit date 27 && bits date 0 5 == 0) ||
  (!bit date 28 && (bits date 8 4 == 0 || decide (12 < bits date 8 4)))

/-- A combination of day and month that can never match (R388). -/
def alarmUnreach (date : Nat) : Bool :=
  let d := bits date 0 5
  let m := bits date 8 4
  !bit date 27 && !bit date 28 && ((m == 2 && (d == 30 || d == 31)) || (d == 31 && (m == 4 || m == 6 || m == 9 || m == 11)))

/-- A write of RTC_ALM_DATE applies the alarm with the held RTC_ALM_TIME, or is refused (R388). -/
def rtcAlarmWrite (i : Fin 2) (v : Word) (s : State) : State :=
  let r := s.rtc
  let date := v.toNat % 2 ^ 32
  let date := bits date 31 1 * 2 ^ 31 + bits date 24 5 * 2 ^ 24 + bits date 8 4 * 2 ^ 8 + bits date 0 5
  let time := r.almTime[i]
  if alarmBad time.toNat date then { s with rtc := { r with alarmInvalid := true } }
  else
    let a := { r.alarms[i] with time := time, date := BitVec.ofNat 32 date, unreach := alarmUnreach date }
    { s with rtc := { r with alarms := r.alarms.set i a } }

/-! ### Sets and seconds (R385, R386) -/

/-- A set is loaded: integrity word, time_valid, nothing pending (R386). -/
def setLoad (c : Cal) (r : Rtc) : Rtc := { r with cal := c, timeValid := true, integrity := true, pendSet := none }

/-- A write of RTC_SET_TIME (R386). -/
def rtcSet (v : Word) (s : State) : State :=
  let r := { s.rtc with setTime := v &&& 0x801F3F3F }
  let d := r.setDate.toNat
  let t := v.toNat
  let c : Cal := { year := bits d 16 9, month := bits d 8 4, day := bits d 0 5, hour := bits t 16 5, min := bits t 8 6, sec := bits t 0 6 }
  if !c.valid then { s with rtc := { r with dateInvalid := true } }
  else if v.getLsbD 31 then { s with rtc := alarmsFire (setLoad c { r with secC := s.time.c }) }
  else { s with rtc := { r with pendSet := some c } }

/-- One more operating second, in MAIN and HOLDUP (R392): hours saturate. -/
def opSecond (s : State) : State :=
  let r := s.rtc
  if s.pwr.st = .backup then s
  else if r.opS < 3599 then { s with rtc := { r with opS := r.opS + 1 } }
  else { s with rtc := { r with opS := 0, opH := if r.opH = 0xFFFFFFFF then r.opH else r.opH + 1 } }

/-- The recorder's sources that are sampled each second (Table 16.1). -/
def secondSamples (s : State) : State :=
  let s := recSample s 0x20 (sgn 16 (getF s Reg.PWR_CORE Reg.PWR_CORE_tj))
  let s := (List.finRange 8).foldl (fun (s : State) (u : Fin 8) =>
    recSample (recSample s (0x21 + u.val) s.io.ao[u].temp.toInt) (0x40 + u.val) s.io.ao[u].vcomp) s
  let s := recSample s 0x30 (getF s Reg.PWR_CORE Reg.PWR_CORE_vcore)
  let s := recSample s 0x31 (getF s Reg.PWR_FEED Reg.PWR_FEED_feed_a)
  let s := recSample s 0x32 (getF s Reg.PWR_FEED Reg.PWR_FEED_feed_b)
  recSample s 0x33 s.io.loopMv

/-- RTC_SECOND: load a pending set or advance, then compare the alarms (R385). -/
def rtcSecond (s : State) : State :=
  let r := s.rtc
  let r1 := match r.pendSet with
    | some c => setLoad c r
    | none =>
      let n := calNext r.cal
      { r with cal := n.1, timeValid := r.timeValid && !n.2, rolled := r.rolled || n.2 }
  let s := opSecond { s with rtc := alarmsFire { r1 with secC := s.time.c } }
  if s.held then s else secondSamples s

/-! ### Supply of the domain and operating hours (R390 to R392) -/

/-- The domain switches between the supply and the cell (R390); a cell found exhausted while the domain runs from it in BACKUP loses the
integrity word, also when the supply takes over in the same sample (R391). -/
def rtcSupply (supply cell : Nat) (s : State) : State :=
  let r := s.rtc
  let lost := r.onCell && decide (cell < 2000) && s.pwr.st == .backup
  let onCell := if r.onCell then !decide (cell + 200 < supply) else decide (supply < cell + 100)
  { s with rtc := { r with onCell := onCell, integrity := r.integrity && !lost } }

/-- CELL_MEASURE: in MAIN firmware measures the cell (R390). -/
def cellMeasure (mV : Nat) (s : State) : State :=
  if s.pwr.st = .main then
    { s with rtc := { s.rtc with cellMv := BitVec.ofNat 16 mV, cellLow := decide (mV < 2600) } }
  else s

/-- Firmware writes the operating hours to Ballast (R392). -/
def opFlush (s : State) : State := { s with bal := { s.bal with opH := s.rtc.opH, opS := s.rtc.opS } }

/-- What a power-up finds in the RTC domain (R391). A loss is found once: a later power-up keeps every value
(notes/assumptions/9.md). -/
def rtcPowerUp (s : State) : State :=
  if s.rtc.integrity then s
  else
    let r := s.rtc
    recEvent { s with rtc := { r with
      timeValid := false, lost := true, integrity := true, cal := {}, secC := 0, pendSet := none
      alarms := r.alarms.map (fun a => { a with date := a.date &&& 0x7FFFFFFF })
      opH := s.bal.opH, opS := s.bal.opS } } 0x0010 0 2

/-! ### Registers (Table 16.4) -/

def calTime (c : Cal) : Nat := c.hour * 2 ^ 16 + c.min * 2 ^ 8 + c.sec
def calDate (c : Cal) : Nat := weekday c * 2 ^ 28 + c.year * 2 ^ 16 + c.month * 2 ^ 8 + c.day

/-- The sub-second count: crystal periods since the last second boundary, at their nominal rate against the TIME counter. -/
def rtcSub (s : State) : Nat := min 32767 ((s.time.c - s.rtc.secC) * 32768 / secT 1)

def rtcStatus (r : Rtc) : Word :=
  Reg.RTC_STATUS_time_valid.mk' (b2n r.timeValid) ||| Reg.RTC_STATUS_lost.mk' (b2n r.lost) |||
  Reg.RTC_STATUS_rolled.mk' (b2n r.rolled) ||| Reg.RTC_STATUS_cell_low.mk' (b2n r.cellLow) |||
  Reg.RTC_STATUS_set_pending.mk' (b2n r.pendSet.isSome) ||| Reg.RTC_STATUS_date_invalid.mk' (b2n r.dateInvalid) |||
  Reg.RTC_STATUS_alarm_invalid.mk' (b2n r.alarmInvalid) ||| Reg.RTC_STATUS_unreach1.mk' (b2n r.alarms[1].unreach) |||
  Reg.RTC_STATUS_unreach0.mk' (b2n r.alarms[0].unreach) ||| Reg.RTC_STATUS_alarm1.mk' (b2n r.alarms[1].fired) |||
  Reg.RTC_STATUS_alarm0.mk' (b2n r.alarms[0].fired)

/-- A read of a register of the RTC block. -/
def rtcRead (s : State) (a : Nat) : Word :=
  let r := s.rtc
  if a = Reg.RTC_STATUS then rtcStatus r
  else if a = Reg.RTC_TIME then BitVec.ofNat 32 (calTime r.cal)
  else if a = Reg.RTC_DATE then BitVec.ofNat 32 (calDate r.cal)
  else if a = Reg.RTC_SUB then BitVec.ofNat 32 (rtcSub s)
  else if a = Reg.RTC_SET_DATE then r.setDate
  else if a = Reg.RTC_SET_TIME then r.setTime
  else if a = Reg.RTC_ALM_TIME 0 then r.almTime[0]
  else if a = Reg.RTC_ALM_TIME 1 then r.almTime[1]
  else if a = Reg.RTC_ALM_DATE 0 then r.alarms[0].date
  else if a = Reg.RTC_ALM_DATE 1 then r.alarms[1].date
  else if a = Reg.RTC_OPHOURS then r.opH
  else if a = Reg.RTC_OPSEC then BitVec.ofNat 32 r.opS
  else if a = Reg.RTC_PCYCLES then s.bal.pcycles
  else r.cellMv.setWidth 32

/-- A write of a register of the RTC block. RTC_SET_DATE and RTC_ALM_TIME hold their values; RTC_STATUS has W1C bits. -/
def rtcWrite (a : Nat) (v : Word) (s : State) : State :=
  let r := s.rtc
  let clr := fun (i : Nat) (b : Bool) => b && !v.getLsbD i
  if a = Reg.RTC_STATUS then
    { s with rtc := { r with
      lost := clr 30 r.lost, rolled := clr 29 r.rolled, dateInvalid := clr 7 r.dateInvalid, alarmInvalid := clr 6 r.alarmInvalid
      alarms := Vector.ofFn (fun i => { r.alarms[i] with fired := clr i.val r.alarms[i].fired }) } }
  else if a = Reg.RTC_SET_DATE then { s with rtc := { r with setDate := v &&& 0x01FF0F1F } }
  else if a = Reg.RTC_SET_TIME then rtcSet v s
  else if a = Reg.RTC_ALM_TIME 0 then { s with rtc := { r with almTime := r.almTime.set 0 (v &&& 0x001F3F3F) } }
  else if a = Reg.RTC_ALM_TIME 1 then { s with rtc := { r with almTime := r.almTime.set 1 (v &&& 0x001F3F3F) } }
  else if a = Reg.RTC_ALM_DATE 0 then rtcAlarmWrite 0 v s
  else if a = Reg.RTC_ALM_DATE 1 then rtcAlarmWrite 1 v s
  else s

end Sys2Proof.Machine
end

