-- ==== Sys2Proof/Machine/Rec.lean ====
section
/-!
DEFINITION. The recorder (chapter "Time of Day and the Event Recorder"): histograms, the record store, flush to Ballast,
archives and the REC commands.
-/
namespace Sys2Proof.Machine

/-! ### The recorder's accesses to its region (Table 17.1, code 0x0A) -/

/-- A read of the region before an update: false where it delivers no usable data, and the update is then lost (R10, R408,
notes/assumptions/61.md). -/
def regionRead (a n : Nat) (s : State) : State × Bool :=
  let r := engineRead 0x0A 10 a n s
  (r.1, !r.2)

/-- A write of the region: without effect where the ART refuses it. -/
def regionWrite (a : Nat) (b : List Byte) (s : State) : State :=
  match unitAccess 0x0A 10 .write a b.length s with
  | (s, true) => s
  | (s, false) => storeWrite a b s

/-- A read of many lines of the region by a flush or an archive: refused or not. -/
def recCopyRead (n : Nat) (s : State) : State × Bool :=
  if ruled s 10 then unitAccesses 0x0A 10 .read (linesOf recBase n) s else (s, false)

/-! ### Histograms (R393) -/

/-- The bin of a value: base b, width w (0 acts as 1). -/
def histBin (b : Int) (w : Nat) (x : Int) : Nat :=
  if x < b then 0 else min 63 (1 + ((x - b) / (max 1 w : Nat)).toNat)

/-- Count a value in its bin; a bin saturates and sets h_sat. -/
def histCount (h : Nat) (x : Int) (s : State) : State :=
  let j := histBin (getR s (Reg.REC_H_BASE h)).toInt (getR s (Reg.REC_H_WIDTH h)).toNat x
  let a := recBase + 256 * h + 4 * j
  let n := ld s.store a 4
  match regionRead a 4 s with
  | (s, false) => s
  | (s, true) => if n = 0xFFFFFFFF then setB s Reg.REC_STATUS Reg.REC_STATUS_h_sat true else regionWrite a (leBytes 4 (n + 1)) s

/-! ### Records (R395, R396) -/

def recAddr (i : Nat) : Nat := recBase + 0x10000 + 32 * i
def recCode (s : State) (i : Nat) : Nat := ld s.store (recAddr i) 2
def recSev (s : State) (i : Nat) : Nat := ld s.store (recAddr i + 2) 1 % 4
def recParam (s : State) (i : Nat) : Nat := ld s.store (recAddr i + 4) 4
def recValue (s : State) (i : Nat) : Nat := ld s.store (recAddr i + 8) 4

/-- The last time of a record, for comparing ages: power cycle, hours, seconds. -/
def recLast (s : State) (i : Nat) : Nat :=
  ld s.store (recAddr i + 28) 4 * 2 ^ 48 + ld s.store (recAddr i + 20) 4 * 2 ^ 16 + ld s.store (recAddr i + 18) 2

/-- The record with a key. -/
def recFind (s : State) (code param : Nat) : Option Nat :=
  (List.range 1024).find? fun i => recCode s i == code && recParam s i == param

/-- The victim for a new record when the store is full: the lowest severity, then the oldest last time, then the lower slot. -/
def recVictim (s : State) : Nat :=
  (List.range 1024).foldl (fun b i =>
    if decide (recSev s i < recSev s b) || (recSev s i == recSev s b && decide (recLast s i < recLast s b)) then i else b) 0

/-- The slot a new record of a severity takes, none where it is refused (R396). -/
def recSlot (s : State) (sev : Nat) : Option Nat :=
  match (List.range 1024).find? fun i => recCode s i == 0 with
  | some i => some i
  | none =>
    let v := recVictim s
    if recSev s v < sev ∨ (recSev s v = sev ∧ sev < 3) then some v else none

/-- Write a whole record, first and last times being now (Table 16.2). -/
def recNew (s : State) (i code sev param value : Nat) : State :=
  let h := s.rtc.opH.toNat
  let p := s.bal.pcycles.toNat
  let b := leBytes 2 code ++ leBytes 2 (sev % 4) ++ leBytes 4 param ++ leBytes 4 value ++ leBytes 4 h ++ leBytes 2 s.rtc.opS ++
    leBytes 2 s.rtc.opS ++ leBytes 4 h ++ leBytes 4 p ++ leBytes 4 p
  let wasEmpty := recCode s i == 0
  let s := regionWrite (recAddr i) b s
  if wasEmpty && recCode s i != 0 then { s with rcd := { s.rcd with used := s.rcd.used + 1 } } else s

/-- The header's REC_REFUSED and the reports of R399, which the region holds from 0x1_8000 on (R397, notes/assumptions/95.md). -/
def recReports (s : State) : State :=
  let s := regionWrite (recBase + 0x1800C) (leBytes 4 (getR s Reg.REC_REFUSED).toNat) s
  regionWrite (recBase + 0x18040) (leBytes 4 (getR s Reg.REC_SCRUB).toNat ++ leBytes 4 (getR s Reg.REC_WEAR).toNat ++
    leBytes 4 (getR s Reg.REC_WEAR_BAD).toNat ++ leBytes 4 s.rcd.ballastPasses) s

/-- A refused record is counted by its severity. -/
def recRefuse (sev : Nat) (s : State) : State :=
  let s := setB s Reg.REC_STATUS Reg.REC_STATUS_refused true
  recReports (satAdd s Reg.REC_REFUSED (if sev = 3 then Reg.REC_REFUSED_sev3 else Reg.REC_REFUSED_other) 1)

/-- Start a flush, or leave one pending (R398). -/
def startFlush (reason : Nat) (s : State) : State :=
  match s.rcd.flushing with
  | some _ => { s with rcd := { s.rcd with flushPend := some (s.rcd.flushPend.getD reason) } }
  | none => { s with rcd := { s.rcd with flushing := some reason } }

/-- A severity 2 or 3 record, new or updated, starts a fault flush (R398). -/
def faultFlush (sev : Nat) (s : State) : State := if 2 ≤ sev then startFlush 4 s else s

/-- An event: its record's count and last time, or a new record (R395). -/
def recDoEvent (code param sev : Nat) (s : State) : State :=
  match recFind s code param with
  | some i =>
    let a := recAddr i
    match regionRead a 32 s with
    | (s, false) => s
    | (s, true) =>
      let m := st s.store (a + 8) 4 (min 0xFFFFFFFF (recValue s i + 1))
      let m := st m (a + 18) 2 s.rtc.opS
      let m := st m (a + 20) 4 s.rtc.opH.toNat
      let m := st m (a + 28) 4 s.bal.pcycles.toNat
      faultFlush sev (regionWrite a (ldBytes m a 32) s)
  | none =>
    match recSlot s sev with
    | some i => faultFlush sev (recNew s i code sev param 1)
    | none => recRefuse sev s

/-- An extreme record of a histogram: rewritten by a value strictly beyond it (R395). -/
def recExtreme (code h : Nat) (x : Int) (s : State) : State :=
  let sev := getF s (Reg.REC_H_CFG h) Reg.REC_H_CFG_sev
  match recFind s code h with
  | some i =>
    let v := sgn 32 (recValue s i)
    if (code = 0xFF00 ∧ x < v) ∨ (code = 0xFF01 ∧ v < x) then faultFlush sev (recNew s i code sev h (unsgn 32 x)) else s
  | none =>
    match recSlot s sev with
    | some i => faultFlush sev (recNew s i code sev h (unsgn 32 x))
    | none => recRefuse sev s

/-- One update of the recorder. -/
def recApply (u : RecUpd) (s : State) : State :=
  match u with
  | .event code param sev => recDoEvent code param sev s
  | .sample h x =>
    let s := histCount h x s
    if flag s (Reg.REC_H_CFG h) Reg.REC_H_CFG_extremes then recExtreme 0xFF01 h x (recExtreme 0xFF00 h x s) else s

/-- RECORDER_UPDATE: the oldest update of Q61 is applied, unless a flush or an archive reads the region (R397). -/
def recorderUpdate (s : State) : State :=
  if s.rcd.flushing.isSome || s.rcd.archiving then s
  else match s.rcd.queue with
    | [] => s
    | u :: l => wrapAdd (recApply u { s with rcd := { s.rcd with queue := l } }) Reg.REC_SEQ Reg.REC_SEQ_value 2

/-- REC_FEED: a value for a histogram whose source is 0x7F (R393). -/
def recFeed (v : Word) (s : State) : State :=
  let h := v.toNat % 256
  if getF s (Reg.REC_H_CFG h) Reg.REC_H_CFG_src = 0x7F then recPost s (.sample h (getR s Reg.REC_FEED_VAL).toInt) else s

/-! ### Copies in Ballast (R136, R137, R398) -/

/-- The header of a copy in the layout of Table 5.8. -/
def copyHeader (magic : List Byte) (reason : Byte) (seq imageId : Nat) (data t0s : List Byte) (hours : Nat) : List Byte :=
  let b := magic ++ leBytes 2 1 ++ [reason, 0] ++ leBytes 8 seq ++ leBytes 8 imageId ++ leBytes 4 data.length ++
    leBytes 4 (crc32c data).toNat ++ t0s ++ leBytes 4 hours
  b ++ leBytes 4 (crc32c b).toNat

/-- The write sequence number of a complete copy with a magic: both CRCs match (R137). -/
def copySeq (m : SMap 8) (base : Nat) (magic : List Byte) : Option Nat :=
  if ldBytes m base 4 == magic && ld m (base + 60) 4 == (crc32c (ldBytes m base 60)).toNat &&
      ld m (base + 28) 4 == (crc32c (ldBytes m (base + 64) (ld m (base + 24) 4))).toNat then
    some (ld m (base + 8) 8)
  else none

/-- The base of the newest complete copy of two, with its sequence number. -/
def newestCopy (m : SMap 8) (b0 b1 : Nat) (magic : List Byte) : Option (Nat × Nat) :=
  match copySeq m b0 magic, copySeq m b1 magic with
  | some x, some y => if x < y then some (b1, y) else some (b0, x)
  | some x, none => some (b0, x)
  | none, some y => some (b1, y)
  | none, none => none

/-- The copy that a new write takes: the one that does not hold the newest complete capture (R137). -/
def nextCopy (m : SMap 8) (b0 b1 : Nat) (magic : List Byte) : Nat × Nat :=
  match newestCopy m b0 b1 magic with
  | some (b, q) => (if b = b0 then b1 else b0, q + 1)
  | none => (b0, 1)

def lrrc : List Byte := [0x4C, 0x52, 0x52, 0x43]
def recCopy0 : Nat := 0x0202000
def recCopy1 : Nat := 0x0303000
def recSize : Nat := 0x100000

/-- RECORDER_FLUSH: the periodic trigger, every 60 s (R398). -/
def recorderFlush (s : State) : State := startFlush 3 s

/-- RECORDER_FLUSH_DONE: the region is in the alternate copy with its header written last; a pending flush starts (R398). -/
def recorderFlushDone (ok : Bool) (s : State) : State :=
  match s.rcd.flushing with
  | none => s
  | some reason =>
    let rd := recCopyRead recSize s
    let s := rd.1
    let s :=
      if ok && !rd.2 then
        let (base, q) := nextCopy s.ballast recCopy0 recCopy1 lrrc
        let data := ldBytes s.store recBase recSize
        let r : Byte := if reason = 0 then Config.recFlushReason else BitVec.ofNat 8 reason
        let h := copyHeader lrrc r q s.img.id data ((List.range 24).map Config.recHeaderT0) s.rtc.opH.toNat
        { s with ballast := stBytes (stBytes s.ballast (base + 64) data) base h }
      else setB s Reg.REC_STATUS Reg.REC_STATUS_flush_fail true
    { s with rcd := { s.rcd with flushing := s.rcd.flushPend, flushPend := none } }

/-- At BOOT the region is restored from the newest complete copy (R398). -/
def recRestore (s : State) : State :=
  match newestCopy s.ballast recCopy0 recCopy1 lrrc with
  | some (b, _) =>
    let s := { s with store := stBytes s.store recBase (ldBytes s.ballast (b + 64) recSize) }
    { s with rcd := { s.rcd with used := ((List.range 1024).filter fun i => recCode s i != 0).length } }
  | none => s

/-- A pending archive starts, in MAIN (R379, R398). -/
def archiveNext (s : State) : State :=
  if s.rcd.archPend && !s.rcd.archiving && s.pwr.st == .main then { s with rcd := { s.rcd with archiving := true, archPend := false } } else s

/-- An archive copy of bytes 0 to 0x1_87FF of the region is written to the Archive, or fails (R398); the archive area holds 16,384.
In HOLDUP no new one starts (R379): it is left pending. -/
def recorderArchive (ok : Bool) (s : State) : State :=
  if s.pwr.st == .holdup && !s.rcd.archiving then { s with rcd := { s.rcd with archPend := true } }
  else
  let rd := recCopyRead 0x18800 (archiveNext { s with rcd := { s.rcd with archiving := false } })
  let s := rd.1
  if ok && !rd.2 then
    let copy := stBytes SMap.empty 0 (ldBytes s.store recBase 0x18800)
    { s with rcd := { s.rcd with archives := (copy :: s.rcd.archives).take 16384 } }
  else recEvent (setB s Reg.REC_STATUS Reg.REC_STATUS_arch_fail true) 0x000F 0 2

/-! ### Commands (R400) -/

/-- `FLUSH`: starts at once or becomes pending; BUSY while one is pending. Reason 0 here stands for the free reason byte. -/
def recFlushCmd (m : Master) (s : State) : State :=
  if s.mode = .boot then cmdRefused s m Reg.REC_CMD Reg.REC_CMD_STATUS 1
  else if s.rcd.flushPend.isSome then cmdDone s m Reg.REC_CMD_STATUS 1 2
  else startFlush 0 (cmdDone s m Reg.REC_CMD_STATUS 1 0)

/-- `ARCHIVE`. -/
def recArchiveCmd (m : Master) (s : State) : State :=
  if s.mode = .boot then cmdRefused s m Reg.REC_CMD Reg.REC_CMD_STATUS 2
  else if s.rcd.archPend then cmdDone s m Reg.REC_CMD_STATUS 2 2
  else
    let s := cmdDone s m Reg.REC_CMD_STATUS 2 0
    archiveNext { s with rcd := { s.rcd with archPend := true } }

/-- `CLEAR`, in SERVICE only: zeroes every bin and record, records the time, then flushes. Where the ART refuses the recorder a line of them,
nothing is cleared (notes/assumptions/61.md). -/
def recClearCmd (m : Master) (s : State) : State :=
  if s.mode = .service then
    match (if ruled s 10 then unitAccesses 0x0A 10 .write (linesOf recBase 0x1800C) s else (s, false)) with
    | (s, true) => startFlush 0 (cmdDone s m Reg.REC_CMD_STATUS 3 0)
    | (s, false) =>
      let s := cmdDone s m Reg.REC_CMD_STATUS 3 0
      let z := stBytes s.store recBase (List.replicate 0x18000 0)
      let z := stBytes z (recBase + 0x18000) (leBytes 4 s.rtc.opH.toNat ++ leBytes 4 s.rtc.opS ++ leBytes 4 s.bal.pcycles.toNat)
      startFlush 0 (recReports (eccClean recBase 0x1800C { s with store := z, rcd := { s.rcd with used := 0 } }))
  else cmdRefused s m Reg.REC_CMD Reg.REC_CMD_STATUS 3

/-- A write of REC_CMD. -/
def recCmd (m : Master) (v : Word) (s : State) : State :=
  match v.toNat % 16 with
  | 1 => recFlushCmd m s
  | 2 => recArchiveCmd m s
  | 3 => recClearCmd m s
  | c => cmdDone s m Reg.REC_CMD_STATUS c 3

/-! ### Patrols and wear (R399) -/

/-- WEAR at fewer than 64 spare blocks or an erase count of 54,000 (R399). -/
def wearCheck (s : State) : State :=
  let bad := decide (getF s Reg.REC_WEAR Reg.REC_WEAR_spare < 64) || decide (54000 ≤ getF s Reg.REC_WEAR Reg.REC_WEAR_max_erase)
  if bad && !flag s Reg.REC_STATUS Reg.REC_STATUS_wear_alarm then
    recEvent (setB s Reg.REC_STATUS Reg.REC_STATUS_wear_alarm true) 0x0011 0 2
  else s

/-- ARCHIVE_PATROL_READ: relocated pages are counted and the wear report updated. -/
def archivePatrol (relocated spare maxE meanE bad : Nat) (s : State) : State :=
  let s := satAdd s Reg.REC_SCRUB Reg.REC_SCRUB_relocated relocated
  let s := setF (setF s Reg.REC_WEAR Reg.REC_WEAR_spare spare) Reg.REC_WEAR Reg.REC_WEAR_max_erase maxE
  let s := setF (setF s Reg.REC_WEAR_BAD Reg.REC_WEAR_BAD_mean_erase meanE) Reg.REC_WEAR_BAD Reg.REC_WEAR_BAD_bad bad
  wearCheck (recReports s)

/-- BALLAST_PATROL_READ: a pass over every Ballast word is reported. -/
def ballastPatrol (s : State) : State := recReports { s with rcd := { s.rcd with ballastPasses := s.rcd.ballastPasses + 1 } }

/-- A scrub command, with the report of the pass that it ends (R399). -/
def scrubReport (before s : State) : State :=
  if getR before Reg.REC_SCRUB == getR s Reg.REC_SCRUB then s else recReports s

/-- REC_STATUS. -/
def recStatus (s : State) : Word :=
  getR s Reg.REC_STATUS ||| Reg.REC_STATUS_archiving.mk' (b2n s.rcd.archiving) |||
  Reg.REC_STATUS_flushing.mk' (b2n s.rcd.flushing.isSome) ||| Reg.REC_STATUS_used.mk' s.rcd.used

end Sys2Proof.Machine
end

