-- ==== Sys2Proof/Machine/Dio.lean ====
section
/-!
DEFINITION. Digital I/O (chapter "Digital I/O and Current Loops"): input channels and their edges, output stages with their
diagnostics and off periods, and the group supplies.
-/
namespace Sys2Proof.Machine

/-! ### Groups and holds -/

/-- The DIO group of a DI channel, and of a DO channel (Table 14.1). -/
def diGrp (c : Fin 32) : Fin 4 := if c.val < 16 then 0 else 1
def doGrp (c : Fin 32) : Fin 4 := if c.val < 16 then 2 else 3

def setGrp (s : State) (g : Fin 4) (x : DioGrp) : State := { s with io := { s.io with grp := s.io.grp.set g x } }
def setDo (s : State) (c : Fin 32) (x : DoCh) : State := { s with io := { s.io with dout := s.io.dout.set c x } }
def setDi (s : State) (c : Fin 32) (x : DiCh) : State := { s with io := { s.io with di := s.io.di.set c x } }

def doPp (s : State) (c : Fin 32) : Bool := flag s (Reg.DIO_CH_CFG (32 + c)) Reg.DIO_CH_CFG_mode
def doParalleled (s : State) (c : Fin 32) : Bool := flag s (Reg.DIO_CH_CFG (32 + c)) Reg.DIO_CH_CFG_paralleled

/-- PAR_OFF holds a paralleled channel off from an OR on while the module is not owner and while it is isolated (R353, R269). -/
def parOff (s : State) : Bool := s.parHeld

/-- Local outputs are off by the module state (Table 3.3), except that outputs stand as released up to the OR after a handover or STOP. -/
def outOff (s : State) : Bool := s.mode.outputsOff && !s.untilOr

/-- A cause of R349 holds a DO channel off. -/
def doHeldOff (s : State) (c : Fin 32) : Bool :=
  let x := s.io.dout[c]
  let g := s.io.grp[doGrp c]
  outOff s || (doParalleled s c && parOff s) || g.undervolt || g.ovl || g.latched || g.awaitOr ||
    x.ovlUntil.isSome || x.otUntil.isSome || x.isoLost

/-- What the output stage of a DO channel drives: the commanded value or a pulse, unless it is held off (R349). -/
def doDrive (s : State) (c : Fin 32) : Bool :=
  !doHeldOff s c && (s.io.dout[c].cmd || s.io.dout[c].pulseEnd.isSome)

/-- OPEN_WIRE and EXT_DRIVE are not judged on a paralleled channel nor while the group is UNDERVOLT (R348). -/
def extJudged (s : State) (c : Fin 32) : Bool := !doParalleled s c && !s.io.grp[doGrp c].undervolt

/-- OPEN_WIRE is judged with ow_en on a channel that is driven on (Table 14.4). -/
def owJudged (s : State) (c : Fin 32) : Bool :=
  extJudged s c && flag s (Reg.DIO_CH_CFG (32 + c)) Reg.DIO_CH_CFG_ow_en && s.io.dout[c].stage

/-- A PP channel drives its low side: commanded off and not held off (R352, Table 14.4). -/
def lowSide (s : State) (c : Fin 32) : Bool := doPp s c && !doHeldOff s c && !doDrive s c

/-- A channel's output stage follows its drive: DO_PULSE is suppressed while it is held off, an off period restarts the counts of
Table 14.4, a change of side ends what was held, and a flag that is not judged is not live. -/
def settleDo (s : State) (c : Fin 32) : DoCh :=
  let x := s.io.dout[c]
  let on := doDrive s c
  let x := { x with stage := on, pulseEnd := if doHeldOff s c then none else x.pulseEnd }
  let x := if on then { x with rbOnSince := none }
    else { x with okSince := none, coolSince := none, openWire := false, lowSince := none, limSince := if lowSide s c then x.limSince else none }
  { x with openWire := x.openWire && extJudged s c && flag s (Reg.DIO_CH_CFG (32 + c)) Reg.DIO_CH_CFG_ow_en,
           extDrive := x.extDrive && extJudged s c && !on }

/-- Every output stage follows its drive. -/
def settleIo (s : State) : State := { s with io := { s.io with dout := Vector.ofFn fun c => settleDo s c } }

/-- Latch diagnostics of a DIO channel (DIO_CH_DIAG). -/
def latchDio (ch : Nat) (f : Fld) (s : State) : State := setB s (Reg.DIO_CH_DIAG ch) f true

/-- Latch a flag in every channel of a group. -/
def latchGrp (g : Fin 4) (f : Fld) (s : State) : State :=
  (List.range 16).foldl (fun s i => latchDio (16 * g + i) f s) s

/-! ### Inputs (R342 to R344) -/

/-- The filter time of a DI channel in ns (R343); codes above 5 cannot be committed. -/
def filterNs (s : State) (c : Fin 32) : Nat :=
  match getF s (Reg.DIO_CH_CFG c) Reg.DIO_CH_CFG_filter with
  | 1 => 1000 | 2 => 10000 | 3 => 100000 | 4 => 1000000 | 5 => 3000000 | _ => 0

/-- Freeze the edges of a channel whose timestamp lies before an instant (R63, R153). -/
def freezeDi (x : DiCh) (t0 : Int) : DiCh :=
  let go := fun (x : DiCh) (e : Int × Bool) =>
    if e.2 then { x with fzLevel := true, fzRises := x.fzRises + 1, fzRise := some e.1 }
    else { x with fzLevel := false, fzFalls := x.fzFalls + 1, fzFall := some e.1 }
  let x' := (x.wait.filter fun e => decide (e.1 < t0)).foldl go x
  { x' with wait := x.wait.filter fun e => decide (t0 ≤ e.1) }

/-- An accepted edge: level, count, timestamp (R343, R344). While the engine does not execute no snapshot follows, and the edge is
frozen at once. -/
def diEdge (c : Fin 32) (ts : Int) (rise : Bool) (s : State) : State :=
  let x := s.io.di[c]
  let x := { x with level := rise, lastRise := rise, cross := none, wait := x.wait ++ [(ts, rise)] }
  let x := if executing s then x else freezeDi x (ts + 1)
  let s := setDi s c x
  let v := unsgn 64 ts
  let s := setR (setR s (Reg.DIO_CH_TS_LO c) (BitVec.ofNat 32 v)) (Reg.DIO_CH_TS_HI c) (BitVec.ofNat 32 (v / 2 ^ 32))
  let a := if rise then Reg.DIO_CH_RISE c else Reg.DIO_CH_FALL c
  setR s a (getR s a + 1)

/-- DI_CROSSING: the compensated instant of a crossing, rounded down; with filter 0 the crossing is an edge (R343). While the group is
UNDERVOLT the channel detects nothing (R344). -/
def diCrossing (c : Fin 32) (high : Bool) (s : State) : State :=
  let x := s.io.di[c]
  if x.raw = high then s
  else if s.io.grp[diGrp c].undervolt then setDi s c { x with raw := high, cross := none }
  else
    let ts := (now s * 16 - (getF s (Reg.DIO_CH_DELAY c) Reg.DIO_CH_DELAY_delay : Int)) / 16
    let s := setDi s c { x with raw := high, cross := some (ts, s.time.c) }
    if filterNs s c = 0 then diEdge c ts high s else s

/-- DI_FILTER_ACCEPT: a level held for the filter time becomes an edge, stamped with its crossing plus f (R343). -/
def diFilterAccept (c : Fin 32) (s : State) : State :=
  let x := s.io.di[c]
  match x.cross with
  | some (ts, at') =>
    if filterNs s c ≤ 4 * (s.time.c - at') then
      if x.raw = x.level then setDi s c { x with cross := none } else diEdge c (ts + filterNs s c) x.raw s
    else s
  | none => s

/-! ### Output diagnostics (R348, R349) -/

/-- The limit must be held for 5 ms in HS and 1 ms in PP (Table 14.4). -/
def limitT (s : State) (c : Fin 32) : Nat := if doPp s c then msT 1 else msT 5

/-- The summed current of a DO group. -/
def grpCurrent (s : State) (g : Fin 4) : Nat :=
  ((List.finRange 32).map fun c => if doGrp c = g then s.io.dout[c].mA else 0).sum

/-- DO_DIAG_SAMPLE: the sample of one channel drives the times since which the conditions of Table 14.4 hold, and the clearing of
its flags. -/
def doDiagSample (c : Fin 32) (mA : Nat) (readback atLimit : Bool) (junction : Int) (s : State) : State :=
  let n := s.time.c
  let x := s.io.dout[c]
  let x := { x with
    mA := mA, readback := readback
    limSince := since (atLimit && (x.stage || lowSide s c)) x.limSince n
    lowSince := since (decide (mA < 3) && owJudged s c) x.lowSince n
    highSince := since (decide (3 ≤ mA)) x.highSince n
    rbOnSince := since (readback && !x.stage && extJudged s c) x.rbOnSince n
    rbOffSince := since (!readback) x.rbOffSince n
    okSince := since (x.stage && !atLimit) x.okSince n
    coolSince := since (x.stage && decide (junction < 150)) x.coolSince n }
  let x := { x with
    overload := x.overload && !sinceAtLeast s x.okSince (msT 100)
    overtemp := x.overtemp && !sinceAtLeast s x.coolSince (msT 100)
    openWire := x.openWire && !sinceAtLeast s x.highSince (msT 100)
    extDrive := x.extDrive && !sinceAtLeast s x.rbOffSince (msT 1) }
  let s := setDo s c x
  let g := doGrp c
  let i := grpCurrent s g
  setGrp s g { s.io.grp[g] with mA := i, highSince := since (decide (7000 < i)) s.io.grp[g].highSince n }

/-- OVERLOAD: current held at the limit for the time of the mode switches the channel off for 100 ms (Table 14.4). -/
def overload (c : Fin 32) (s : State) : State :=
  let x := s.io.dout[c]
  if (x.stage || lowSide s c) && sinceAtLeast s x.limSince (limitT s c) then
    latchDio (32 + c) Reg.DIO_CH_DIAG_overload
      (setDo s c { x with overload := true, ovlUntil := some (s.time.c + msT 100), limSince := none })
  else s

/-- OVERTEMP: an output junction at 150 °C switches the channel off for 100 ms (Table 14.4). -/
def overtemp (c : Fin 32) (s : State) : State :=
  let x := s.io.dout[c]
  latchDio (32 + c) Reg.DIO_CH_DIAG_overtemp
    (setDo s c { x with overtemp := true, otUntil := some (x.otUntil.getD (s.time.c + msT 100)) })

/-- DO_OFF_PERIOD_END: an ended OVERLOAD period ends; an ended OVERTEMP period ends below 135 °C and is otherwise followed by
another (Table 14.4). -/
def doOffPeriodEnd (c : Fin 32) (junction : Int) (s : State) : State :=
  let x := s.io.dout[c]
  let ended := fun (u : Option Nat) => match u with
    | some e => decide (e ≤ s.time.c)
    | none => false
  let x := if ended x.ovlUntil then { x with ovlUntil := none } else x
  let x := if ended x.otUntil then
      (if junction < 135 then { x with otUntil := none } else { x with otUntil := some (s.time.c + msT 100) })
    else x
  setDo s c x

/-- OPEN_WIRE: driven on with current below 3 mA for 100 ms, where it is judged (Table 14.4). -/
def openWire (c : Fin 32) (s : State) : State :=
  let x := s.io.dout[c]
  if owJudged s c && sinceAtLeast s x.lowSince (msT 100) then
    latchDio (32 + c) Reg.DIO_CH_DIAG_open_wire (setDo s c { x with openWire := true })
  else s

/-- EXT_DRIVE: driven off with readback on for 1 ms, where it is judged (Table 14.4, R352). -/
def extDrive (c : Fin 32) (s : State) : State :=
  let x := s.io.dout[c]
  if extJudged s c && !x.stage && sinceAtLeast s x.rbOnSince (msT 1) then
    latchDio (32 + c) Reg.DIO_CH_DIAG_ext_drive (setDo s c { x with extDrive := true })
  else s

/-! ### Group supplies (R350, R351) -/

/-- The restore condition: every sample at or above 19.2 V for 10 ms (R350). -/
def restoreCond (s : State) (g : Fin 4) : Bool := sinceAtLeast s s.io.grp[g].goodSince (msT 10)

/-- A DO group. -/
def isDoGrp (g : Fin 4) : Bool := decide (2 ≤ g.val)

/-- The supply policy of a DO group after UNDERVOLT or GROUP_OVL: RESTORE waits for a FAST OR, LATCH latches (R350). -/
def applyPolicy (s : State) (g : Fin 4) : DioGrp :=
  let x := s.io.grp[g]
  if isDoGrp g then
    if flag s (Reg.DIO_GRP_CFG g) Reg.DIO_GRP_CFG_policy then { x with latched := true } else { x with awaitOr := true }
  else x

/-- SUPPLY_SAMPLE: the sample of one group. -/
def supplySample (g : Fin 4) (mV : Nat) (s : State) : State :=
  let x := s.io.grp[g]
  setGrp s g { x with
    mV := mV
    low19 := if mV < 19200 then min 5 (x.low19 + 1) else 0
    low15 := if mV < 15000 then min 5 (x.low15 + 1) else 0
    goodSince := since (decide (19200 ≤ mV)) x.goodSince s.time.c }

/-- SAG after five samples below 19.2 V (R350). -/
def sag (g : Fin 4) (s : State) : State :=
  let x := s.io.grp[g]
  if decide (5 ≤ x.low19) && !x.sag then
    latchGrp g Reg.DIO_CH_DIAG_sag (setB (setGrp s g { x with sag := true }) (Reg.DIO_GRP_ALARM g) Reg.DIO_GRP_ALARM_sag true)
  else s

/-- UNDERVOLT after five samples below 15.0 V: a DO group's stages go off, a DI group detects no edges (R344, R350). -/
def undervolt (g : Fin 4) (s : State) : State :=
  let x := s.io.grp[g]
  if decide (5 ≤ x.low15) && !x.undervolt then
    let s := setB (setGrp s g { x with undervolt := true }) (Reg.DIO_GRP_ALARM g) Reg.DIO_GRP_ALARM_undervolt true
    let s := latchGrp g Reg.DIO_CH_DIAG_undervolt s
    { s with io := { s.io with di := Vector.ofFn (fun c =>
        if diGrp c = g then { s.io.di[c] with cross := none } else s.io.di[c]) } }
  else s

/-- SUPPLY_RESTORE: after 10 ms at or above 19.2 V, SAG and UNDERVOLT clear; a DI group takes the present levels without an edge, with the edges before the fault counted, a DO
group follows its policy after UNDERVOLT (R344, R350). -/
def supplyRestore (g : Fin 4) (s : State) : State :=
  let x := s.io.grp[g]
  if restoreCond s g && (x.sag || x.undervolt) then
    let wasUv := x.undervolt
    let s := setGrp s g { x with sag := false, undervolt := false }
    let s := if wasUv then setGrp s g (applyPolicy s g) else s
    if wasUv then
      { s with io := { s.io with di := Vector.ofFn (fun c =>
          if diGrp c = g then
            { freezeDi s.io.di[c] (now s + 1) with level := s.io.di[c].raw, fzLevel := s.io.di[c].raw, cross := none }
          else s.io.di[c]) } }
    else s
  else s

/-- GROUP_OVL: summed current above 7.0 A for 10 ms turns a DO group off for at least 100 ms (Table 14.4). -/
def groupOvl (g : Fin 4) (s : State) : State :=
  let x := s.io.grp[g]
  if isDoGrp g && !x.ovl && sinceAtLeast s x.highSince (msT 10) then
    let s := setGrp s g { x with ovl := true, ovlUntil := s.time.c + msT 100, highSince := none }
    latchGrp g Reg.DIO_CH_DIAG_group_ovl (setB s (Reg.DIO_GRP_ALARM g) Reg.DIO_GRP_ALARM_group_ovl true)
  else s

/-- GROUP_OVL_END: after its 100 ms and with the restore condition, GROUP_OVL clears and the supply policy applies (Table 14.4). -/
def groupOvlEnd (g : Fin 4) (s : State) : State :=
  let x := s.io.grp[g]
  if x.ovl && decide (x.ovlUntil ≤ s.time.c) && restoreCond s g then
    let s := setGrp s g { x with ovl := false }
    setGrp s g (applyPolicy s g)
  else s

/-- A write of DIO_GRP_ACK (R351): without the restore condition it is refused, with it LATCHED clears. -/
def dioGrpAck (g : Fin 4) (v : Word) (s : State) : State :=
  let x := s.io.grp[g]
  if !v.getLsbD 0 then s
  else if !restoreCond s g then setGrp s g { x with ackRefused := true }
  else if x.latched then setGrp s g { x with latched := false, awaitOr := true, ackRefused := false }
  else s

/-- At a FAST OR instant the groups that wait for one drive their commanded values again (R350, R351). -/
def grpsAtFastOr (s : State) : State :=
  { s with io := { s.io with grp := s.io.grp.map fun x => { x with awaitOr := false } } }

/-! ### Registers -/

/-- DIO_CH_STATUS of a DI channel. -/
def diStatus (s : State) (c : Fin 32) : Word :=
  let x := s.io.di[c]
  let g := s.io.grp[diGrp c]
  let typ := getF s (Reg.DIO_GRP_CFG (diGrp c)) Reg.DIO_GRP_CFG_type
  Reg.DIO_CH_STATUS_mode.mk' (typ / (if c.val % 16 < 8 then 1 else 2) % 2) ||| Reg.DIO_CH_STATUS_last_rise.mk' (b2n x.lastRise) |||
  Reg.DIO_CH_STATUS_sag.mk' (b2n g.sag) ||| Reg.DIO_CH_STATUS_undervolt.mk' (b2n g.undervolt) |||
  Reg.DIO_CH_STATUS_level.mk' (b2n x.level)

/-- DIO_CH_STATUS of a DO channel. -/
def doStatus (s : State) (c : Fin 32) : Word :=
  let x := s.io.dout[c]
  let g := s.io.grp[doGrp c]
  Reg.DIO_CH_STATUS_paralleled.mk' (b2n (doParalleled s c)) ||| Reg.DIO_CH_STATUS_mode.mk' (b2n (doPp s c)) |||
  Reg.DIO_CH_STATUS_pulse.mk' (b2n x.pulseEnd.isSome) ||| Reg.DIO_CH_STATUS_par_off.mk' (b2n (doParalleled s c && parOff s)) |||
  Reg.DIO_CH_STATUS_group_ovl.mk' (b2n g.ovl) ||| Reg.DIO_CH_STATUS_latched.mk' (b2n g.latched) |||
  Reg.DIO_CH_STATUS_sag.mk' (b2n g.sag) ||| Reg.DIO_CH_STATUS_undervolt.mk' (b2n g.undervolt) |||
  Reg.DIO_CH_STATUS_ext_drive.mk' (b2n (x.extDrive && extJudged s c)) |||
  Reg.DIO_CH_STATUS_open_wire.mk' (b2n (x.openWire && owJudged s c)) |||
  Reg.DIO_CH_STATUS_overtemp.mk' (b2n x.overtemp) ||| Reg.DIO_CH_STATUS_overload.mk' (b2n x.overload) |||
  Reg.DIO_CH_STATUS_driven.mk' (b2n x.stage) ||| Reg.DIO_CH_STATUS_cmd.mk' (b2n x.cmd) ||| Reg.DIO_CH_STATUS_level.mk' (b2n x.readback)

/-- DIO_CH_STATUS of DIO channel 0 to 63. -/
def dioStatus (s : State) (ch : Nat) : Word :=
  if h : ch < 32 then diStatus s ⟨ch, h⟩ else if h : ch - 32 < 32 then doStatus s ⟨ch - 32, h⟩ else 0

/-- DIO_GRP_STATUS. -/
def grpStatus (s : State) (g : Fin 4) : Word :=
  let x := s.io.grp[g]
  Reg.DIO_GRP_STATUS_ack_refused.mk' (b2n x.ackRefused) |||
  Reg.DIO_GRP_STATUS_restore_wait.mk' (b2n ((x.sag || x.undervolt || x.ovl) && x.goodSince.isSome && !restoreCond s g)) |||
  Reg.DIO_GRP_STATUS_group_ovl.mk' (b2n x.ovl) ||| Reg.DIO_GRP_STATUS_latched.mk' (b2n x.latched) |||
  Reg.DIO_GRP_STATUS_undervolt.mk' (b2n x.undervolt) ||| Reg.DIO_GRP_STATUS_sag.mk' (b2n x.sag)

/-- DIO_GRP_MEAS. -/
def grpMeas (s : State) (g : Fin 4) : Word :=
  Reg.DIO_GRP_MEAS_current.mk' (if isDoGrp g then s.io.grp[g].mA else 0) ||| Reg.DIO_GRP_MEAS_voltage.mk' s.io.grp[g].mV

end Sys2Proof.Machine
end

