-- ==== Sys2Proof/Machine/Real.lean ====
section
/-!
DEFINITION. IEEE 754-2019 binary32, round to nearest with ties to even (R98): exact dyadic values, their rounding, and the
operations the blocks, the Line-Shaft Engine and the analog units use. Subnormals are kept, and no condition stops
anything.
-/
namespace Sys2Proof.Machine

/-- An exact dyadic value m × 2^e. -/
structure Dy where
  m : Int
  e : Int
  deriving DecidableEq, Repr

namespace Dy

def ofInt (x : Int) : Dy := ⟨x, 0⟩
/-- The numerator over 2^e for an exponent not above the value's own. -/
def scale (a : Dy) (e : Int) : Int := a.m * (2 : Int) ^ (a.e - e).toNat
def add (a b : Dy) : Dy := let e := min a.e b.e; ⟨a.scale e + b.scale e, e⟩
def neg (a : Dy) : Dy := ⟨-a.m, a.e⟩
def sub (a b : Dy) : Dy := add a (neg b)
def mul (a b : Dy) : Dy := ⟨a.m * b.m, a.e + b.e⟩
def abs (a : Dy) : Dy := ⟨a.m.natAbs, a.e⟩
def lt (a b : Dy) : Bool := let e := min a.e b.e; decide (a.scale e < b.scale e)
def le (a b : Dy) : Bool := let e := min a.e b.e; decide (a.scale e ≤ b.scale e)
/-- The integer part, toward negative infinity. -/
def floor (a : Dy) : Int := if 0 ≤ a.e then a.m * (2 : Int) ^ a.e.toNat else a.m / (2 : Int) ^ (-a.e).toNat
/-- The integer part, toward zero. -/
def trunc (a : Dy) : Int := if a.m < 0 then -(floor (neg a)) else floor a
/-- The nearest integer, ties to even. -/
def rne (a : Dy) : Int :=
  let f := floor a
  let d := sub a (ofInt f)
  let twice := mul d ⟨2, 0⟩
  if lt twice (ofInt 1) then f else if lt (ofInt 1) twice then f + 1 else if f % 2 = 0 then f else f + 1

end Dy

namespace F32

def posInf : Word := 0x7F800000
def negInf : Word := 0xFF800000
def qnan : Word := 0x7FC00000
/-- The largest finite value, +3.402 823 5 × 10^38 (R97, R99), and its negative. -/
def maxFin : Word := 0x7F7FFFFF
def minFin : Word := 0xFF7FFFFF

def sign (w : Word) : Bool := w.getLsbD 31
def expo (w : Word) : Nat := (w.toNat >>> 23) % 256
def frac (w : Word) : Nat := w.toNat % 2 ^ 23
def isNan (w : Word) : Bool := expo w == 255 && frac w != 0
def isInf (w : Word) : Bool := expo w == 255 && frac w == 0
def isFin (w : Word) : Bool := expo w != 255
def isZero (w : Word) : Bool := w.toNat % 2 ^ 31 == 0
def neg (w : Word) : Word := w ^^^ 0x80000000
def abs (w : Word) : Word := w &&& 0x7FFFFFFF
def zero (s : Bool) : Word := if s then 0x80000000 else 0
def inf (s : Bool) : Word := if s then negInf else posInf

/-- The exact value of a finite binary32. -/
def dy (w : Word) : Dy :=
  let m : Nat := if expo w = 0 then frac w else frac w + 2 ^ 23
  let e : Int := if expo w = 0 then -149 else (expo w : Int) - 150
  ⟨if sign w then -(m : Int) else m, e⟩

/-- Round m × 2^e, with `sticky` a nonzero remainder below m's last bit, to the nearest binary32, ties to even; a zero takes the sign. -/
def round (s : Bool) (m : Nat) (e : Int) (sticky : Bool) : Word :=
  if m = 0 then zero s else
  let bl : Int := (Nat.log2 m : Int) + 1
  let e' : Int := max (e + bl - 24) (-149)
  let sh : Int := e' - e
  let q0 : Nat := if sh ≤ 0 then m <<< (-sh).toNat else m >>> sh.toNat
  let r : Nat := if sh ≤ 0 then 0 else m % 2 ^ sh.toNat
  let half : Nat := if sh ≤ 0 then 1 else 2 ^ (sh.toNat - 1)
  let up : Bool := decide (half < r) || (r == half && (sticky || q0 % 2 == 1))
  let q1 : Nat := if up then q0 + 1 else q0
  let q : Nat := if q1 = 2 ^ 24 then 2 ^ 23 else q1
  let e2 : Int := if q1 = 2 ^ 24 then e' + 1 else e'
  let mag : Nat :=
    if q < 2 ^ 23 then q
    else
      let b : Int := e2 + 150
      if 255 ≤ b then 255 * 2 ^ 23 else b.toNat * 2 ^ 23 + (q - 2 ^ 23)
  BitVec.ofNat 32 (mag + (if s then 2 ^ 31 else 0))

/-- The binary32 nearest to an exact value; an exact zero takes the sign `z`. -/
def ofDy (a : Dy) (z : Bool := false) : Word :=
  if a.m = 0 then zero z else round (decide (a.m < 0)) a.m.natAbs a.e false

def ofInt (x : Int) : Word := ofDy (Dy.ofInt x)

/-- Addition. An exact zero sum is +0 unless both operands are negative zeros. -/
def add (a b : Word) : Word :=
  if isNan a || isNan b then qnan
  else if isInf a then (if isInf b && sign a != sign b then qnan else a)
  else if isInf b then b
  else ofDy (Dy.add (dy a) (dy b)) (sign a && sign b)

def sub (a b : Word) : Word := if isNan b then qnan else add a (neg b)

def mul (a b : Word) : Word :=
  let s := sign a != sign b
  if isNan a || isNan b then qnan
  else if isInf a || isInf b then (if isZero a || isZero b then qnan else inf s)
  else ofDy (Dy.mul (dy a) (dy b)) s

/-- The quotient of two exact values, rounded once (`b` not zero). -/
def divDy (a b : Dy) (z : Bool) : Word :=
  if a.m = 0 then zero z else
  let n := a.m.natAbs <<< 192
  let d := b.m.natAbs
  round (decide (a.m < 0) != decide (b.m < 0)) (n / d) (a.e - b.e - 192) (n % d != 0)

def div (a b : Word) : Word :=
  let s := sign a != sign b
  if isNan a || isNan b then qnan
  else if isInf a then (if isInf b then qnan else inf s)
  else if isInf b then zero s
  else if isZero b then (if isZero a then qnan else inf s)
  else divDy (dy a) (dy b) s

/-- The integer square root of a number below 2^(2k), bit by bit. -/
def isqrt : Nat → Nat → Nat → Nat
  | 0, _, r => r
  | k + 1, n, r => if (r + 2 ^ k) * (r + 2 ^ k) ≤ n then isqrt k n (r + 2 ^ k) else isqrt k n r

/-- Square root, correctly rounded. -/
def sqrt (a : Word) : Word :=
  if isNan a then qnan
  else if isZero a then a
  else if sign a then qnan
  else if isInf a then a
  else
    let d := dy a
    let odd : Bool := d.e % 2 != 0
    let n : Nat := d.m.natAbs <<< (if odd then 65 else 64)
    let e : Int := if odd then d.e - 65 else d.e - 64
    let r := isqrt 46 n 0
    round false r (e / 2) (r * r != n)

/-- Order of finite values and infinities; both zeros are equal. NaN is excluded by the callers. -/
def key (a : Word) : Int := if sign a then -(a.toNat % 2 ^ 31 : Nat) else (a.toNat % 2 ^ 31 : Nat)

def lt (a b : Word) : Bool := !isNan a && !isNan b && decide (key a < key b)
def le (a b : Word) : Bool := !isNan a && !isNan b && decide (key a ≤ key b)
def eq (a b : Word) : Bool := !isNan a && !isNan b && key a == key b

/-- Round to an integer value, toward zero, of a finite value. -/
def toIntTrunc (a : Word) : Int := (dy a).trunc

end F32

end Sys2Proof.Machine
end

