-- ==== Sys2Proof/Machine/Aio.lean ====
section
/-!
DEFINITION. Current-loop outputs and analog inputs (chapter "Digital I/O and Current Loops"), and the firing of time
triggers, whose targets are the local I/O and the capture units (R316, R317).
-/
namespace Sys2Proof.Machine

def setAo (s : State) (u : Fin 8) (x : AoCh) : State := { s with io := { s.io with ao := s.io.ao.set u x } }
def setAi (s : State) (u : Fin 8) (x : AiCh) : State := { s with io := { s.io with ai := s.io.ai.set u x } }

/-! ### Current-loop outputs (R354 to R358) -/

def aoParalleled (s : State) (u : Fin 8) : Bool := flag s (Reg.AO_CFG u) Reg.AO_CFG_paralleled
def aoRange (s : State) (u : Fin 8) : Nat := getF s (Reg.AO_CFG u) Reg.AO_CFG_range

/-- The output limits of a range in REAL mA (Table 14.5): 3.5 or 0, and 22.0 or 24.0. -/
def aoLo (r : Nat) : Word := if r = 0 then 0x40600000 else 0
def aoHi (r : Nat) : Word := if r = 2 then 0x41C00000 else 0x41B00000
/-- The span of a range in mA (Table 14.5). -/
def aoSpan (r : Nat) : Int := if r = 0 then 16 else if r = 1 then 20 else 24

/-- PAR_OFF of a paralleled AO (R358). -/
def aoParOff (s : State) (u : Fin 8) : Bool := aoParalleled s u && parOff s

/-- The channel sources its setpoint: a release has come since START, the state has local outputs, and nothing turns the stage off
(R341, R354, R358). -/
def aoDriving (s : State) (u : Fin 8) : Bool :=
  s.io.ao[u].released && !outOff s && !aoParOff s u && !s.io.ao[u].isoLost

/-- The limited setpoint (R354). -/
def aoSet (s : State) (u : Fin 8) : Word :=
  let x := s.io.ao[u]
  if !x.released then 0
  else if F32.lt x.cmd (aoLo (aoRange s u)) then aoLo (aoRange s u)
  else if F32.lt (aoHi (aoRange s u)) x.cmd then aoHi (aoRange s u)
  else x.cmd

def aoClamped (s : State) (u : Fin 8) : Bool :=
  let x := s.io.ao[u]
  x.released && (F32.lt x.cmd (aoLo (aoRange s u)) || F32.lt (aoHi (aoRange s u)) x.cmd)

/-- The current for which the stage sets its DAC, I × g + o / 10^6, as an exact number of 2^-30 × 10^-6 mA units of 2^e (R357). A channel
that does not drive sources 0 mA. -/
def aoDac (s : State) (u : Fin 8) : Dy :=
  if aoDriving s u then
    let i := F32.dy (aoSet s u)
    let g : Dy := Dy.ofInt (2 ^ 30 + (getR s (Reg.AO_TRIM_GAIN u)).toInt)
    Dy.add (Dy.mul (Dy.mul i g) (Dy.ofInt 1000000)) (Dy.ofInt ((getR s (Reg.AO_TRIM_OFS u)).toInt * 2 ^ 30))
  else ⟨0, 0⟩

/-- OPEN_LOOP and COMPL are judged outside PAR_OFF and the 100 ms after it (R358). -/
def aoJudged (s : State) (u : Fin 8) : Bool :=
  !aoParOff s u && (match s.io.ao[u].parEnd with
    | some e => decide (e + msT 100 ≤ s.time.c)
    | none => true)

/-- AO_READ_SAMPLE: the measurement of a base tick drives the times of R355 and R356 and the clearing of the flags. -/
def aoReadSample (u : Fin 8) (current : Word) (vcomp : Nat) (temp : BitVec 16) (atMax : Bool) (s : State) : State :=
  let n := s.time.c
  let x := s.io.ao[u]
  let set := F32.dy (aoSet s u)
  let rd := F32.dy current
  let span := Dy.ofInt (aoSpan (aoRange s u))
  let diff := Dy.sub set rd
  let judged := aoJudged s u && aoDriving s u
  let short := Dy.lt span (Dy.mul diff (Dy.ofInt 100))
  let within := Dy.le (Dy.mul (Dy.abs diff) (Dy.ofInt 200)) span
  let low := flag s (Reg.AO_CFG u) Reg.AO_CFG_ol_en && Dy.le (Dy.ofInt 1) set && atMax &&
    Dy.lt (Dy.mul rd (Dy.ofInt 5)) (Dy.ofInt 1)
  let x := { x with
    read := current, readAt := some (now s), vcomp := vcomp, temp := temp, atMax := atMax
    shortSince := since (short && judged) x.shortSince n
    okSince := since within x.okSince n
    lowSince := since (low && judged) x.lowSince n }
  setAo s u { x with
    compl := x.compl && !sinceAtLeast s x.okSince (msT 100)
    openLoop := x.openLoop && !Dy.le (Dy.ofInt 1) (Dy.mul rd (Dy.ofInt 2))
    thermal := x.thermal && decide (140 ≤ temp.toInt) }

/-- COMPL after 100 ms below the setpoint by more than 1 % of span; not while OPEN_LOOP is set (R355, R356). -/
def aoCompl (u : Fin 8) (s : State) : State :=
  let x := s.io.ao[u]
  if aoJudged s u && !x.openLoop && sinceAtLeast s x.shortSince (msT 100) && !x.compl then
    setB (setAo s u { x with compl := true }) (Reg.AO_DIAG u) Reg.AO_DIAG_compl true
  else s

/-- OPEN_LOOP after 10 ms below 0.2 mA at maximum compliance (R356). -/
def aoOpenLoop (u : Fin 8) (s : State) : State :=
  let x := s.io.ao[u]
  if aoJudged s u && sinceAtLeast s x.lowSince (msT 10) && !x.openLoop then
    setB (setAo s u { x with openLoop := true }) (Reg.AO_DIAG u) Reg.AO_DIAG_open_loop true
  else s

/-- THERMAL while the output junction is at 140 °C (R356). -/
def aoThermal (u : Fin 8) (s : State) : State :=
  let x := s.io.ao[u]
  if x.thermal then s else setB (setAo s u { x with thermal := true }) (Reg.AO_DIAG u) Reg.AO_DIAG_thermal true

/-- SUPPLY_LOW in every AO while the loop supply lies below 20.0 V (R356). -/
def aoSupplyLow (mV : Nat) (s : State) : State :=
  let low := decide (mV < 20000)
  let s' := { s with io := { s.io with loopMv := mV, loopLow := low } }
  if low && !s.io.loopLow then
    (List.finRange 8).foldl (fun (s : State) (u : Fin 8) => setB s (Reg.AO_DIAG u) Reg.AO_DIAG_supply_low true) s'
  else s'

/-- AO_STATUS. -/
def aoStatus (s : State) (u : Fin 8) : Word :=
  let x := s.io.ao[u]
  Reg.AO_STATUS_clamped.mk' (b2n (aoClamped s u)) ||| Reg.AO_STATUS_at_max.mk' (b2n x.atMax) |||
  Reg.AO_STATUS_supply_low.mk' (b2n s.io.loopLow) ||| Reg.AO_STATUS_par_off.mk' (b2n (aoParOff s u)) |||
  Reg.AO_STATUS_thermal.mk' (b2n x.thermal) ||| Reg.AO_STATUS_compl.mk' (b2n x.compl) |||
  Reg.AO_STATUS_open_loop.mk' (b2n x.openLoop) ||| Reg.AO_STATUS_driving.mk' (b2n (aoDriving s u))

/-- AO_READ elements report FAULT while COMPL, OPEN_LOOP or THERMAL is set (R355, R356). -/
def aoFault (s : State) (u : Fin 8) : Bool := s.io.ao[u].compl || s.io.ao[u].openLoop || s.io.ao[u].thermal

/-- The end of PAR_OFF starts the 100 ms in which OPEN_LOOP and COMPL are not judged (R358). -/
def settleAo (s : State) (u : Fin 8) : AoCh :=
  let x := s.io.ao[u]
  let p := aoParOff s u
  { x with parOff := p, parEnd := if x.parOff && !p then some s.time.c else x.parEnd }

/-! ### Analog inputs (R359) -/

def aiRange (s : State) (u : Fin 8) : Nat := getF s (Reg.AI_CFG u) Reg.AI_CFG_range

/-- A unit is busy for 5 µs after a start (R359). -/
def aiBusy (s : State) (u : Fin 8) : Bool :=
  match s.io.ai[u].startC with
  | some c => decide (s.time.c < c + usT 5)
  | none => false

/-- The REAL value of a code: code × 12.5 / 32,768 V or × 25 / 32,768 mA, rounded once (R359). -/
def aiValue (range : Nat) (code : BitVec 16) : Word :=
  F32.ofDy ⟨code.toInt * 25, if range < 2 then -16 else -15⟩

/-- Is a code above the range by more than 1 % of span (Table 14.6)? In units of 0.01 V or 0.01 mA times 2^16 or 2^15. -/
def aiOver (range : Nat) (code : BitVec 16) : Bool :=
  match range with
  | 0 => decide (1020 * 65536 < code.toInt * 2500)
  | 1 => decide (1010 * 65536 < code.toInt * 2500)
  | 2 => decide (2016 * 32768 < code.toInt * 2500)
  | _ => decide (2020 * 32768 < code.toInt * 2500)

/-- Is a code below the range by more than 1 % of span (Table 14.6)? -/
def aiUnder (range : Nat) (code : BitVec 16) : Bool :=
  match range with
  | 0 => decide (code.toInt * 2500 < -1020 * 65536)
  | 1 => decide (code.toInt * 2500 < -10 * 65536)
  | 2 => decide (code.toInt * 2500 < 384 * 32768)
  | _ => decide (code.toInt * 2500 < -20 * 32768)

/-- Set a latched copy when its live flag rises. -/
def latchRise (a : Nat) (f : Fld) (old new : Bool) (s : State) : State := if new && !old then setB s a f true else s

/-- AI_CONVERSION_DONE: 2.0 µs after the start the result reaches the Central Store, with its faults (R359). -/
def aiConversionDone (u : Fin 8) (code : BitVec 16) (s : State) : State :=
  let x := s.io.ai[u]
  match x.conv with
  | none => s
  | some ts =>
    if s.time.c < x.startC.getD 0 + usT 2 then s else
    let r := aiRange s u
    let o := aiOver r code
    let n := aiUnder r code
    let w := r == 2 && flag s (Reg.AI_CFG u) Reg.AI_CFG_ow_en && decide (code.toInt * 25 < 32768)
    let v := aiValue r code
    let d := Reg.AI_DIAG u
    let s := latchRise d Reg.AI_DIAG_over_range x.overR o s
    let s := latchRise d Reg.AI_DIAG_under_range x.underR n s
    let s := latchRise d Reg.AI_DIAG_wire_break x.wire w s
    let t := unsgn 64 ts
    let s := setR (setR s (Reg.AI_TS_LO u) (BitVec.ofNat 32 t)) (Reg.AI_TS_HI u) (BitVec.ofNat 32 (t / 2 ^ 32))
    let s := setR s (Reg.AI_VALUE u) v
    let s := setR s (Reg.AI_RAW u) (Reg.AI_RAW_seq.mk' (x.seq + 1).toNat ||| Reg.AI_RAW_code.mk' code.toNat)
    setAi s u { x with
      conv := none, code := code, seq := x.seq + 1, overR := o, underR := n, wire := w, prev := x.cur
      cur := some ⟨ts, v, o || n || w || x.shunt⟩ }

/-- SHUNT_OPEN: a current above 30 mA opens the shunt of a current range (R359). -/
def shuntOpen (u : Fin 8) (s : State) : State :=
  let x := s.io.ai[u]
  if decide (2 ≤ aiRange s u) && !x.shunt then
    setB (setAi s u { x with shunt := true, shuntAt := s.time.c }) (Reg.AI_DIAG u) Reg.AI_DIAG_shunt_open true
  else s

/-- SHUNT_TEST: an open shunt closes for a test every second, and opens again if the current is still above 30 mA (R359). -/
def shuntTest (u : Fin 8) (stillOver : Bool) (s : State) : State :=
  let x := s.io.ai[u]
  if x.shunt && decide (x.shuntAt + secT 1 ≤ s.time.c) then
    setAi s u { x with shunt := stillOver, shuntAt := s.time.c }
  else s

/-- AI_STATUS. -/
def aiStatus (s : State) (u : Fin 8) : Word :=
  let x := s.io.ai[u]
  Reg.AI_STATUS_busy.mk' (b2n (aiBusy s u)) ||| Reg.AI_STATUS_shunt_open.mk' (b2n x.shunt) |||
  Reg.AI_STATUS_wire_break.mk' (b2n x.wire) ||| Reg.AI_STATUS_under_range.mk' (b2n x.underR) |||
  Reg.AI_STATUS_over_range.mk' (b2n x.overR)

/-- ISOLATOR_POWER_LOSS: the stage behind the isolator turns off (R341). Units 0 to 63 are DIO channels, 64 to 71 AO units. -/
def isolatorPowerLoss (unit : Fin 72) (s : State) : State :=
  if h : 64 ≤ unit.val then
    let u : Fin 8 := ⟨unit.val - 64, by omega⟩
    setAo s u { s.io.ao[u] with isoLost := true }
  else if h2 : 32 ≤ unit.val then
    let c : Fin 32 := ⟨unit.val - 32, by omega⟩
    setDo s c { s.io.dout[c] with isoLost := true }
  else s

/-! ### Trigger targets (R317) -/

/-- Mark a trigger's firing as without action. -/
def suppress (i : Fin 16) (s : State) : State := setB s (Reg.TTRG_STATUS i) Reg.TTRG_STATUS_suppressed true

/-- AI_START: a conversion on every unit of the mask that is not busy. Triggers that fire at one edge start one conversion (R321). -/
def fireAi (i : Fin 16) (mask : Nat) (s : State) : State :=
  (List.finRange 8).foldl (fun (s : State) (u : Fin 8) =>
    if mask.testBit u.val then
      if s.io.ai[u].startC = some s.time.c then s
      else if aiBusy s u then suppress i s
      else setAi s u { s.io.ai[u] with conv := some (now s), startC := some s.time.c }
    else s) s

/-- DO_PULSE: the channel drives on for the width, or until the later end; only in ACTIVE and SOLO, and while nothing holds the
channel off. -/
def firePulse (i : Fin 16) (c : Fin 32) (width : Nat) (s : State) : State :=
  if executing s && !doHeldOff s c then
    let e := now s + width
    setDo s c { s.io.dout[c] with pulseEnd := some (match s.io.dout[c].pulseEnd with
      | some x => max x e
      | none => e) }
  else suppress i s

/-- The action of a trigger's target. CLASS_START signals T0 and has no further action here: the cycle starts by CYCLE_START. -/
def fireTarget (i : Fin 16) (s : State) : State :=
  let arg := (getR s (Reg.TTRG_ARG i)).toNat
  let w := (getR s (Reg.TTRG_WIDTH i)).toNat
  match getF s (Reg.TTRG_CTL i) Reg.TTRG_CTL_target with
  | 1 => fireAi i arg s
  | 2 => firePulse i ⟨arg % 32, Nat.mod_lt _ (by decide)⟩ w s
  | 3 => capArm ⟨arg % 16, Nat.mod_lt _ (by decide)⟩ w s
  | _ => s

/-- A trigger after the firing of its instant `x`: what a step has left behind it, else its grid goes on. -/
def trigAfter (s : State) (i : Nat) (t : Trig) (x : Int) : Trig :=
  match t.resume with
  | e :: r => { next := some e.1, late := e.2, resume := r }
  | [] => { next := match getF s (Reg.TTRG_CTL i) Reg.TTRG_CTL_timing with
      | 2 => some (x + (getR s (Reg.TTRG_PERIOD i)).toNat)
      | 3 => trigNextFrom s i (x + 1)
      | _ => none }

/-- TRIGGER_FIRE: at the first TIME edge at which local time has reached the scheduled instant (R316, R320). -/
def triggerFire (i : Fin 16) (s : State) : State :=
  let t := s.time.trigs[i]
  match t.next with
  | none => s
  | some x =>
    if now s < x ∨ (s.mode = .boot ∧ flag s (Reg.TTRG_CTL i) Reg.TTRG_CTL_image = true) then s else
    let n := unsgn 64 (now s)
    let s := setB s (Reg.TTRG_STATUS i) Reg.TTRG_STATUS_fired true
    let s := if t.late then setB s (Reg.TTRG_STATUS i) Reg.TTRG_STATUS_late true else s
    let s := setR (setR s (Reg.TTRG_LAST_LO i) (BitVec.ofNat 32 n)) (Reg.TTRG_LAST_HI i) (BitVec.ofNat 32 (n / 2 ^ 32))
    let s := wrapAdd s (Reg.TTRG_COUNT i) Reg.TTRG_COUNT_fires 1
    fireTarget i (setTrig s i (trigAfter s i t x))

/-- DO_PULSE_END: a pulse ends after its width (R317). -/
def doPulseEnd (c : Fin 32) (s : State) : State :=
  match s.io.dout[c].pulseEnd with
  | some e => if e ≤ now s then setDo s c { s.io.dout[c] with pulseEnd := none } else s
  | none => s

end Sys2Proof.Machine
end

