-- ==== Sys2Proof/Machine/Blocks.lean ====
section
/-!
DEFINITION. Block Table entries and the rows of the block types: inputs with their types, outputs, variants, state slots and costs
(Tables 4.1 to 4.12, 5.1, 7.11). The evaluation and the loader both read a block's shape from here.
-/
namespace Sys2Proof.Machine

/-- The operand types (Table 2.5). -/
inductive Typ where
  | bool | int | uint | q16 | real | lint | pos | time
  deriving DecidableEq, Repr

def typOf : Nat → Typ
  | 0 => .bool | 1 => .int | 2 => .uint | 3 => .q16 | 4 => .real | 5 => .lint | 6 => .pos | _ => .time

def Typ.code : Typ → Nat
  | .bool => 0 | .int => 1 | .uint => 2 | .q16 => 3 | .real => 4 | .lint => 5 | .pos => 6 | .time => 7

/-- A two-word type. -/
def Typ.two (t : Typ) : Bool := t == .lint || t == .pos || t == .time

/-- A head or extension entry of the Block Table (Tables 4.1 and 4.3). -/
structure BlkEnt where
  typ : Nat
  cls : Nat
  ext : Bool
  chain : Bool
  wrap : Bool
  qOff : Bool
  t : Nat
  d : Nat
  v : Nat
  n : Nat
  ins : List Nat
  out0 : Nat
  out1 : Nat
  state : Nat
  param : Nat
  uid : Nat
  deriving DecidableEq, Repr

def blkEnt (r : Nat) : BlkEnt :=
  let f := fld r 1 1
  let m := fld r 2 2
  { typ := fld r 0 1, cls := bits f 0 2, ext := bit f 2, chain := bit f 3, wrap := bit f 4, qOff := bit f 5
    t := bits m 0 3, d := bits m 3 3, v := bits m 6 3, n := bits m 9 6
    ins := (List.range 4).map fun i => fld r (4 + 3 * i) 3
    out0 := fld r 16 3, out1 := fld r 19 3, state := fld r 22 2, param := fld r 24 4 % 2 ^ 19, uid := fld r 28 4 }

/-- The eight references of an extension entry (Table 4.3). -/
def extRefs (r : Nat) : List Nat := (List.range 8).map fun i => fld r (4 + 3 * i) 3

/-- A reference's index and bits (Table 4.2). -/
def refIdx (r : Nat) : Nat := bits r 0 17
def refConst (r : Nat) : Bool := bit r 17
def refInv (r : Nat) : Bool := bit r 18

def Image.blkRaw (g : Image) (k : Nat) : Nat := ((g.recs 0x04 0)[k]?).getD 0
def Image.blk (g : Image) (k : Nat) : BlkEnt := blkEnt (g.blkRaw k)
def Image.blkCount (g : Image) : Nat := (g.recs 0x04 0).length
def Image.prm (g : Image) (i : Nat) : Word := BitVec.ofNat 32 (((g.recs 0x04 1)[i]?).getD 0)
def Image.prmCount (g : Image) : Nat := (g.recs 0x04 1).length

/-- The row of a type for an entry: the types of its inputs, its outputs, its state slots and its cost without extension entries. -/
structure Shape where
  ins : List Typ
  out0 : Typ
  out1 : Option Typ := none
  slots : Nat := 0
  cost : Nat
  deriving DecidableEq, Repr

/-- The shape of a type whose t allows only the types listed, with v below a bound and d and n 0. -/
def mkShape (e : BlkEnt) (ts : List Typ) (vmax : Nat) (x : Shape) : Option Shape :=
  if ts.contains (typOf e.t) && decide (e.v < vmax) && e.d == 0 && e.n == 0 then some x else none

/-- The shape of a variadic type: n inputs between two bounds, d and v 0. -/
def mkVar (e : BlkEnt) (ts : List Typ) (lo hi : Nat) (x : Shape) : Option Shape :=
  if ts.contains (typOf e.t) && e.v == 0 && e.d == 0 && decide (lo ≤ e.n) && decide (e.n ≤ hi) then some x else none

def tAny : List Typ := [.bool, .int, .uint, .q16, .real, .lint, .pos, .time]
def tNum : List Typ := [.int, .uint, .q16, .real, .lint, .pos, .time]
def tCnt : List Typ := [.int, .uint, .lint]

/-- Extension entries that N input references need (R85). -/
def extNeed (n : Nat) : Nat := if n ≤ 4 then 0 else (n - 4 + 7) / 8

/-- Conversions that Table 4.9 refuses. -/
def convOk (a b : Typ) : Bool :=
  match a, b with
  | .time, .lint => true
  | .time, .time => true
  | .time, _ => false
  | .lint, .time => true
  | _, .time => false
  | .bool, .pos => false
  | _, _ => true

/-- The least k with 2^k ≥ m. -/
def ceilLog2 (m : Nat) : Nat := if m ≤ 1 then 0 else Nat.log2 (m - 1) + 1

/-- The row of a block (R106 to R113, R203), with the costs of R93; none where the row does not allow t, d, v or n. `p` gives
parameter words from the block's param on, which set the length of AVG and the cost of CURVE. -/
def shape (e : BlkEnt) (p : Nat → Word) : Option Shape :=
  let t := typOf e.t
  let two := t.two
  let w := if two then 1 else 0
  let x := extNeed e.n
  let rep := fun (k : Nat) (u : Typ) => List.replicate k u
  match e.typ with
  | 0x00 => mkShape e tAny 1 { ins := [t], out0 := t, cost := 2 + w }
  | 0x01 => mkVar e [.bool] 2 36 { ins := rep e.n .bool, out0 := .bool, cost := 2 + x }
  | 0x02 => mkVar e [.bool] 2 36 { ins := rep e.n .bool, out0 := .bool, cost := 2 + x }
  | 0x03 => mkVar e [.bool] 2 36 { ins := rep e.n .bool, out0 := .bool, cost := 2 + x }
  | 0x04 => mkShape e [.bool] 1 { ins := [.bool], out0 := .bool, cost := 2 }
  | 0x05 => mkVar e [.int, .uint] 2 36 { ins := rep e.n t, out0 := t, cost := 2 + x }
  | 0x06 => mkVar e [.int, .uint] 2 36 { ins := rep e.n t, out0 := t, cost := 2 + x }
  | 0x07 => mkVar e [.int, .uint] 2 36 { ins := rep e.n t, out0 := t, cost := 2 + x }
  | 0x08 => mkShape e tCnt 1 { ins := [t], out0 := t, cost := 2 + w }
  | 0x09 => mkShape e tCnt 4 { ins := [t, .uint], out0 := t, cost := 2 + w }
  | 0x0A => mkShape e tCnt 1 { ins := [t, .uint], out0 := .bool, cost := 2 + w }
  | 0x0B => mkVar e [.bool] 1 32 { ins := rep e.n .bool, out0 := .uint, cost := 2 + x }
  | 0x0C => if t == .bool && decide (2 ≤ e.v) then none else mkShape e tAny 6 { ins := [t, t], out0 := .bool, cost := 2 + w }
  | 0x0D => mkShape e tNum 1 { ins := [t, t, t], out0 := .bool, cost := 3 + w }
  | 0x0E => mkShape e tAny 1 { ins := [.bool, t, t], out0 := t, cost := 2 + w }
  | 0x0F => mkVar e tAny 2 35 { ins := .uint :: rep e.n t, out0 := t, cost := 2 + extNeed (e.n + 1) + w }
  | 0x10 => mkVar e tNum 2 36 { ins := rep e.n t, out0 := t, cost := 2 + x + w }
  | 0x11 => mkVar e tNum 2 36 { ins := rep e.n t, out0 := t, cost := 2 + x + w }
  | 0x12 => mkVar e [.int, .uint, .q16, .real, .lint, .pos] 2 36 { ins := rep e.n t, out0 := t, cost := 2 + (e.n - 2) + x + w }
  | 0x13 => mkShape e [.int, .uint, .q16, .real, .lint, .pos] 1 { ins := [t, t], out0 := t, cost := 2 + w }
  | 0x14 => mkVar e [.int, .uint, .q16, .real, .lint] 2 36
      { ins := rep e.n t, out0 := t, cost := if t == .lint then 5 + 4 * (e.n - 2) + x else 3 + 2 * (e.n - 2) + x }
  | 0x15 => mkShape e [.int, .uint, .q16, .real, .lint] 1 { ins := [t, t], out0 := t, cost := if t == .lint then 20 else 12 }
  | 0x16 => mkShape e tCnt 1 { ins := [t, t], out0 := t, cost := if t == .lint then 20 else 12 }
  | 0x17 => mkShape e [.int, .q16, .real, .lint] 1 { ins := [t], out0 := t, cost := 2 + w }
  | 0x18 => mkShape e [.int, .q16, .real, .lint, .pos] 1 { ins := [t], out0 := t, cost := 2 + w }
  | 0x19 => mkShape e tCnt 1 { ins := [t, t, t], out0 := t, cost := if t == .lint then 24 else 14 }
  | 0x1A => mkShape e [.real] 1 { ins := [.real], out0 := .real, cost := 12 }
  | 0x1B =>
    let d := typOf e.d
    let c :=
      if (t == .pos && d == .real) || (t == .real && d == .pos) then 4
      else if t == .real || d == .real || t.two || d.two then 3 else 2
    if decide (e.v < 4) && e.n == 0 && convOk t d then some { ins := [t], out0 := d, cost := c } else none
  | 0x1C =>
    let d := typOf e.d
    if t == .time && e.v == 0 && e.n == 0 && [Typ.int, .lint, .real].contains d then
      some { ins := [.time, .time], out0 := d, cost := 3 } else none
  | 0x1D =>
    let d := typOf e.d
    if t == .time && e.v == 0 && e.n == 0 && [Typ.int, .lint].contains d then
      some { ins := [.time, d], out0 := .time, cost := 3 } else none
  | 0x1E => mkShape e [.pos] 1 { ins := [.pos, .pos], out0 := .pos, out1 := some .int, cost := 12 }
  | 0x1F => mkShape e [.q16, .real] 1 { ins := [t, t, t], out0 := t, cost := 3 }
  | 0x20 => mkShape e tNum 1 { ins := [t, t, t], out0 := t, out1 := some .bool, cost := 3 + w }
  | 0x21 => mkShape e [.int, .q16, .real] 2 { ins := [t, t], out0 := t, cost := 3 }
  | 0x22 => mkShape e [.q16, .real] 2 { ins := [t], out0 := t, out1 := some .bool, cost := 18 + ceilLog2 (p 0).toNat }
  | 0x23 => mkShape e tAny 1 { ins := [.uint], out0 := t, cost := 3 + w }
  | 0x24 => if e.qOff then none else mkShape e tAny 1 { ins := [t], out0 := .uint, out1 := some .bool, cost := 2 + w }
  | 0x25 => if e.qOff then none else mkShape e tAny 1 { ins := [t, .bool], out0 := t, cost := 2 + w }
  | 0x26 => if e.qOff then none else mkVar e tAny 2 36 { ins := rep e.n t, out0 := t, out1 := some .uint, cost := 2 + x + w }
  | 0x27 => if e.qOff then none else mkShape e tAny 1 { ins := [t, t], out0 := t, out1 := some .bool, cost := 2 + w }
  | 0x28 => mkShape e [.bool] 1 { ins := [.bool, .bool, .real], out0 := .pos, out1 := some .real, cost := 4 }
  | 0x29 => mkShape e [.bool] 1 { ins := [.bool, .pos, .real, .int, .uint], out0 := .pos, out1 := some .real, cost := 5 }
  | 0x2A => mkShape e [.uint] 1 { ins := [], out0 := .uint, out1 := some .pos, cost := 2 }
  | 0x2B => mkShape e [.bool] 1 { ins := [.bool, .bool, .time, .pos], out0 := .pos, out1 := some .uint, cost := 4 }
  | 0x2C => mkShape e [.bool] 1 { ins := [.bool, .bool, .bool, .uint], out0 := .uint, cost := 3 }
  | 0x2D => mkShape e [.bool] 1 { ins := [], out0 := .bool, out1 := some .time, cost := 3 }
  | 0x2E => mkShape e [.bool] 1 { ins := [], out0 := .uint, out1 := some .uint, cost := 2 }
  | 0x2F | 0x30 | 0x31 => mkShape e [.bool] 2
      { ins := if e.v = 1 then [.bool, .time, .time] else [.bool, .time], out0 := .bool, out1 := some .time, slots := 1
        cost := if e.v = 1 then 6 else 4 }
  | 0x32 => mkShape e [.bool] 2
      { ins := if e.v = 1 then [.bool, .bool, .time, .time] else [.bool, .bool, .time], out0 := .bool, out1 := some .time
        slots := if e.v = 1 then 2 else 1, cost := if e.v = 1 then 7 else 5 }
  | 0x33 | 0x34 => mkShape e tCnt 2 { ins := [.bool, .bool, t], out0 := t, out1 := some .bool, slots := 1, cost := 4 + w }
  | 0x35 => mkShape e tCnt 2
      { ins := [.bool, .bool, .bool, .bool, t], out0 := t, out1 := some .uint, slots := 1, cost := 5 + 1 + w }
  | 0x36 | 0x37 => mkShape e [.bool] 2 { ins := [.bool], out0 := .bool, slots := 1, cost := 2 }
  | 0x38 | 0x39 => mkShape e [.bool] 1 { ins := [.bool, .bool], out0 := .bool, slots := 1, cost := 2 }
  | 0x3A => mkShape e [.int, .q16, .real] 1 { ins := [t, t, t], out0 := .bool, slots := 1, cost := 3 }
  | 0x3B => mkShape e [.real] 1 { ins := [.real, .real], out0 := .real, slots := 1, cost := 18 }
  | 0x3C =>
    let m := (p 0).toNat
    mkShape e [.int, .q16, .real] 1 { ins := [t], out0 := t, slots := 1 + (m + 3) / 4, cost := 6 + (m + 1) / 2 }
  | 0x3D => mkShape e [.real] 2
      { ins := [.real, .real, .bool, .real, .real, .real, .real, .real, .real, .real], out0 := .real, out1 := some .bool, slots := 1
        cost := 44 + 1 }
  | 0x3E => mkShape e [.real] 1
      { ins := [.bool, .real, .real, .time], out0 := .real, out1 := some .bool, slots := 1, cost := 18 }
  | 0x3F => mkShape e [.real] 1 { ins := [.real, .real, .real], out0 := .real, out1 := some .bool, slots := 1, cost := 8 }
  | _ => none

/-- The block's shape in an image. -/
def Image.shape (g : Image) (e : BlkEnt) : Option Shape := Machine.shape e fun i => g.prm (e.param + i)

/-- Every input reference of the head entry k that its shape uses, with its type. -/
def Image.refs (g : Image) (k : Nat) : List (Nat × Typ) :=
  let e := g.blk k
  match g.shape e with
  | none => []
  | some x =>
    let more := (List.range (extNeed x.ins.length)).flatMap fun j => extRefs (g.blkRaw (k + 1 + j))
    (e.ins ++ more).zip x.ins

/-- The words that a reference covers: one or two. -/
def refWords (i : Nat) (t : Typ) : List Nat := if t.two then [i, i + 1] else [i]

/-- The image words that block k reads, and those it writes. -/
def Image.blkReads (g : Image) (k : Nat) : List Nat :=
  (g.refs k).flatMap fun p => if refConst p.1 then [] else refWords (refIdx p.1) p.2

def Image.blkWrites (g : Image) (k : Nat) : List Nat :=
  let e := g.blk k
  match g.shape e with
  | none => []
  | some x =>
    (if bit e.out0 17 then refWords (refIdx e.out0) x.out0 else []) ++
    (match x.out1 with
     | some t => if bit e.out1 17 then refWords (refIdx e.out1) t else []
     | none => [])

/-! ### Order and waves (R34, R90) -/

structure OrdRec where
  block : Nat
  cls : Nat
  start : Bool
  deriving DecidableEq, Repr

def ordRec (r : Nat) : OrdRec := { block := fld r 0 2, cls := fld r 2 1, start := bit (fld r 3 1) 0 }

def Image.order (g : Image) : List OrdRec := (g.recs 0x05 0).map ordRec

/-- Split at the records that open a wave. -/
def splitWaves : List OrdRec → List (List Nat)
  | [] => []
  | r :: l =>
    match splitWaves l, l with
    | w :: ws, r2 :: _ => if r2.start then [r.block] :: w :: ws else (r.block :: w) :: ws
    | _, _ => [[r.block]]

/-- The waves of a class, each a list of blocks in evaluation sequence. -/
def Image.waves (g : Image) (k : Nat) : List (List Nat) := splitWaves (g.order.filter fun r => r.cls == k)

/-- The head entries of a class, in order. -/
def Image.clsBlocks (g : Image) (k : Nat) : List Nat := (g.order.filter fun r => r.cls == k).map (·.block)

/-! ### Chains (Table 5.5) -/

structure ChainRec where
  first : Nat
  count : Nat
  cls : Nat
  retentive : Bool
  uid : Nat
  deriving DecidableEq, Repr

def chainRec (r : Nat) : ChainRec :=
  { first := fld r 0 2, count := fld r 2 2, cls := fld r 4 1, retentive := bit (fld r 5 1) 0, uid := fld r 8 4 }

structure StepRec where
  ta : Nat
  tb : Nat
  na : Nat
  nb : Nat
  act : Nat
  tbEn : Bool
  final : Bool
  tmin : Nat
  deriving DecidableEq, Repr

def stepRec (r : Nat) : StepRec :=
  { ta := fld r 0 3, tb := fld r 3 3, na := fld r 6 2 % 1024, nb := fld r 8 2 % 1024, act := fld r 10 3
    tbEn := bit (fld r 13 1) 0, final := bit (fld r 13 1) 1, tmin := fld r 14 2 }

def Image.chains (g : Image) : List ChainRec := (g.recs 0x06 0).map chainRec
def Image.steps (g : Image) : List StepRec := (g.recs 0x06 1).map stepRec
def Image.step (g : Image) (c : ChainRec) (i : Nat) : StepRec := stepRec (((g.recs 0x06 1)[c.first + i]?).getD 0)

/-- The chains of a class with their numbers, ascending. -/
def Image.clsChains (g : Image) (k : Nat) : List (Nat × ChainRec) :=
  (g.chains.zipIdx.map fun p => (p.2, p.1)).filter fun p => p.2.cls == k

/-- The action words of a chain. -/
def Image.chainActs (g : Image) (c : ChainRec) : List Nat := (List.range c.count).map fun i => refIdx (g.step c i).act

/-- The words that a chain's transitions read. -/
def Image.chainReads (g : Image) (c : ChainRec) : List Nat :=
  (List.range c.count).flatMap fun i =>
    let st := g.step c i
    (if refConst st.ta || st.final then [] else [refIdx st.ta]) ++ (if st.tbEn && !refConst st.tb then [refIdx st.tb] else [])

/-! ### Which class reads and writes a word (R90, R150, R151) -/

/-- The words that a class's blocks and chains write, in order. -/
def Image.clsWrites (g : Image) (k : Nat) : List Nat :=
  (g.clsBlocks k).flatMap g.blkWrites ++ (g.clsChains k).flatMap fun p => g.chainActs p.2

/-- The class reads the word. -/
def Image.clsReads (g : Image) (k n : Nat) : Bool :=
  (g.clsBlocks k).any (fun b => (g.blkReads b).contains n) || (g.clsChains k).any fun p => (g.chainReads p.2).contains n

/-- The class that writes a word. -/
def Image.writer (g : Image) (n : Nat) : Option Nat := [0, 1, 2, 3].find? fun k => (g.clsWrites k).contains n

/-- The fastest class that reads a word; FAST where none does (R143). -/
def Image.reader (g : Image) (n : Nat) : Nat := ([0, 1, 2, 3].find? fun k => g.clsReads k n).getD 0

/-- The class that an output entry goes with (R150): that of the words' writer, or FAST. -/
def Image.entCls (g : Image) (e : SmtEnt) : Nat :=
  (((List.range e.words).map fun i => g.writer (e.sig + i)).findSome? fun o => o).getD 0

end Sys2Proof.Machine
end

