-- ==== Sys2Proof/Machine/BlockEval.lean ====
section
/-!
DEFINITION. Evaluation of the stateless block types (R94 to R112): numbers, rounding, saturation, REAL results and qualities.
-/
namespace Sys2Proof.Machine

/-! ### Quality (R101 to R103, Table 6.1) -/

def qValid : Byte := 0x01
def qStale : Byte := 0x02
def qSubst : Byte := 0x04
def qForced : Byte := 0x08
def qBadCalc : Byte := 0x10
def qLost : Byte := 0x20
def qSim : Byte := 0x40

/-- Usable (R101). -/
def qUsable (q : Byte) : Bool := q &&& 0x37 == 0x01

/-- The quality of an output from the considered inputs (R102). -/
def qOut (cons : List Byte) (bad : Bool) : Byte :=
  let any := (cons.foldl (fun a b => a ||| b) 0) &&& 0x76
  let bad' := bad || (any &&& qBadCalc != 0)
  let valid := cons.all (fun q => q &&& 1 == 1) && !bad
  (any &&& 0x66) ||| (if bad' then qBadCalc else 0) ||| (if valid then qValid else 0)

/-! ### Values (R94 to R99) -/

/-- A raw input as an integer of its type. -/
def ival (t : Typ) (raw : Nat) : Int :=
  match t with
  | .bool => if raw = 0 then 0 else 1
  | .uint => (raw % 2 ^ 32 : Nat)
  | .int | .q16 | .real => sgn 32 raw
  | .lint | .pos | .time => sgn 64 raw

/-- The range of an integer type (R95). -/
def tMin : Typ → Int
  | .bool | .uint => 0
  | .int | .q16 | .real => -2147483648
  | .lint | .pos | .time => -9223372036854775808
def tMax : Typ → Int
  | .bool => 1
  | .uint => 4294967295
  | .int | .q16 | .real => 2147483647
  | .lint | .pos | .time => 9223372036854775807

/-- The bits of an integer of a type. -/
def rawOf (t : Typ) (x : Int) : Nat := if t.two then unsgn 64 x else unsgn 32 x

/-- The nearer end of the range. -/
def sat (t : Typ) (x : Int) : Int := max (tMin t) (min (tMax t) x)

/-- Saturate or wrap into the range of a type (R95). -/
def fit (wrap : Bool) (t : Typ) (x : Int) : Int := if wrap then ival t (rawOf t x) else sat t x

/-- What an evaluation writes: values of out0 and out1, BAD_CALC raised, qualities that take the place of R102, and the considered
inputs where they are not all. -/
structure EvRes where
  y : Option Nat := none
  y2 : Option Nat := none
  bad : Bool := false
  q0 : Option Byte := none
  q1 : Option Byte := none
  cons : Option (List Nat) := none
  deriving DecidableEq, Repr

/-- An integer result. -/
def resI (wrap : Bool) (t : Typ) (x : Int) (bad : Bool := false) : EvRes := { y := some (rawOf t (fit wrap t x)), bad := bad }

/-- A BOOL result. -/
def resB (b : Bool) (bad : Bool := false) : EvRes := { y := some (b2n b), bad := bad }

/-- A REAL result: a NaN is not written, an infinity becomes the largest finite value, each with BAD_CALC (R99). -/
def realOut (w : Word) : Option Nat × Bool :=
  if F32.isNan w then (none, true)
  else if F32.isInf w then (some (if F32.sign w then F32.minFin else F32.maxFin).toNat, true)
  else (some w.toNat, false)

def resR (w : Word) (bad : Bool := false) : EvRes :=
  let r := realOut w
  { y := r.1, bad := bad || r.2 }

/-- A value passed on as it is, in its own type. -/
def resV (t : Typ) (raw : Nat) : EvRes :=
  match t with
  | .real => resR (BitVec.ofNat 32 raw)
  | .bool => resB (raw != 0)
  | _ => { y := some raw }

/-- Order of REAL values with −0.0 below +0.0 (R107). -/
def totKey (w : Word) : Int := if F32.sign w then -(w.toNat % 2 ^ 31 : Nat) - 1 else (w.toNat % 2 ^ 31 : Nat)

/-- Round num / 2^k to an integer: 0 nearest even, 1 toward zero, 2 down, 3 up (R109). -/
def roundDy (v : Nat) (a : Dy) : Int :=
  match v with
  | 0 => a.rne
  | 1 => a.trunc
  | 2 => a.floor
  | _ => -(Dy.neg a).floor

/-- Division by zero in DIV and MULDIV (R97). -/
def divZero (t : Typ) (num : Int) : EvRes :=
  { y := some (rawOf t (if 0 < num then tMax t else if num < 0 then tMin t else 0)), bad := true }

/-- A Q16 product (R96). -/
def qMul (a b : Int) : Int := (a * b + 2 ^ 15) / 2 ^ 16

/-- A fused multiply-add with one rounding (R110). -/
def fma (x k c : Word) : Word :=
  if F32.isFin x && F32.isFin k then
    if F32.isFin c then
      let p := Dy.mul (F32.dy x) (F32.dy k)
      F32.ofDy (Dy.add p (F32.dy c)) (F32.sign c && (F32.sign x != F32.sign k))
    else if F32.isNan c then F32.qnan else c
  else F32.add (F32.mul x k) c

/-- REAL minimum and maximum; a NaN operand gives a NaN. -/
def rMin (a b : Word) : Word := if F32.isNan a || F32.isNan b then F32.qnan else if totKey b < totKey a then b else a
def rMax (a b : Word) : Word := if F32.isNan a || F32.isNan b then F32.qnan else if totKey a < totKey b then b else a

/-! ### Conversions (Table 4.9) -/

/-- The exact value of a non-REAL input. -/
def exactOf (t : Typ) (x : Int) : Dy :=
  match t with
  | .q16 => ⟨x, -16⟩
  | .pos => ⟨x, -32⟩
  | _ => ⟨x, 0⟩

/-- CONV from type `t` to type `d` with rounding `v` (R109). -/
def conv (wrap : Bool) (t d : Typ) (v : Nat) (raw : Nat) : EvRes :=
  let w : Word := BitVec.ofNat 32 raw
  if t == .real && F32.isNan w then { bad := true } else
  let zero := if t == .real then F32.isZero w else raw == 0
  let a : Dy := if t == .real then (if F32.isInf w then ⟨if F32.sign w then -1 else 1, 200⟩ else F32.dy w) else exactOf t (ival t raw)
  let out := fun (x : Int) => ({ y := some (rawOf d (if t == .real then sat d x else fit wrap d x)) } : EvRes)
  match d with
  | .bool => resB (!zero)
  | .int | .uint | .lint | .time => out (roundDy v a)
  | .q16 => out (roundDy v (Dy.mul a ⟨1, 16⟩))
  | .pos => out (roundDy v (Dy.mul a ⟨1, 32⟩))
  | .real => if t == .real then resR w else resR (F32.ofDy a)

/-! ### Lookup (R111) -/

/-- The segment of a curve that x lies in: the last i with x_i ≤ x, at most m − 2; `lt a b` compares raw words. -/
def curveSeg (lt : Word → Word → Bool) (xs : Nat → Word) (x : Word) : Nat → Nat
  | 0 => 0
  | i + 1 => if lt x (xs (i + 1)) then curveSeg lt xs x i else i + 1

/-- CURVE over parameter words. -/
def curve (real wrap : Bool) (v : Nat) (p : Nat → Word) (x : Word) : EvRes :=
  let m := (p 0).toNat
  let xs := fun i => p (1 + 2 * i)
  let ys := fun i => p (2 + 2 * i)
  let lt : Word → Word → Bool := if real then F32.lt else fun a b => decide (a.toInt < b.toInt)
  let low := lt x (xs 0)
  let high := lt (xs (m - 1)) x
  let out := if low || high then 1 else 0
  let top := !low && !high && !lt x (xs (m - 1))
  let hold := fun (y : Word) => if real then resR y else ({ y := some y.toNat } : EvRes)
  let i := if low then 0 else curveSeg lt xs x (m - 2)
  let r :=
    if real && F32.isNan x then { bad := true }
    else if top then hold (ys (m - 1))
    else if low && v == 0 then hold (ys 0)
    else if high && v == 0 then hold (ys (m - 1))
    else if real then
      resR (F32.add (ys i) (F32.div (F32.mul (F32.sub x (xs i)) (F32.sub (ys (i + 1)) (ys i))) (F32.sub (xs (i + 1)) (xs i))))
    else
      resI wrap .q16 ((ys i).toInt + (((x.toInt - (xs i).toInt) * ((ys (i + 1)).toInt - (ys i).toInt)).tdiv ((xs (i + 1)).toInt - (xs i).toInt)))
  { r with y2 := some out }

/-- TABLE over parameter words. -/
def lookup (t : Typ) (p : Nat → Word) (k : Nat) : EvRes :=
  let m := (p 0).toNat
  let bad := decide (m ≤ k)
  let i := if bad then m - 1 else k
  let raw := if t.two then (p (1 + 2 * i)).toNat + 2 ^ 32 * (p (2 + 2 * i)).toNat else (p (1 + i)).toNat
  let r := resV t raw
  { r with bad := r.bad || bad }

/-! ### The types 0x00 to 0x27 -/

/-- What a block reads in an evaluation: its entry, the raw inputs with their qualities, parameter words from its param on. -/
structure EvIn where
  e : BlkEnt
  x : List Nat
  q : List Byte
  p : Nat → Word

def EvIn.raw (a : EvIn) (i : Nat) : Nat := (a.x[i]?).getD 0
def EvIn.qual (a : EvIn) (i : Nat) : Byte := (a.q[i]?).getD 0
def EvIn.t (a : EvIn) : Typ := typOf a.e.t
def EvIn.int (a : EvIn) (i : Nat) : Int := ival a.t (a.raw i)
def EvIn.word (a : EvIn) (i : Nat) : Word := BitVec.ofNat 32 (a.raw i)
def EvIn.b (a : EvIn) (i : Nat) : Bool := a.raw i != 0
def EvIn.real (a : EvIn) : Bool := a.t == .real
def EvIn.ints (a : EvIn) : List Int := a.x.map (ival a.t)
def EvIn.words (a : EvIn) : List Word := a.x.map fun r => BitVec.ofNat 32 r

/-- The bits of a bitwise operand. -/
def bitW (t : Typ) : Nat := if t.two then 64 else 32

/-- SHIFT (R106). -/
def shiftEval (t : Typ) (v raw s : Nat) : Nat :=
  let w := bitW t
  let neg := t != .uint && raw.testBit (w - 1)
  match v with
  | 0 => if w ≤ s then 0 else (raw <<< s) % 2 ^ w
  | 1 =>
    if w ≤ s then (if neg then 2 ^ w - 1 else 0)
    else (raw >>> s) + (if neg then 2 ^ w - 2 ^ (w - s) else 0)
  | 2 => let k := s % w; ((raw <<< k) + (raw >>> (w - k))) % 2 ^ w
  | _ => let k := s % w; ((raw <<< (w - k)) + (raw >>> k)) % 2 ^ w

/-- The six comparisons. -/
def cmpV (v : Nat) (lt eq : Bool) : Bool :=
  match v with
  | 0 => eq | 1 => !eq | 2 => lt | 3 => lt || eq | 4 => !(lt || eq) | _ => !lt

/-- CMP (R107). -/
def cmpEval (a : EvIn) : EvRes :=
  if a.real then
    let x := a.word 0
    let y := a.word 1
    if F32.isNan x || F32.isNan y then resB (a.e.v == 1) true
    else resB (cmpV a.e.v (F32.lt x y) (F32.eq x y))
  else resB (cmpV a.e.v (decide (a.int 0 < a.int 1)) (decide (a.int 0 = a.int 1)))

/-- RANGE (R107). -/
def rangeEval (a : EvIn) : EvRes :=
  if a.real then
    let x := a.word 0
    let lo := a.word 1
    let hi := a.word 2
    if F32.isNan x || F32.isNan lo || F32.isNan hi || F32.lt hi lo then resB false true
    else resB (F32.le lo x && F32.le x hi)
  else if a.int 2 < a.int 1 then resB false true
  else resB (decide (a.int 1 ≤ a.int 0) && decide (a.int 0 ≤ a.int 2))

/-- MUX (R107). -/
def muxEval (a : EvIn) : EvRes :=
  let bad := decide (a.e.n ≤ a.raw 0)
  let k := if bad then a.e.n - 1 else a.raw 0
  let r := resV a.t (a.raw (1 + k))
  { r with bad := r.bad || bad, cons := some [0, 1 + k] }

/-- MIN and MAX (R107). -/
def minMaxEval (a : EvIn) (f : Word → Word → Word) (g : Int → Int → Int) : EvRes :=
  if a.real then
    match a.words with
    | [] => {}
    | x :: l => resR (l.foldl f x)
  else
    match a.ints with
    | [] => {}
    | x :: l => { y := some (rawOf a.t (l.foldl g x)) }

/-- ADD (R108): an exact sum fitted once, or REAL additions in order. -/
def addEval (a : EvIn) : EvRes :=
  if a.real then
    match a.words with
    | [] => {}
    | x :: l => resR (l.foldl F32.add x)
  else resI a.e.wrap a.t a.ints.sum

/-- One multiplication of MUL (R96, R108). -/
def mulStep (wrap : Bool) (t : Typ) (x y : Int) : Int := fit wrap t (if t == .q16 then qMul x y else x * y)

/-- MUL (R108): in input order, each step rounded and fitted. -/
def mulEval (a : EvIn) : EvRes :=
  if a.real then
    match a.words with
    | [] => {}
    | x :: l => resR (l.foldl F32.mul x)
  else
    match a.ints with
    | [] => {}
    | x :: l => { y := some (rawOf a.t (l.foldl (mulStep a.e.wrap a.t) x)) }

/-- DIV (R96, R97). -/
def divEval (a : EvIn) : EvRes :=
  if a.real then
    let x := a.word 0
    let y := a.word 1
    if F32.isZero y then
      if F32.isNan x then { bad := true }
      else if F32.isZero x then { y := some 0, bad := true }
      else { y := some (if F32.sign x then F32.minFin else F32.maxFin).toNat, bad := true }
    else resR (F32.div x y)
  else if a.int 1 = 0 then divZero a.t (a.int 0)
  else if a.t == .q16 then resI a.e.wrap a.t ((a.int 0 * 2 ^ 16).tdiv (a.int 1))
  else resI a.e.wrap a.t ((a.int 0).tdiv (a.int 1))

/-- TDIFF (R109). -/
def tdiffEval (a : EvIn) : EvRes :=
  let d := ival .time (a.raw 0) - ival .time (a.raw 1)
  let t := typOf a.e.d
  if t == .real then resR (F32.divDy ⟨d, 0⟩ ⟨1000000000, 0⟩ false) else resI a.e.wrap t d

/-- POSMOD (R109). -/
def posmodEval (a : EvIn) : EvRes :=
  let p := a.int 0
  let m := a.int 1
  if m ≤ 0 then { bad := true }
  else { y := some (rawOf .pos (p % m)), y2 := some (rawOf .int (fit a.e.wrap .int (p / m))) }

/-- SCALE (R110). -/
def scaleEval (a : EvIn) : EvRes :=
  if a.real then resR (fma (a.word 0) (a.word 1) (a.word 2))
  else resI a.e.wrap .q16 ((a.int 0 * a.int 1 + a.int 2 * 2 ^ 16 + 2 ^ 15) / 2 ^ 16)

/-- LIMIT (R110). -/
def limitEval (a : EvIn) : EvRes :=
  if a.real then
    let lo := a.word 0
    let x := a.word 1
    let hi := a.word 2
    let y := rMin (rMax x lo) hi
    let r := resR y (F32.lt hi lo)
    { r with y2 := some (b2n (!F32.eq y x)) }
  else
    let y := min (max (a.int 1) (a.int 0)) (a.int 2)
    { y := some (rawOf a.t y), y2 := some (b2n (y != a.int 1)), bad := decide (a.int 2 < a.int 0) }

/-- DEADBAND (R110). -/
def deadbandEval (a : EvIn) : EvRes :=
  if a.real then
    let x := a.word 0
    let bad := F32.lt (a.word 1) 0
    let w : Word := if bad then 0 else a.word 1
    if F32.le (F32.abs x) w then resR 0 bad
    else if a.e.v = 1 then resR x bad
    else resR (if F32.sign x then F32.add x w else F32.sub x w) bad
  else
    let x := a.int 0
    let bad := decide (a.int 1 < 0)
    let w := max 0 (a.int 1)
    if (x.natAbs : Int) ≤ w then resI a.e.wrap a.t 0 bad
    else if a.e.v = 1 then resI a.e.wrap a.t x bad
    else resI a.e.wrap a.t (if x < 0 then x + w else x - w) bad

/-- QGET, QSET, QSEL and QSUBST (R112): a value that R99 does not write sets BAD_CALC in the table's qualities, and so does an infinity that R99
writes as the largest finite value (notes/assumptions/87.md). -/
def qTab (r : EvRes) (y2 : Option Nat) (q0 q1 : Byte) : EvRes :=
  let f := fun (q : Byte) => if r.y.isNone || r.bad then q ||| qBadCalc else q
  { r with y2 := if r.y.isNone then none else y2, q0 := some (f q0), q1 := some (f q1) }

def qselEval (a : EvIn) : EvRes :=
  let n := a.e.n
  let k := ((List.range n).find? fun i => qUsable (a.qual i)).getD n
  let i := if k = n then 0 else k
  qTab (resV a.t (a.raw i)) (some k) (a.qual i &&& 0x77) qValid

def qsubstEval (a : EvIn) : EvRes :=
  if qUsable (a.qual 0) then qTab (resV a.t (a.raw 0)) (some 0) (a.qual 0 &&& 0x77) qValid
  else qTab (resV a.t (a.raw 1)) (some 1) ((a.qual 1 &&& 0x77) ||| qSubst) qValid

def qsetEval (a : EvIn) : EvRes :=
  let r := resV a.t (a.raw 0)
  if a.b 1 then qTab r none (a.p 0).toNat qValid else { r with cons := some [0] }

/-- The stateless types 0x00 to 0x27 (R106 to R112). -/
def evalPure (a : EvIn) : EvRes :=
  let t := a.t
  match a.e.typ with
  | 0x00 => resV t (a.raw 0)
  | 0x01 => resB (a.x.all (· != 0))
  | 0x02 => resB (a.x.any (· != 0))
  | 0x03 => resB ((a.x.filter (· != 0)).length % 2 == 1)
  | 0x04 => resB (!a.b 0)
  | 0x05 => { y := some (a.x.foldl (· &&& ·) (2 ^ 32 - 1)) }
  | 0x06 => { y := some (a.x.foldl (· ||| ·) 0) }
  | 0x07 => { y := some (a.x.foldl (· ^^^ ·) 0) }
  | 0x08 => { y := some (2 ^ bitW t - 1 - a.raw 0) }
  | 0x09 => { y := some (shiftEval t a.e.v (a.raw 0) (a.raw 1)) }
  | 0x0A => if bitW t ≤ a.raw 1 then resB false true else resB ((a.raw 0).testBit (a.raw 1))
  | 0x0B => { y := some (((a.x.take a.e.n).zipIdx.map fun p => if p.1 = 0 then 0 else 2 ^ p.2).sum) }
  | 0x0C => cmpEval a
  | 0x0D => rangeEval a
  | 0x0E =>
    let k := if a.b 0 then 2 else 1
    { resV t (a.raw k) with cons := some [0, k] }
  | 0x0F => muxEval a
  | 0x10 => minMaxEval a rMin min
  | 0x11 => minMaxEval a rMax max
  | 0x12 => addEval a
  | 0x13 => if a.real then resR (F32.sub (a.word 0) (a.word 1)) else resI a.e.wrap t (a.int 0 - a.int 1)
  | 0x14 => mulEval a
  | 0x15 => divEval a
  | 0x16 => if a.int 1 = 0 then { y := some 0, bad := true } else resI a.e.wrap t ((a.int 0).tmod (a.int 1))
  | 0x17 => if a.real then resR (F32.abs (a.word 0)) else resI a.e.wrap t (a.int 0).natAbs
  | 0x18 => if a.real then resR (F32.neg (a.word 0)) else resI a.e.wrap t (-(a.int 0))
  | 0x19 => if a.int 2 = 0 then divZero t (a.int 0 * a.int 1) else resI a.e.wrap t ((a.int 0 * a.int 1).tdiv (a.int 2))
  | 0x1A => resR (F32.sqrt (a.word 0))
  | 0x1B => conv a.e.wrap t (typOf a.e.d) a.e.v (a.raw 0)
  | 0x1C => tdiffEval a
  | 0x1D => resI a.e.wrap .time (ival .time (a.raw 0) + ival (typOf a.e.d) (a.raw 1))
  | 0x1E => posmodEval a
  | 0x1F => scaleEval a
  | 0x20 => limitEval a
  | 0x21 => deadbandEval a
  | 0x22 => curve a.real a.e.wrap a.e.v a.p (a.word 0)
  | 0x23 => lookup t a.p (a.raw 0)
  | 0x24 => { y := some (a.qual 0).toNat, y2 := some (b2n (qUsable (a.qual 0))), q0 := some qValid, q1 := some qValid }
  | 0x25 => qsetEval a
  | 0x26 => qselEval a
  | 0x27 => qsubstEval a
  | _ => {}

/-- The qualities that an evaluation writes to its two outputs (R102, R103). -/
def EvIn.quals (a : EvIn) (r : EvRes) : Byte × Byte :=
  let cons := match r.cons with
    | some l => l.map a.qual
    | none => a.q
  let q := if a.e.qOff then (if r.bad then qBadCalc else qValid) else qOut cons r.bad
  ((r.q0).getD q, (r.q1).getD q)

/-- A value that out0 does not get, out1 does not get either (R104). -/
def EvRes.trim (r : EvRes) : EvRes := if r.y.isNone then { r with y2 := none } else r

end Sys2Proof.Machine
end

