-- ==== Sys2Proof/Machine/StateEval.lean ====
section
/-!
DEFINITION. Evaluation of the stateful block types (R113 to R128): state slots, edges, latches, timers, counters, filters, ramps and
the controller.
-/
namespace Sys2Proof.Machine

/-- What a stateful evaluation reads beside the inputs: Δ and now (R117), and the block's slots, each as one number. -/
structure StIn extends EvIn where
  delta : Nat
  now : Int
  slots : List Nat

/-- What it leaves: the outputs, the slots where out0 is written, and those where it is not (R118). -/
structure StRes where
  r : EvRes
  slots : List Nat
  keep : List Nat

def StIn.slot (a : StIn) (i : Nat) : Nat := (a.slots[i]?).getD 0

/-- live (R115). -/
def StIn.live (a : StIn) : Bool := bit (a.slot 0) 127

/-- The flag bit k of byte 15 of the first slot, 0 at the first evaluation. -/
def StIn.mem (a : StIn) (k : Nat) : Bool := a.live && bit (a.slot 0) (120 + k)

/-- A field of the first slot, 0 at the first evaluation. -/
def StIn.fld (a : StIn) (off n : Nat) : Nat := if a.live then Machine.fld (a.slot 0) off n else 0

/-- The first slot with live set: bytes 0 to 7, bytes 8 to 11, and flag bits. -/
def mkSlot (lo hi flags : Nat) : Nat := lo % 2 ^ 64 + (hi % 2 ^ 32) * 2 ^ 64 + (flags % 128) * 2 ^ 120 + 2 ^ 127

/-- The first slot with its edge memories replaced and everything else as it was (R118). -/
def keepMem (old mask flags : Nat) : Nat :=
  let b := bits old 120 8
  old - b * 2 ^ 120 + ((b &&& (255 - mask)) ||| (flags &&& mask)) * 2 ^ 120

/-- Δ in seconds (R117). -/
def StIn.ds (a : StIn) : Word := F32.divDy ⟨a.delta, 0⟩ ⟨1000000000, 0⟩ false

/-- A result of a block with one slot and no edge memory. -/
def stOne (a : StIn) (r : EvRes) (slot : Nat) : StRes := { r := r, slots := [slot], keep := [a.slot 0] }

/-- A switch left this memory for the next evaluation to set (Table 8.4, R211): marks 0 and 1 for the memories of a counter, 2 for the prev of a
controller. An evaluation reads and leaves the marks in bits 123 to 125 of the first slot, which the Store holds as 0 (`splitMarks`). -/
def StIn.unset (a : StIn) (k : Nat) : Bool := bit (a.slot 0) (123 + k)

/-- An edge memory at this evaluation: as stored, or by init at the first (R119). -/
def StIn.edge (a : StIn) (k : Nat) (present : Bool) : Bool :=
  if a.live && !a.unset k then bit (a.slot 0) (120 + k) else if a.e.v = 1 then false else present

/-! ### Edges and latches (Table 5.3) -/

def trigEval (a : StIn) (fall : Bool) : StRes :=
  let x := a.b 0
  let m := a.edge 0 x
  let q := if fall then !x && m else x && !m
  { r := resB q, slots := [mkSlot 0 0 (b2n x)], keep := [keepMem (a.slot 0) 1 (b2n x)] }

def latchEval (a : StIn) (setDom : Bool) : StRes :=
  let q := a.mem 1
  let s := a.b 0
  let r := a.b 1
  let q' := if setDom then s || (q && !r) else !r && (s || q)
  stOne a (resB q') (mkSlot 0 0 (2 * b2n q'))

def hystEval (a : StIn) : StRes :=
  let q := a.mem 1
  let lt := fun (i j : Nat) => if a.real then F32.lt (a.word i) (a.word j) else decide (a.int i < a.int j)
  let bad := lt 2 1
  let q' := if bad then q else if lt 2 0 then true else if lt 0 1 then false else q
  stOne a (resB q' bad) (mkSlot 0 0 (2 * b2n q'))

/-! ### Timers (R121 to R123) -/

/-- A timer's memory: et of mode 0 or start of mode 1, m, run, done, and hold of a mode-1 TONR. -/
structure TmSt where
  x : Int
  m : Bool
  run : Bool
  done : Bool
  hold : Int
  deriving DecidableEq, Repr

/-- What a timer evaluates with: Δ, now, pt' and the edge instant s with whether using it raises BAD_CALC (R122). -/
structure TmIn where
  mode : Bool
  delta : Int
  now : Int
  pt : Int
  s : Int
  sBad : Bool

/-- begin(): the memory, et, and BAD_CALC. -/
def tmBegin (i : TmIn) (t : TmSt) : TmSt × Int × Bool :=
  if i.mode then ({ t with x := i.s, done := false }, min (max (i.now - i.s) 0) i.pt, i.sBad)
  else ({ t with x := 0, done := false }, 0, false)

/-- advance(). -/
def tmAdvance (i : TmIn) (t : TmSt) : TmSt × Int × Bool :=
  if i.mode then (t, min (max (i.now - t.x) 0) i.pt, false)
  else
    let et := min (t.x + i.delta) i.pt
    ({ t with x := et }, et, false)

/-- et = 0; in mode 1 the start is kept, since et is not stored. -/
def tmZero (i : TmIn) (t : TmSt) : TmSt × Int × Bool :=
  ({ t with x := if i.mode then t.x else 0, done := false }, 0, false)

/-- An evaluation that sets no et (R123); a stored et above pt' falls to pt' (R122). -/
def tmNone (i : TmIn) (t : TmSt) : TmSt × Int × Bool :=
  if i.mode then (t, if t.done then i.pt else 0, false)
  else
    let et := min t.x i.pt
    ({ t with x := et }, et, false)

def tonEval (i : TmIn) (x : Bool) (t : TmSt) : TmSt × Bool × Int × Bool :=
  let p := if !x then tmZero i t else if !t.m then tmBegin i t else tmAdvance i t
  ({ p.1 with m := x }, x && decide (i.pt ≤ p.2.1), p.2.1, p.2.2)

/-- Clear run when et has reached pt'. -/
def tmEnd (i : TmIn) (t : TmSt) (et : Int) : TmSt :=
  if t.run && decide (i.pt ≤ et) then { t with run := false, done := true } else t

def tofEval (i : TmIn) (x : Bool) (t : TmSt) : TmSt × Bool × Int × Bool :=
  let p : TmSt × Int × Bool :=
    if x then
      let z := tmZero i t
      ({ z.1 with run := false }, z.2)
    else if t.m then
      let z := tmBegin i t
      ({ z.1 with run := true }, z.2)
    else if t.run then tmAdvance i t
    else tmNone i t
  let t := tmEnd i p.1 p.2.1
  ({ t with m := x }, x || t.run, p.2.1, p.2.2)

def tpEval (i : TmIn) (x : Bool) (t : TmSt) : TmSt × Bool × Int × Bool :=
  let p : TmSt × Int × Bool :=
    if !t.run && x && !t.m then
      let z := tmBegin i t
      ({ z.1 with run := true }, z.2)
    else if t.run then tmAdvance i t
    else tmNone i t
  let t := tmEnd i p.1 p.2.1
  let p : TmSt × Int × Bool :=
    if !t.run && !x then
      let z := tmZero i t
      (z.1, z.2.1, p.2.2)
    else (t, p.2)
  ({ p.1 with m := x }, p.1.run, p.2.1, p.2.2)

def tonrEval (i : TmIn) (x rst : Bool) (t : TmSt) : TmSt × Bool × Int × Bool :=
  let p : TmSt × Int × Bool :=
    if rst then ({ t with x := if i.mode then t.x else 0, hold := 0, done := false }, 0, false)
    else if !i.mode then
      (if x && t.m then tmAdvance i t
       else
         let et := min t.x i.pt
         ({ t with x := et }, et, false))
    else if x && !t.m then ({ t with x := i.s }, min (t.hold + max (i.now - i.s) 0) i.pt, i.sBad)
    else if x then (t, min (t.hold + max (i.now - t.x) 0) i.pt, false)
    else if t.m then
      let h := min (t.hold + max (i.s - t.x) 0) i.pt
      ({ t with hold := h }, h, i.sBad)
    else (t, t.hold, false)
  let et := p.2.1
  let t := if !rst && x && decide (i.pt ≤ et) then { p.1 with done := true } else p.1
  ({ t with m := x }, t.done && decide (i.pt ≤ et), max 0 (min et i.pt), p.2.2)

/-- A timer block: memory from its slots, evaluation, memory to its slots. -/
def timerEval (a : StIn) : StRes :=
  let tonr := a.e.typ == 0x32
  let mode := a.e.v == 1
  let k := if tonr then 1 else 0
  let pt := ival .time (a.raw (1 + k))
  let ts := ival .time (a.raw (2 + k))
  let lo := a.now - a.delta
  let usable := qUsable (a.qual (2 + k))
  let i : TmIn :=
    { mode := mode, delta := a.delta, now := a.now, pt := max pt 0
      s := if usable then max lo (min ts a.now) else a.now
      sBad := usable && (decide (ts < lo) || decide (a.now < ts)) }
  let t : TmSt :=
    { x := sgn 64 (a.fld 0 8), m := a.mem 0, run := a.mem 1, done := a.mem 2
      hold := if a.live then sgn 64 (Machine.fld (a.slot 1) 0 8) else 0 }
  let r :=
    match a.e.typ with
    | 0x2F => tonEval i (a.b 0) t
    | 0x30 => tofEval i (a.b 0) t
    | 0x31 => tpEval i (a.b 0) t
    | _ => tonrEval i (a.b 0) (a.b 1) t
  let t' := r.1
  let s0 := mkSlot (unsgn 64 t'.x) 0 (b2n t'.m + 2 * b2n t'.run + 4 * b2n t'.done)
  { r := { y := some (b2n r.2.1), y2 := some (rawOf .time r.2.2.1), bad := r.2.2.2 || decide (pt < 0) }
    slots := if tonr && mode then [s0, unsgn 64 t'.hold] else [s0]
    keep := a.slots }

/-! ### Counters (R125, R126) -/

def counterEval (a : StIn) : StRes :=
  let t := a.t
  let cv := ival t (a.fld 0 8)
  let step := fun (d : Int) => fit a.e.wrap t (cv + d)
  match a.e.typ with
  | 0x33 =>
    let cu := a.b 0
    let cv' := if a.b 1 then 0 else if cu && !a.edge 0 cu then step 1 else cv
    stOne a { y := some (rawOf t cv'), y2 := some (b2n (decide (a.int 2 ≤ cv'))) } (mkSlot (rawOf t cv') 0 (b2n cu))
  | 0x34 =>
    let cd := a.b 0
    let cv' := if a.b 1 then a.int 2 else if cd && !a.edge 0 cd then step (-1) else cv
    stOne a { y := some (rawOf t cv'), y2 := some (b2n (decide (cv' ≤ 0))) } (mkSlot (rawOf t cv') 0 (b2n cd))
  | _ =>
    let cu := a.b 0
    let cd := a.b 1
    let up := cu && !a.edge 0 cu
    let dn := cd && !a.edge 1 cd
    let cv' :=
      if a.b 2 then 0 else if a.b 3 then a.int 4
      else if up && !dn then step 1 else if dn && !up then step (-1) else cv
    stOne a { y := some (rawOf t cv'), y2 := some (b2n (decide (a.int 4 ≤ cv')) + 2 * b2n (decide (cv' ≤ 0))) }
      (mkSlot (rawOf t cv') 0 (b2n cu + 2 * b2n cd))

/-! ### Filters, ramps and the controller (R127, R128) -/

/-- A negative REAL used as 0, with BAD_CALC. -/
def nonNeg (x : Word) : Word × Bool := if F32.lt x 0 then (0, true) else (x, false)

/-- The REAL in a slot field. -/
def StIn.rfld (a : StIn) (off : Nat) : Word := BitVec.ofNat 32 (Machine.fld (a.slot 0) off 4)

def filtEval (a : StIn) : StRes :=
  let x := a.word 0
  let tf := nonNeg (a.word 1)
  let y0 := if a.live then a.rfld 0 else x
  let alpha := F32.div a.ds (F32.add tf.1 a.ds)
  let y := F32.add y0 (F32.mul alpha (F32.sub x y0))
  let r := if a.live then resR y tf.2 else resR x tf.2
  stOne a r (mkSlot (r.y.getD 0) 0 0)

def rateEval (a : StIn) : StRes :=
  let x := a.word 0
  let up := nonNeg (a.word 1)
  let dn := nonNeg (a.word 2)
  let y0 := if a.live then a.rfld 0 else x
  let du := F32.mul up.1 a.ds
  let dd := F32.mul dn.1 a.ds
  let g := F32.sub x y0
  let p : Word × Bool :=
    if !a.live then (x, false)
    else if F32.lt du g then (F32.add y0 du, true)
    else if F32.lt g (F32.neg dd) then (F32.sub y0 dd, true)
    else (x, false)
  let r := resR p.1 (up.2 || dn.2)
  let r := { r with y2 := some (b2n p.2) }
  stOne a r (mkSlot (r.y.getD 0) 0 0)

/-- Sample k of an AVG window, from its slots. -/
def avgGet (slots : List Nat) (k : Nat) : Nat := Machine.fld ((slots[1 + k / 4]?).getD 0) (4 * (k % 4)) 4

def avgPut (slots : List Nat) (k v : Nat) : List Nat :=
  let o := (slots[1 + k / 4]?).getD 0
  slots.set (1 + k / 4) (o - Machine.fld o (4 * (k % 4)) 4 * 2 ^ (32 * (k % 4)) + v % 2 ^ 32 * 2 ^ (32 * (k % 4)))

def avgEval (a : StIn) : StRes :=
  let w := (a.p 0).toNat
  let pos := a.fld 0 2
  let cnt := a.fld 2 2
  let slots := if a.live then a.slots else a.slots.map fun _ => 0
  let slots := avgPut slots pos (a.raw 0)
  let pos' := (pos + 1) % w
  let cnt' := min (cnt + 1) w
  let xs := (List.range cnt').map fun i => avgGet slots ((pos' + w - cnt' + i) % w)
  let r : EvRes :=
    if a.real then
      match xs.map fun x => BitVec.ofNat 32 x with
      | [] => {}
      | x :: l => resR (F32.div (l.foldl F32.add x) (F32.ofInt cnt'))
    else { y := some (rawOf a.t (((xs.map (ival a.t)).sum).tdiv (cnt' : Int))) }
  { r := r, slots := slots.set 0 (mkSlot (pos' + cnt' * 2 ^ 16) 0 0), keep := a.slots }

def rampEval (a : StIn) : StRes :=
  let run := a.b 0
  let y0 := a.word 1
  let y1 := a.word 2
  let tr := ival .time (a.raw 3)
  let tr' := max tr 0
  let el0 := sgn 64 (a.fld 0 8)
  let el : Int := if run && a.mem 0 then min (el0 + a.delta) tr' else 0
  let done := run && decide (tr' ≤ el)
  let y :=
    if !run then y0 else if done then y1
    else F32.add y0 (F32.mul (F32.sub y1 y0) (F32.div (F32.ofInt el) (F32.ofInt tr')))
  let r := resR y (decide (tr < 0))
  { r := { r with y2 := some (b2n done) }, slots := [mkSlot (unsgn 64 el) 0 (b2n run)], keep := [keepMem (a.slot 0) 1 (b2n run)] }

def pidEval (a : StIn) : StRes :=
  let sp := a.word 0
  let pv := a.word 1
  let man := a.b 2
  let trk := a.word 3
  let kp := a.word 4
  let ti := a.word 5
  let td := a.word 6
  let tdf := a.word 7
  let ymin := a.word 8
  let ymax := a.word 9
  let ds := a.ds
  if F32.lt ti 0 || F32.lt td 0 || F32.lt tdf 0 || F32.lt ymax ymin then
    { r := { bad := true }, slots := a.slots, keep := a.slots }
  else
    let e := F32.sub sp pv
    let src := if a.e.v = 1 then e else pv
    let iOld := if a.live then a.rfld 0 else 0
    let dOld := if a.live then a.rfld 4 else 0
    let prev := if a.live && !a.unset 2 then a.rfld 8 else src
    let p := F32.mul kp e
    let g := if a.e.v = 1 then F32.sub e prev else F32.neg (F32.sub pv prev)
    let d := F32.div (F32.add (F32.mul tdf dOld) (F32.mul (F32.mul kp td) g)) (F32.add tdf ds)
    let pos := F32.lt 0 ti
    let ic := if pos then F32.add iOld (F32.div (F32.mul (F32.mul kp ds) e) ti) else 0
    let clamp := fun (x : Word) => rMin (rMax x ymin) ymax
    let u := F32.add (F32.add p ic) d
    let i :=
      if man then (if pos then F32.sub (F32.sub (clamp trk) p) d else 0)
      else if (F32.lt ymax u && F32.lt 0 e) || (F32.lt u ymin && F32.lt e 0) then iOld else ic
    let x := if man then trk else F32.add (F32.add p i) d
    let y := clamp x
    let r := resR y
    { r := { r with y2 := some (b2n (!F32.eq y x)) }
      slots := [mkSlot (i.toNat + d.toNat * 2 ^ 32) src.toNat 0]
      keep := a.slots }

/-- The stateful types 0x2F to 0x3F. -/
def evalState (a : StIn) : StRes :=
  match a.e.typ with
  | 0x2F | 0x30 | 0x31 | 0x32 => timerEval a
  | 0x33 | 0x34 | 0x35 => counterEval a
  | 0x36 => trigEval a false
  | 0x37 => trigEval a true
  | 0x38 => latchEval a true
  | 0x39 => latchEval a false
  | 0x3A => hystEval a
  | 0x3B => filtEval a
  | 0x3C => avgEval a
  | 0x3D => pidEval a
  | 0x3E => rampEval a
  | 0x3F => rateEval a
  | _ => { r := {}, slots := a.slots, keep := a.slots }

/-- The slots that an evaluation leaves: the new ones where out0 is written, otherwise those of R118. -/
def StRes.left (r : StRes) : List Nat := if r.r.y.isSome then r.slots else r.keep

end Sys2Proof.Machine
end

