-- ==== Sys2Proof/Machine/Prog.lean ====
section
/-!
DEFINITION. The program's memory and one evaluation of a block in a class (R84, R91, R92, R104, R115, R118, R163), the step chain and
axis interface blocks (R132, R203), and the Step Sequencer (R130, R131). Each evaluation lists the writes that the lanes compare
(Table 9.1).
-/
namespace Sys2Proof.Machine

/-! ### Reads and writes of a class's view -/

/-- The bytes of a value read from the Store: those of a 64-bit word with an uncorrectable error are free (R10). -/
def eccVal (s : State) (off n v : Nat) : Nat :=
  let bad := fun (i : Nat) => 2 ≤ (s.ecc.get ((off + i) / 8)).toNat
  if (List.range n).any fun i => decide (bad i) then
    leNat ((List.range n).map fun i => if bad i then Config.freeByte s.freeCtr (off + i) else BitVec.ofNat 8 (v / 256 ^ i))
  else v

/-- Does a read of `n` bytes meet an uncorrectable word? -/
def eccBad (s : State) (off n : Nat) : Bool :=
  (List.range ((off + n + 7) / 8 - off / 8)).any fun i => decide (2 ≤ (s.ecc.get (off / 8 + i)).toNat)

def setProg (s : State) (p : Prog) : State := { s with prog := p }
def setView (s : State) (k : Cls) (v : ImgView) : State := setProg s { s.prog with view := s.prog.view.set k v }

/-- A word and a quality byte of a class's view. -/
def viewW (s : State) (k : Cls) (n : Nat) : Word := BitVec.ofNat 32 (eccVal s (imageBase + 4 * n) 4 ((s.prog.view.get k).w.get n).toNat)
def viewQ (s : State) (k : Cls) (n : Nat) : Byte := BitVec.ofNat 8 (eccVal s (qualityBase + n) 1 ((s.prog.view.get k).q.get n).toNat)

/-- A value of one or two words. -/
def viewRaw (s : State) (k : Cls) (n : Nat) (t : Typ) : Nat :=
  if t.two then (viewW s k n).toNat + 2 ^ 32 * (viewW s k (n + 1)).toNat else (viewW s k n).toNat

/-- The word is forced in the class (R161, R163). -/
def forcedIn (s : State) (k : Cls) (n : Nat) : Bool := (s.prog.ovr.get k).any fun o => !o.sim && o.sig == n

def ImgView.putRaw (v : ImgView) (n : Nat) (two : Bool) (raw : Nat) : ImgView :=
  let w := v.w.put n (BitVec.ofNat 32 raw)
  { v with w := if two then w.put (n + 1) (BitVec.ofNat 32 (raw / 2 ^ 32)) else w }

def ImgView.putQ (v : ImgView) (n : Nat) (q : Byte) : ImgView := { v with q := v.q.put n q }

/-- A write of a signal in a class: value where there is one, and quality; a forced word keeps both (R104, R163). -/
def writeSig (k : Cls) (n : Nat) (t : Typ) (val : Option Nat) (q : Byte) (s : State) : State :=
  if forcedIn s k n then s
  else
    let v := s.prog.view.get k
    let s' := match val with
      | some x => eccClean (imageBase + 4 * n) (if t.two then 8 else 4) (setView s k ((v.putRaw n t.two x).putQ n q))
      | none => setView s k (v.putQ n q)
    eccClean (qualityBase + n) 1 s'

/-! ### Compared writes (Table 9.1) -/

/-- A write that the lanes compare (Table 9.1): source, block, chain or axis, its number among the writes of that source and ref, unit, Store
offset, written bit, value as a little-endian number of `len` bytes, quality, and the signal word it goes to. With `ecc` it is no write but an
uncorrectable read at that offset (R231). -/
structure CmpWr where
  source : UpsetSource
  ref : Nat
  part : Nat := 0
  unit : Nat := 0
  off : Nat
  written : Bool := true
  val : Nat := 0
  len : Nat := 8
  q : Byte := 0
  word : Option Nat := none
  ecc : Bool := false
  deriving DecidableEq, Repr

/-- The engine of a unit reads ranges of the Store (R10, R408): those that deliver no usable data are listed as mismatches of kind ECC, once
each. -/
def readRanges (source : UpsetSource) (ref unit code : Nat) (l : List (Nat × Nat)) (s : State) : State × List CmpWr :=
  let bad := l.filter fun p => p.2 != 0 && (eccBad s p.1 p.2 || unitRefused s code .read p.1 p.2)
  let s' := l.foldl (fun (s : State) p => if p.2 = 0 then s else (engineRead code code p.1 p.2 s).1) s
  (if bad.isEmpty then s' else takeFree s', bad.map fun p => { source := source, ref := ref, unit := unit, off := p.1, written := false, ecc := true })

/-- The master of a unit: lane A, or lane B with units 8 to 15 of split mode (R237, Table 17.1). -/
def unitCode (unit : Nat) : Nat := if unit < 8 then 5 else 6

/-! ### State slots -/

def slotNum (s : State) (i : Nat) : Nat := eccVal s (slotBase + 16 * i) 16 (ld s.prog.slots (16 * i) 16)

def putSlots (base : Nat) (l : List Nat) (s : State) : State :=
  let m := l.zipIdx.foldl (fun m p => st m (16 * (base + p.2)) 16 p.1) s.prog.slots
  eccClean (slotBase + 16 * base) (16 * l.length) (setProg s { s.prog with slots := m })

/-- A first slot with its marks in bits 123 to 125, as the slot that the Store holds and the marks (R115). -/
def splitMarks (x : Nat) : Nat × Nat := (x - bits x 123 3 * 2 ^ 123, bits x 123 3)

/-- The slots of a stateful block as its evaluation reads them: the first with its marks. -/
def slotsIn (s : State) (base n : Nat) : List Nat :=
  match (List.range n).map fun i => slotNum s (base + i) with
  | [] => []
  | x :: l => ((splitMarks x).1 + ((Tab.get? s.prog.unset base).getD 0) * 2 ^ 123) :: l

/-- The slots that an evaluation leaves, and its marks. -/
def leaveSlots (base : Nat) (l : List Nat) (s : State) : State :=
  match l with
  | [] => s
  | x :: r =>
    let m := splitMarks x
    let s := putSlots base (m.1 :: r) s
    setProg s { s.prog with unset := if m.2 = 0 then Tab.erase s.prog.unset base else Tab.put s.prog.unset base m.2 }

/-! ### Interface blocks (R132, R203) -/

def chainOf (s : State) (c : Nat) : ChainSt := (Tab.get? s.prog.chain c).getD {}
def latchOf (s : State) (c : Nat) : ScLatch := (Tab.get? s.prog.latch c).getD {}
def lseM (s : State) (m : Nat) : LseMaster := (Tab.get? s.lse.masters m).getD {}
def lseS (s : State) (i : Nat) : LseSlave := (Tab.get? s.lse.slaves i).getD {}
def lseR (s : State) (g : Nat) : LseReg := (Tab.get? s.lse.regs g).getD {}

/-- The 16 bytes of a chain state, as a number (R130). -/
def ChainSt.num (x : ChainSt) : Nat :=
  x.active + 2 ^ 16 * (b2n x.entered + 2 * b2n x.hold + 4 * b2n x.blocked + 8 * b2n x.final) + 2 ^ 32 * x.cis + 2 ^ 64 * x.moves

def ChainSt.ofNum (n : Nat) : ChainSt :=
  { active := bits n 0 16, entered := bit n 16, hold := bit n 17, blocked := bit n 18, final := bit n 19
    cis := bits n 32 32, moves := bits n 64 32 }

/-- A chain's state as the sequencer reads it from the Store (R10). -/
def chainIn (s : State) (n : Nat) : ChainSt :=
  if s.ecc.cells.isEmpty then chainOf s n else ChainSt.ofNum (eccVal s (chainBase + 16 * n) 16 (chainOf s n).num)

/-- P in seconds as a binary32 (R170). -/
def periodS (p : Nat) : Word := F32.divDy ⟨p, 0⟩ ⟨1000000000, 0⟩ false

/-- REAL of a fixed-point value with 2^-f units (R171). -/
def realFix (x : Int) (f : Int) : Word := F32.ofDy ⟨x, -f⟩

/-- LSE_R_STATE. -/
def lseRWord (r : LseReg) : Word :=
  Reg.LSE_R_STATE_accepted.mk' r.accepted ||| Reg.LSE_R_STATE_misses.mk' r.misses ||| Reg.LSE_R_STATE_result.mk' r.result

/-- SCCTL, SCSTEP and SCSTS (Table 5.6). -/
def evalChainBlk (s : State) (a : EvIn) : EvRes × State :=
  let c := (a.p 0).toNat
  let x := chainIn s c
  let rec' := chainRec (((s.img.recs 0x06 0)[c]?).getD 0)
  match a.e.typ with
  | 0x2C =>
    let bad := a.b 2 && decide (rec'.count ≤ a.raw 3)
    let l : ScLatch := { rst := a.b 0, hold := a.b 1, jmp := if a.b 2 && !bad then some (a.raw 3) else none }
    ({ y := some x.active, bad := bad }, setProg s { s.prog with latch := Tab.put s.prog.latch c l })
  | 0x2D =>
    let here := x.active == (a.p 1).toNat
    ({ y := some (b2n (here && x.entered)), y2 := some (if here then rawOf .time ((x.cis * s.img.period rec'.cls : Nat) : Int) else 0)
       q0 := some qValid, q1 := some qValid }, s)
  | _ =>
    ({ y := some (x.active % 1024 + 2 ^ 16 * b2n x.hold + 2 ^ 17 * b2n x.blocked + 2 ^ 18 * b2n x.final), y2 := some x.moves
       q0 := some qValid, q1 := some qValid }, s)

/-- AXMST, AXSLV, AXSTS and AXREG (Table 7.11): the inputs are latched for the LSE update of the cycle, and the outputs come from the
state of the last completed update. -/
def evalAxisBlk (s : State) (a : EvIn) : EvRes × State :=
  let i := (a.p 0).toNat
  let ps := periodS (s.img.period 0)
  match a.e.typ with
  | 0x28 =>
    let m := lseM s i
    let r := resR (F32.div (realFix m.v.toInt 48) ps)
    let m' := { m with en := a.b 0, qs := a.b 1, vt := a.word 2 }
    ({ y := some (m.p48.toNat / 2 ^ 16 % 2 ^ 64), y2 := r.y, bad := r.bad }, { s with lse := { s.lse with masters := Tab.put s.lse.masters i m' } })
  | 0x29 =>
    let x := lseS s i
    let r := resR (F32.div x.spd ps)
    let den := a.raw 4
    let x' := { x with en := a.b 0, ot := BitVec.ofNat 64 (a.raw 1), k := a.word 2, badRatio := den == 0 }
    let x' := if den = 0 then x' else { x' with lnum := BitVec.ofNat 32 (a.raw 3), lden := den }
    ({ y := some x.xOr.toNat, y2 := r.y, bad := r.bad || den == 0 }, { s with lse := { s.lse with slaves := Tab.put s.lse.slaves i x' } })
  | 0x2A =>
    if i < 128 then
      let x := lseS s i
      ({ y := some x.stWord.toNat, y2 := some x.o.toNat, q0 := some qValid, q1 := some qValid }, s)
    else ({ y := some (lseM s (i - 128)).stWord.toNat, y2 := some 0, q0 := some qValid, q1 := some qValid }, s)
  | _ =>
    let r := lseR s i
    let r' := { r with en := a.b 0, rst := a.b 1, ts := ival .time (a.raw 2), usable := qUsable (a.qual 2), tgt := BitVec.ofNat 64 (a.raw 3) }
    ({ y := some r.err.toNat, y2 := some (lseRWord r).toNat }, { s with lse := { s.lse with regs := Tab.put s.lse.regs i r' } })

/-! ### One block -/

/-- Δ of a cycle in ns: the elapsed count times the period; the elapsed time itself for BACKGROUND (R117). -/
def clsDelta (s : State) (k : Cls) : Nat :=
  let c := (s.cls.get k).elapsed
  if k = .background then c else c * s.img.period k.code

/-- A parameter word as a lane reads it from the Store. -/
def prmIn (s : State) (i : Nat) : Nat := eccVal s (paramBase + 4 * i) 4 (s.img.prm i).toNat

/-- A block's inputs with their qualities, read by a class (R84). -/
def readIns (s : State) (k : Cls) (e : BlkEnt) (refs : List (Nat × Typ)) : List (Nat × Byte) :=
  refs.map fun p =>
    let i := refIdx p.1
    let c := refConst p.1
    let raw :=
      if c then prmIn s (e.param + i) + (if p.2.two then 2 ^ 32 * prmIn s (e.param + i + 1) else 0)
      else viewRaw s k i p.2
    let raw := if p.2 = .bool then b2n ((raw != 0) != refInv p.1) else raw
    (raw, if c then qValid else viewQ s k i)

/-- How many parameter words the layout of a type takes from param on. -/
def layoutWords (g : Image) (e : BlkEnt) : Nat :=
  let p0 := (g.prm e.param).toNat
  match e.typ with
  | 0x22 => if decide (2 ≤ p0) && decide (p0 ≤ 256) then 1 + 2 * p0 else 1
  | 0x23 => if decide (1 ≤ p0) && decide (p0 ≤ 4096) then 1 + (if (typOf e.t).two then 2 else 1) * p0 else 1
  | 0x25 | 0x3C | 0x28 | 0x29 | 0x2A | 0x2B | 0x2C | 0x2E => 1
  | 0x2D => 2
  | _ => 0

/-- The Store ranges that an evaluation of block b reads: offset and bytes. `chain` is the chain of a step chain interface block. -/
def blkRanges (b : Nat) (e : BlkEnt) (x : Shape) (refs : List (Nat × Typ)) (layout chain : Nat) : List (Nat × Nat) :=
  (if decide (0x2C ≤ e.typ) && decide (e.typ ≤ 0x2E) then [(chainBase + 16 * chain, 16)] else []) ++
  (blockTableBase + 32 * b, 32 * (1 + extNeed x.ins.length)) :: (paramBase + 4 * e.param, 4 * layout) :: (slotBase + 16 * e.state, 16 * x.slots) ::
  refs.flatMap fun p =>
    let n := if p.2.two then 8 else 4
    if refConst p.1 then [(paramBase + 4 * (e.param + refIdx p.1), n)]
    else [(imageBase + 4 * refIdx p.1, n), (qualityBase + refIdx p.1, 1)]

/-- Cost of a block in CORE clocks (R93). -/
def Image.cost (g : Image) (b : Nat) : Nat := ((g.shape (g.blk b)).map (·.cost)).getD 0

/-- The writes of the two outputs, as the lanes compare them. -/
def outWrites (b unit : Nat) (e : BlkEnt) (x : Shape) (r : EvRes) (q : Byte × Byte) : List CmpWr :=
  let mk := fun (part ref : Nat) (t : Typ) (v : Option Nat) (q : Byte) =>
    ({ source := .output, ref := b, part := part, unit := unit, off := imageBase + 4 * refIdx ref, written := v.isSome
       val := v.getD 0, len := if t.two then 8 else 4, q := q, word := some (refIdx ref) } : CmpWr)
  mk 0 e.out0 x.out0 r.y q.1 :: (match x.out1 with
    | some t => if bit e.out1 17 then [mk 1 e.out1 t r.y2 q.2] else []
    | none => [])

/-- State slots as one number, slot 0 lowest. -/
def slotsNum (l : List Nat) : Nat := l.foldr (fun x a => x + 2 ^ 128 * a) 0

/-- EVALUATE one block of a class on a unit (R91). The writes are listed for the comparator, after the reads that delivered nothing. -/
def evalBlk (k : Cls) (unit b : Nat) (s : State) : State × List CmpWr :=
  let e := s.img.blk b
  match s.img.shape e with
  | none => (s, [])
  | some x =>
    let refs := s.img.refs b
    let ins := readIns s k e refs
    let a : EvIn := { e := e, x := ins.map (·.1), q := ins.map (·.2), p := fun i => BitVec.ofNat 32 (prmIn s (e.param + i)) }
    let slots := slotsIn s e.state x.slots
    let res : EvRes × State × List Nat :=
      if e.typ < 0x28 then (evalPure a, s, [])
      else if e.typ < 0x2C then
        let r := evalAxisBlk s a
        (r.1, r.2, [])
      else if e.typ < 0x2F then
        let r := evalChainBlk s a
        (r.1, r.2, [])
      else
        let r := evalState { a with delta := clsDelta s k, now := ((s.cls.get k).lastT0).getD 0, slots := slots }
        (r.r, s, r.left)
    let r := res.1.trim
    let q := a.quals r
    let rd := readRanges .output b unit (unitCode unit) (blkRanges b e x refs (layoutWords s.img e) (a.p 0).toNat) res.2.1
    let s := writeSig k (refIdx e.out0) x.out0 r.y q.1 rd.1
    let s := match x.out1 with
      | some t => if bit e.out1 17 then writeSig k (refIdx e.out1) t r.y2 q.2 s else s
      | none => s
    let s := leaveSlots e.state res.2.2 s
    let ws := rd.2 ++ outWrites b unit e x r q
    (s, if x.slots = 0 then ws else
      ws ++ [{ source := .state, ref := b, unit := unit, off := slotBase + 16 * e.state, val := slotsNum (slotsIn { s with prog := { s.prog with unset := [] } } e.state x.slots), len := 16 * x.slots }])

/-- Evaluate the blocks of a wave in order; position i goes to unit i mod u (R91). -/
def evalList (k : Cls) (u : Nat) : Nat → List Nat → State → State × List CmpWr
  | _, [], s => (s, [])
  | i, b :: l, s =>
    let r := evalBlk k (i % u) b s
    let r2 := evalList k u (i + 1) l r.1
    (r2.1, r.2 ++ r2.2)

/-! ### Step chains (R130, R131) -/

def setChain (s : State) (c : Nat) (x : ChainSt) : State := setProg s { s.prog with chain := Tab.put s.prog.chain c x }

/-- A write of an action word, with quality VALID alone (R130). -/
def writeAct (k : Cls) (g : Image) (c : ChainRec) (i v : Nat) (s : State) : State :=
  writeSig k (refIdx (g.step c i).act) .bool (some v) qValid s

/-- Enter a step: active, cis, entered, final, and the two action words (R130). -/
def enterStep (k : Cls) (n : Nat) (c : ChainRec) (target : Nat) (s : State) : State :=
  let x := chainOf s n
  let s := writeAct k s.img c x.active 0 s
  let s := writeAct k s.img c target 1 s
  setChain s n { x with active := target, cis := 0, entered := true, final := (s.img.step c target).final }

/-- The Store ranges that the sequencer reads for a chain: its state, and the words of the transitions of its active step. -/
def chainRanges (s : State) (n : Nat) (c : ChainRec) : List (Nat × Nat) :=
  let step := s.img.step c (chainOf s n).active
  let ref : Nat → List (Nat × Nat) := fun r =>
    if refConst r then [(paramBase + 4 * refIdx r, 4)] else [(imageBase + 4 * refIdx r, 4), (qualityBase + refIdx r, 1)]
  (chainBase + 16 * n, 16) :: (if step.final then [] else ref step.ta ++ if step.tbEn then ref step.tb else [])

/-- A transition reference that is judged: taken, and whether it blocked (R131). -/
def transition (s : State) (k : Cls) (r : Nat) : Bool × Bool :=
  let i := refIdx r
  let one := (if refConst r then prmIn s i != 0 else viewW s k i != 0) != refInv r
  let ok := refConst r || qUsable (viewQ s k i)
  (one && ok, one && !ok)

/-- Phase 1 for one chain: flags, cis and the target (R131). -/
def chainTarget (k : Cls) (elapsed : Nat) (s : State) (n : Nat) (c : ChainRec) : ChainSt × Option Nat :=
  let x := chainIn s n
  let l := latchOf s n
  let step := s.img.step c x.active
  let x := { x with entered := false, hold := false, blocked := false, final := step.final, cis := min (x.cis + elapsed) (2 ^ 32 - 1) }
  if l.rst then (x, some 0)
  else match l.jmp with
    | some j => (x, some j)
    | none =>
      if l.hold then ({ x with hold := true }, none)
      else if step.final then (x, none)
      else if x.cis < step.tmin then (x, none)
      else
        let ta := transition s k step.ta
        if ta.1 then (x, some step.na)
        else if step.tbEn then
          let tb := transition s k step.tb
          ({ x with blocked := ta.2 || tb.2 }, if tb.1 then some step.nb else none)
        else ({ x with blocked := ta.2 }, none)

/-- The chain-state write of a chain, and the action-word writes of an entered step, as the lanes compare them (Table 9.1). -/
def chainWrites (s : State) (n : Nat) (c : ChainRec) (left : Option Nat) : List CmpWr :=
  let x := chainOf s n
  let act := fun (part i v : Nat) =>
    ({ source := .sequencer, ref := n, part := part, off := imageBase + 4 * refIdx (s.img.step c i).act, val := v, len := 4, q := qValid } : CmpWr)
  { source := .sequencer, ref := n, off := chainBase + 16 * n, val := x.num, len := 16 } ::
    match left with
    | some i => [act 1 i 0, act 2 x.active 1]
    | none => []

/-- The Step Sequencer's run of a class: phase 1 for every chain, then phase 2 (R131). -/
def runChains (k : Cls) (s : State) : State × List CmpWr :=
  let el := (s.cls.get k).elapsed
  let cs := s.img.clsChains k.code
  let ph := cs.map fun p => (p.1, p.2, (chainIn s p.1).active, chainTarget k el s p.1 p.2)
  let rd := cs.foldl (fun (a : State × List CmpWr) p =>
    let r := readRanges .sequencer p.1 0 5 (chainRanges s p.1 p.2) a.1
    (r.1, a.2 ++ r.2)) (s, [])
  let s := ph.foldl (fun (s : State) p => eccClean (chainBase + 16 * p.1) 16 (setChain s p.1 p.2.2.2.1)) rd.1
  let s := ph.foldl (fun (s : State) p =>
    match p.2.2.2.2 with
    | some t =>
      let s := enterStep k p.1 p.2.1 t s
      let x := chainOf s p.1
      setChain s p.1 { x with moves := (x.moves + 1) % 2 ^ 32 }
    | none => s) s
  let s := cs.foldl (fun (s : State) p => setProg s { s.prog with latch := Tab.erase s.prog.latch p.1 }) s
  (s, rd.2 ++ ph.flatMap fun p => chainWrites s p.1 p.2.1 (p.2.2.2.2.map fun _ => p.2.2.1))

/-- The chains of an image enter step 0, and the sequencer writes every action word (R130). `keep` names the chains whose state was
restored. -/
def startChains (keep : Nat → Bool) (s : State) : State :=
  s.img.chains.zipIdx.foldl (fun (s : State) p =>
    let k : Cls := match p.1.cls with
      | 0 => .fast | 1 => .mid | 2 => .slow | _ => .background
    let s := if keep p.2 then s else
      setChain s p.2 { active := 0, entered := true, final := (s.img.step p.1 0).final }
    (List.range p.1.count).foldl (fun (s : State) i => writeAct k s.img p.1 i (b2n ((chainOf s p.2).active == i)) s) s) s

end Sys2Proof.Machine
end

