-- ==== Sys2Proof/Machine/Lse.lean ====
section
/-!
DEFINITION. The Line-Shaft Engine (chapter "The Line-Shaft Engine"): records, the update of Table 7.1 in its seven steps, and what a
FAST commit does with the polynomials.
-/
namespace Sys2Proof.Machine

/-! ### Records (Tables 7.3 to 7.8) -/

structure MasterRec where
  vMax : Word
  aMax : Word
  jMax : Word
  aQ : Word
  jQ : Word
  uid : Nat
  present : Bool
  deriving DecidableEq, Repr

def masterRec (r : Nat) : MasterRec :=
  let w := fun o => BitVec.ofNat 32 (fld r o 4)
  { vMax := w 0, aMax := w 4, jMax := w 8, aQ := w 12, jQ := w 16, uid := fld r 20 4, present := bit (fld r 24 1) 0 }

structure SlaveRec where
  master : Nat
  mode : Nat
  validity : Nat
  profile : Nat
  segment : Nat
  word : Nat
  uid : Nat
  trim : Word
  phi0 : Nat
  deriving DecidableEq, Repr

def slaveRec (r : Nat) : SlaveRec :=
  { master := fld r 0 1, mode := fld r 1 1, validity := fld r 2 1, profile := fld r 4 2, segment := fld r 6 2, word := fld r 8 2
    uid := fld r 12 4, trim := BitVec.ofNat 32 (fld r 16 4), phi0 := fld r 20 4 }

structure RegRec where
  slave : Nat
  ref : Nat
  gain : Word
  lambda : Nat
  window : Nat
  limit : Nat
  uid : Nat
  deriving DecidableEq, Repr

def regRec (r : Nat) : RegRec :=
  { slave := fld r 0 1, ref := fld r 1 1, gain := BitVec.ofNat 32 (fld r 4 4), lambda := fld r 8 8, window := fld r 16 4
    limit := fld r 20 4, uid := fld r 24 4 }

structure CascRec where
  first : Nat
  count : Nat
  down : Bool
  cMin : Word
  cMax : Word
  uid : Nat
  deriving DecidableEq, Repr

def cascRec (r : Nat) : CascRec :=
  { first := fld r 0 2, count := fld r 2 1, down := fld r 3 1 == 1, cMin := BitVec.ofNat 32 (fld r 4 4)
    cMax := BitVec.ofNat 32 (fld r 8 4), uid := fld r 12 4 }

structure StandRec where
  slave : Nat
  delay : Nat
  kMin : Word
  kMax : Word
  deriving DecidableEq, Repr

def standRec (r : Nat) : StandRec :=
  { slave := fld r 0 1, delay := fld r 1 1, kMin := BitVec.ofNat 32 (fld r 4 4), kMax := BitVec.ofNat 32 (fld r 8 4) }

/-- Records of a list with their numbers. -/
def numbered {α : Type} (l : List α) : List (Nat × α) := l.zipIdx.map fun p => (p.2, p.1)

def Image.masters (g : Image) : List (Nat × MasterRec) := (numbered ((g.recs 0x07 0).map masterRec)).filter fun p => p.2.present
def Image.slaves (g : Image) : List (Nat × SlaveRec) := (numbered ((g.recs 0x07 1).map slaveRec)).filter fun p => p.2.mode != 0
def Image.regs (g : Image) : List (Nat × RegRec) := numbered ((g.recs 0x07 2).map regRec)
def Image.cascades (g : Image) : List (Nat × CascRec) := numbered ((g.recs 0x09 0).map cascRec)
def Image.stand (g : Image) (i : Nat) : StandRec := standRec (((g.recs 0x09 1)[i]?).getD 0)
def Image.slave (g : Image) (i : Nat) : SlaveRec := slaveRec (((g.recs 0x07 1)[i]?).getD 0)

/-- The stands of a cascade: their record numbers. -/
def CascRec.stands (c : CascRec) : List Nat := (List.range c.count).map fun i => c.first + i

/-- The stand record that names a slave. -/
def Image.standOf (g : Image) (slave : Nat) : Option Nat :=
  (g.cascades.flatMap fun p => p.2.stands).find? fun i => (g.stand i).slave == slave

/-! ### Numbers (R170 to R174) -/

/-- The nearest integer to n / d, ties to even (d positive). -/
def rneDiv (n : Int) (d : Nat) : Int :=
  let q := n / (d : Int)
  let r := n % (d : Int)
  if 2 * r < d then q else if (d : Int) < 2 * r then q + 1 else if q % 2 = 0 then q else q + 1

/-- The nearest integer to w × (P / 10^9)^i × 2^f, from the exact binary32 value (R173). -/
def scaleLim (w : Word) (p i f : Nat) : Int :=
  let d := F32.dy w
  let e := d.e + f
  rneDiv (d.m * (p : Int) ^ i * (2 : Int) ^ e.toNat) (10 ^ (9 * i) * 2 ^ (-e).toNat)

/-- The rounded integer of x × 2^f, ties to even. -/
def rneScale (x : Word) (f : Nat) : Int := (Dy.mul (F32.dy x) ⟨1, f⟩).rne

/-- A difference of positions as a signed number (R171). -/
def dpos (a b : BitVec 64) : Int := (a - b).toInt

/-- The position of a master: bits 79:16 of p48 (R175). -/
def LseMaster.pos (m : LseMaster) : BitVec 64 := (m.p48 >>> 16).setWidth 64

def setLse (s : State) (x : Lse) : State := { s with lse := x }
def setM (s : State) (i : Nat) (m : LseMaster) : State := setLse s { s.lse with masters := Tab.put s.lse.masters i m }
def setS (s : State) (i : Nat) (x : LseSlave) : State := setLse s { s.lse with slaves := Tab.put s.lse.slaves i x }
def setG (s : State) (i : Nat) (r : LseReg) : State := setLse s { s.lse with regs := Tab.put s.lse.regs i r }
def lseT (s : State) (i : Nat) : LseStand := (Tab.get? s.lse.stands i).getD {}
def setT (s : State) (i : Nat) (x : LseStand) : State := setLse s { s.lse with stands := Tab.put s.lse.stands i x }

/-- What an update works with: FAST period, cycle number, OR of the cycle, elapsed count. -/
structure LseCtx where
  p : Nat
  n : Nat
  orAt : Int
  c : Nat
  deriving DecidableEq, Repr

/-! ### Polynomials (R188) -/

/-- a2 and a3 from D, v0 and v1. -/
def mkPoly (x : LseCtx) (x0 x1 : BitVec 64) (v0 v1 : Word) (validity : Nat) (origin join : Bool) : Poly :=
  let d := realFix (dpos x1 x0) 32
  let two : Word := 0x40000000
  let three : Word := 0x40400000
  { a0 := x0, a1 := v0
    a2 := F32.sub (F32.sub (F32.mul three d) (F32.mul two v0)) v1
    a3 := F32.add (F32.add (F32.mul (F32.neg two) d) v0) v1
    x1 := x1, v1 := v1, h := x.n, orAt := x.orAt, validity := validity, origin := origin, join := join, hold := false }

/-- A HOLD record (R192). -/
def holdPoly (x : LseCtx) (xOr : BitVec 64) (validity : Nat) (origin join : Bool) : Poly :=
  { a0 := xOr, a1 := 0, a2 := 0, a3 := 0, x1 := xOr, v1 := 0, h := x.n, orAt := x.orAt, validity := validity
    origin := origin, join := join, hold := true }

/-- p(τ) within a polynomial, and its linear continuation beyond its end, at an instant (R191, R196). -/
def Poly.at' (q : Poly) (p : Nat) (ts : Int) : BitVec 64 :=
  let tau := F32.div (F32.ofInt (ts - q.orAt)) (F32.ofInt p)
  let two : Word := 0x40000000
  let three : Word := 0x40400000
  let one : Word := 0x3F800000
  let v :=
    if ts - q.orAt < p then
      let t2 := F32.mul tau tau
      let t3 := F32.mul t2 tau
      F32.add (F32.add (F32.mul q.a1 tau) (F32.mul q.a2 t2)) (F32.mul q.a3 t3)
    else
      let slope := F32.add (F32.add q.a1 (F32.mul two q.a2)) (F32.mul three q.a3)
      F32.add (F32.add (F32.add q.a1 q.a2) q.a3) (F32.mul slope (F32.sub tau one))
  q.a0 + BitVec.ofInt 64 (rneScale v 32)

/-! ### Masters (R174 to R176) -/

/-- One step of a master with target t and limits (R175): speed, acceleration, and the advance of the position in 2^-48 rev. -/
def masterStep (t v a vLim aLim jLim : Int) : Int × Int × Int :=
  let vz := v + (a * a.natAbs) / (2 * jLim)
  let j := if vz < t then jLim else if t < vz then -jLim else 0
  let a1 := min (max (a + j) (-aLim)) aLim
  let j := a1 - a
  let adv := v + a / 2 + j / 6
  let v1 := min (max (v + a + j / 2) (-vLim)) vLim
  if ((t - v1).natAbs : Int) ≤ jLim ∧ (a1.natAbs : Int) ≤ jLim then (t, 0, adv) else (v1, a1, adv)

/-- Advance one master (R174 to R176), with its polynomial and state word. -/
def advanceMaster (x : LseCtx) (rc : MasterRec) (m : LseMaster) : LseMaster :=
  let vLim := scaleLim rc.vMax x.p 1 48
  let lim := if m.qs then (scaleLim rc.aQ x.p 2 48, scaleLim rc.jQ x.p 3 48) else (scaleLim rc.aMax x.p 2 48, scaleLim rc.jMax x.p 3 48)
  let want := scaleLim m.vt x.p 1 48
  let t := if m.qs || !m.en then 0 else max (-vLim) (min vLim want)
  let gap := decide (1 < x.c)
  let v := m.v.toInt
  let a := if gap then 0 else m.a.toInt
  let p0 := if gap then m.p48 + BitVec.ofInt 80 (v * (x.c - 1)) else m.p48
  let r := masterStep t v a vLim lim.1 lim.2
  let m0 : LseMaster := { m with p48 := p0 }
  let m1 : LseMaster := { m with p48 := p0 + BitVec.ofInt 80 r.2.2, v := BitVec.ofInt 64 r.1, a := BitVec.ofInt 64 r.2.1 }
  let w := Reg.LSE_M_STATE_limited.mk' (b2n (decide (vLim < want.natAbs))) |||
    Reg.LSE_M_STATE_at_speed.mk' (b2n (r.1 == t && r.2.1 == 0)) ||| Reg.LSE_M_STATE_qs.mk' (b2n m.qs) ||| Reg.LSE_M_STATE_en.mk' (b2n m.en)
  { m1 with stWord := w, staged := some (mkPoly x m0.pos m1.pos (realFix v 48) (realFix r.1 48) 1 false false) }

/-! ### Cams (R183, R184) -/

/-- A cam profile with its points on the periodic extension. -/
structure Cam where
  count : Nat
  cubic : Bool
  rise : Int
  pts : List (Nat × Int)
  deriving DecidableEq, Repr

def Image.cam (g : Image) (i : Nat) : Cam :=
  let r := ((g.recs 0x08 0)[i]?).getD 0
  let first := fld r 0 4 % 2 ^ 17
  let n := fld r 4 2
  { count := n, cubic := fld r 6 1 == 1, rise := sgn 32 (fld r 8 4)
    pts := (slice (g.recs 0x08 1) first n).map fun q => (fld q 0 4, sgn 32 (fld q 4 4)) }

/-- Point j of the periodic extension, for j from −1 to m + 1. -/
def Cam.pt (c : Cam) (j : Int) : Int × Int :=
  let m : Int := c.count
  let get := fun (i : Int) => let p := (c.pts[i.toNat]?).getD (0, 0); ((p.1 : Int), p.2)
  if j < 0 then let p := get (j + m); (p.1 - 2 ^ 32, p.2 - c.rise)
  else if m ≤ j then let p := get (j - m); (p.1 + 2 ^ 32, p.2 + c.rise)
  else get j

/-- The segment of a phase: the last point at or below it. -/
def Cam.seg (c : Cam) (f : Nat) : Int := ((c.pts.takeWhile fun p => decide (p.1 ≤ f)).length : Int) - 1

/-- cam(f) in POS raw, and its slope in rev per cam cycle (R184). -/
def Cam.eval (c : Cam) (f : Nat) : Int × Word :=
  let i := c.seg f
  let p0 := c.pt i
  let p1 := c.pt (i + 1)
  let h := realFix (p1.1 - p0.1) 32
  let t := F32.div (realFix (f - p0.1) 32) h
  let dy := realFix (p1.2 - p0.2) 24
  let n := fun (k : Nat) => F32.ofInt k
  let r : Word × Word :=
    if c.cubic then
      let mj := fun (j : Int) => F32.div (realFix ((c.pt (j + 1)).2 - (c.pt (j - 1)).2) 24) (realFix ((c.pt (j + 1)).1 - (c.pt (j - 1)).1) 32)
      let m0 := mj i
      let m1 := mj (i + 1)
      let t2 := F32.mul t t
      let t3 := F32.mul t2 t
      let a := F32.mul dy (F32.sub (F32.mul (n 3) t2) (F32.mul (n 2) t3))
      let b := F32.mul (F32.mul h (F32.add (F32.sub t3 (F32.mul (n 2) t2)) t)) m0
      let d := F32.mul (F32.mul h (F32.sub t3 t2)) m1
      let s0 := F32.div (F32.mul dy (F32.sub (F32.mul (n 6) t) (F32.mul (n 6) t2))) h
      let s1 := F32.mul (F32.add (F32.sub (F32.mul (n 3) t2) (F32.mul (n 4) t)) (n 1)) m0
      let s2 := F32.mul (F32.sub (F32.mul (n 3) t2) (F32.mul (n 2) t)) m1
      (F32.add (F32.add a b) d, F32.add (F32.add s0 s1) s2)
    else (F32.mul dy t, F32.div dy h)
  (p0.2 * 2 ^ 8 + rneScale r.1 32, r.2)

/-- Y(φ) (R183). -/
def Cam.y (c : Cam) (phi : BitVec 64) : Int :=
  c.rise * 2 ^ 8 * (phi.toInt / 2 ^ 32) + (c.eval (phi.toNat % 2 ^ 32)).1 - (c.pt 0).2 * 2 ^ 8

/-! ### Registration (R195, R196) -/

/-- The committed polynomials of an axis, newest first. -/
def axisPolys (s : State) (ref : Nat) : List Poly := if ref < 128 then (lseS s ref).polys else (lseM s (ref - 128)).polys

/-- e reduced into −λ/2 to λ/2, excluding λ/2. -/
def wrapLambda (e : Int) (l : Nat) : Int :=
  if l = 0 then e else
    let x := e % (l : Int)
    if (l : Int) ≤ 2 * x then x - l else x

/-- One registration record in step 3. The offset of a slave that is not enabled stays (R181, notes/assumptions/72.md). -/
def regStep (x : LseCtx) (s : State) (g : Nat) (rc : RegRec) : State :=
  let r := lseR s g
  let live := (lseS s rc.slave).en
  let r := if r.rst && live then { r with oReg := 0 } else r
  if !(r.en && !flag s Reg.LSE_CTRL Reg.LSE_CTRL_reg_hold && r.usable && r.last != some r.ts) then setG s g r
  else
    let r := { r with last := some r.ts }
    match (axisPolys s rc.ref).find? fun q => decide (q.orAt ≤ r.ts) with
    | none => setG s g { r with result := 4, misses := min 255 (r.misses + 1) }
    | some q =>
      let e := wrapLambda (dpos (q.at' x.p r.ts) r.tgt) rc.lambda
      let r := { r with err := BitVec.ofInt 64 e }
      if (rc.window : Int) < e.natAbs then setG s g { r with result := 3, misses := min 255 (r.misses + 1) }
      else
        let corr := -(rneScale (F32.mul rc.gain (realFix e 32)) 32)
        let lim := decide ((rc.limit : Int) < corr.natAbs)
        let corr := if lim then (if corr < 0 then -(rc.limit : Int) else rc.limit) else corr
        let o := if live then r.oReg + BitVec.ofInt 64 corr else r.oReg
        setG s g { r with result := if lim then 2 else 1, accepted := (r.accepted + 1) % 65536, oReg := o }

/-! ### Cascades (R198, R199) -/

/-- Shift a schedule: at most five shifts matter. -/
def shiftF (f : Vector Word 5) : Nat → Vector Word 5
  | 0 => f
  | n + 1 => shiftF (Vector.ofFn fun i => if i.val < 4 then f[i.val + 1]! else f[4]) n

/-- Limit a REAL. -/
def rClamp (x lo hi : Word) : Word := if F32.lt x lo then lo else if F32.lt hi x then hi else x

/-- The products C along a list of limited k, the pivot first: 1.0, then each times its own k. -/
def prodC : Word → List Word → List Word
  | _, [] => []
  | c, k :: l => let c' := F32.mul c k; c' :: prodC c' l

/-- Step 4 for one cascade: C_i for every stand and its schedule. -/
def cascadeStep (s : State) (rc : CascRec) : State :=
  let st := rc.stands
  let order := if rc.down then st else st.reverse
  let ks := order.map fun i => rClamp (lseS s (s.img.stand i).slave).k (s.img.stand i).kMin (s.img.stand i).kMax
  let cs : List Word := match ks with
    | [] => []
    | _ :: l => 0x3F800000 :: prodC 0x3F800000 l
  (order.zip cs).foldl (fun (s : State) p =>
    let c := rClamp p.2 rc.cMin rc.cMax
    let t := lseT s p.1
    let d := (s.img.stand p.1).delay
    let f := Vector.ofFn fun (i : Fin 5) => if t.fresh || decide (d ≤ i.val) then c else t.f[i]
    setT s p.1 { f := f, fresh := false, clamped := c != p.2 }) s

/-! ### Slaves (R179 to R188, R200) -/

/-- The offset target (R185). -/
def slaveCmd (s : State) (i : Nat) (ot : BitVec 64) : BitVec 64 :=
  s.img.regs.foldl (fun a p => if p.2.slave = i then a + (lseR s p.1).oReg else a) ot

/-- How an update of cycle N stands to the held polynomial (R187): it joins when N − h is 2 or more, and then the drive still coasts on the held
polynomial while N − h is below its validity. -/
structure Join where
  joins : Bool
  coasts : Bool
  /-- x0 of the new polynomial, and its v0. -/
  x0 : BitVec 64
  v0 : Word
  deriving DecidableEq, Repr

def slaveJoin (n : Nat) (y : LseSlave) : Join :=
  match y.polys.head? with
  | none => { joins := false, coasts := false, x0 := y.xOr, v0 := 0 }
  | some h =>
    let age := (n + 2 ^ 32 - h.h) % 2 ^ 32
    if age < 2 then { joins := false, coasts := false, x0 := y.xOr, v0 := h.v1 }
    else if age < h.validity then
      { joins := true, coasts := true, v0 := h.v1
        x0 := h.x1 + BitVec.ofInt 64 (rneScale (F32.mul h.v1 (F32.ofInt (age - 1 : Nat))) 32) }
    else { joins := true, coasts := false, x0 := y.xOr, v0 := 0 }

/-- The latched ratio takes effect, and with en 1 the remainder counts in its den (R180, R181). -/
def slaveRatio (y : LseSlave) : LseSlave :=
  let y := { y with num := y.lnum, den := y.lden }
  if y.en && y.rDen != y.den then { y with r := y.r * y.den / y.rDen, rDen := y.den } else y

/-- The stand of a slave was limited (R198). -/
def slaveClamped (s : State) (i : Nat) : Bool :=
  match s.img.standOf i with
  | some k => (lseT s k).clamped
  | none => false

/-- A slave with en 0: a HOLD record, and s, r, φ, o and o_reg unchanged (R181, R192); a join moves o with the start of the record (R187,
notes/assumptions/85.md). -/
def holdSlave (x : LseCtx) (rc : SlaveRec) (clamped : Bool) (y : LseSlave) : LseSlave :=
  let j := slaveJoin x.n y
  let origin := y.polys.isEmpty || y.fresh || (j.joins && !j.coasts)
  let y := { y with o := y.o + (j.x0 - y.xOr), xOr := j.x0 }
  let w := Reg.LSE_S_STATE_bad_ratio.mk' (b2n y.badRatio) ||| Reg.LSE_S_STATE_clamped.mk' (b2n clamped) |||
    Reg.LSE_S_STATE_trimming.mk' (b2n (y.o != y.oCmd)) ||| Reg.LSE_S_STATE_joined.mk' (b2n j.joins) |||
    Reg.LSE_S_STATE_hold.mk' 1 ||| Reg.LSE_S_STATE_mode.mk' rc.mode
  { y with stWord := w, spd := 0, staged := some (holdPoly x y.xOr rc.validity origin j.coasts) }

/-- A slave with en 1: gear or cam, cascade share, join, trim and polynomial (R179 to R188, R200). -/
def moveSlave (x : LseCtx) (dM : Int) (s : State) (i : Nat) (rc : SlaveRec) (y : LseSlave) : LseSlave :=
  let num := y.num.toInt
  let t := dM * num + y.r
  let q := t / (y.den : Int)
  let r := t % (y.den : Int)
  let cam := s.img.cam rc.profile
  let phi := y.phi + BitVec.ofInt 64 q
  let stand := s.img.standOf i
  let f01 : Word × Word := match stand with
    | some k => ((lseT s k).f[0], (lseT s k).f[1])
    | none => (0x3F800000, 0x3F800000)
  let g := F32.mul (F32.sub f01.1 0x3F800000) (F32.ofInt q)
  let f1 := y.f + BitVec.ofInt 64 (Dy.mul (F32.dy g) ⟨1, 16⟩).floor
  let dlt := f1.toInt / 2 ^ 16
  let isCam := rc.mode == 2
  let dS : Int := if isCam then cam.y phi - cam.y y.phi else if stand.isSome then q + dlt else q
  let j := slaveJoin x.n y
  let origin := y.polys.isEmpty || y.fresh || (j.joins && !j.coasts)
  let y := { y with
    r := r.toNat, s := y.s + BitVec.ofInt 64 dS, phi := if isCam then phi else y.phi
    f := if !isCam && stand.isSome then f1 - BitVec.ofInt 64 (dlt * 2 ^ 16) else y.f }
  let y := { y with o := y.o + (j.x0 - y.xOr), xOr := j.x0 }
  let rt := scaleLim rc.trim x.p 1 32
  let d := dpos y.oCmd y.o
  let o' : BitVec 64 := if (d.natAbs : Int) ≤ rt then y.oCmd else y.o + BitVec.ofInt 64 (if d < 0 then -rt else rt)
  let dO := dpos o' y.o
  let y := { y with o := o' }
  let ms := realFix (lseM s rc.master).v.toInt 48
  let ratio := F32.div (F32.mul ms (F32.ofInt num)) (F32.ofInt y.den)
  let v1 := F32.add (F32.mul ratio (if isCam then (cam.eval (y.phi.toNat % 2 ^ 32)).2 else f01.2)) (realFix dO 32)
  let x1 := y.s + y.o
  let fast := isCam && decide ((2 ^ 31 : Int) ≤ q.natAbs)
  let w := Reg.LSE_S_STATE_overspeed.mk' (b2n fast) ||| Reg.LSE_S_STATE_bad_ratio.mk' (b2n y.badRatio) |||
    Reg.LSE_S_STATE_clamped.mk' (b2n (slaveClamped s i)) ||| Reg.LSE_S_STATE_trimming.mk' (b2n (y.o != y.oCmd)) |||
    Reg.LSE_S_STATE_joined.mk' (b2n j.joins) ||| Reg.LSE_S_STATE_mode.mk' rc.mode ||| Reg.LSE_S_STATE_en.mk' 1
  { y with xOr := x1, spd := v1, stWord := w, staged := some (mkPoly x y.xOr x1 j.v0 v1 rc.validity origin j.coasts) }

/-- Step 5 and 6 for one slave: its offset target (R185), what it joins (R187, LSE_JOIN_CNT), and its movement or hold. -/
def advanceSlave (x : LseCtx) (dM : Nat → Int) (s : State) (i : Nat) (rc : SlaveRec) : State :=
  let y := slaveRatio (lseS s i)
  let y := { y with oCmd := slaveCmd s i y.ot }
  let s := if (slaveJoin x.n y).joins then satAdd s Reg.LSE_JOIN_CNT Reg.LSE_JOIN_CNT_count 1 else s
  setS s i (if y.en then moveSlave x (dM rc.master) s i rc y else holdSlave x rc (slaveClamped s i) y)

/-! ### Publication (R205) -/

def pub64 (lo hi : Nat) (v : BitVec 64) (s : State) : State := setR (setR s lo (v.setWidth 32)) hi ((v >>> 32).setWidth 32)

def pubMaster (s : State) (i : Nat) : State :=
  let m := lseM s i
  let s := setR s (Reg.LSE_M_STATE i) m.stWord
  let s := pub64 (Reg.LSE_M_POS_LO i) (Reg.LSE_M_POS_HI i) m.pos s
  let s := pub64 (Reg.LSE_M_VEL_LO i) (Reg.LSE_M_VEL_HI i) m.v s
  pub64 (Reg.LSE_M_ACC_LO i) (Reg.LSE_M_ACC_HI i) m.a s

def pubSlave (s : State) (i : Nat) : State :=
  let y := lseS s i
  let s := setR s (Reg.LSE_S_STATE i) y.stWord
  let s := setR s (Reg.LSE_S_NUM i) y.num
  let s := setR s (Reg.LSE_S_DEN i) (BitVec.ofNat 32 y.den)
  let s := setR s (Reg.LSE_S_REM i) (BitVec.ofNat 32 y.r)
  let s := pub64 (Reg.LSE_S_POS_LO i) (Reg.LSE_S_POS_HI i) y.xOr s
  let s := pub64 (Reg.LSE_S_OFS_LO i) (Reg.LSE_S_OFS_HI i) y.o s
  let s := pub64 (Reg.LSE_S_CMD_LO i) (Reg.LSE_S_CMD_HI i) y.oCmd s
  let s := setR s (Reg.LSE_S_PHASE i) (y.phi.setWidth 32)
  setR s (Reg.LSE_S_HELD i) (match y.polys.head? with
    | some h => Reg.LSE_S_HELD_valid.mk' 1 ||| Reg.LSE_S_HELD_validity.mk' h.validity ||| Reg.LSE_S_HELD_origin.mk' h.h
    | none => 0)

def pubReg (s : State) (g : Nat) : State :=
  let r := lseR s g
  let s := setR s (Reg.LSE_R_STATE g) (lseRWord r)
  let s := pub64 (Reg.LSE_R_ERR_LO g) (Reg.LSE_R_ERR_HI g) r.err s
  pub64 (Reg.LSE_R_OFS_LO g) (Reg.LSE_R_OFS_HI g) r.oReg s

def pubCascade (s : State) (c : Nat) (rc : CascRec) : State :=
  let ts := numbered rc.stands
  let s := (List.range 16).foldl (fun (s : State) i =>
    let f : Word × Word := if i < rc.count then ((lseT s (rc.first + i)).f[0], (lseT s (rc.first + i)).f[1]) else (0, 0)
    setR (setR s (Reg.LSE_C_FACT c i) f.1) (Reg.LSE_C_NEXT c i) f.2) s
  setR s (Reg.LSE_C_STATE c) (BitVec.ofNat 32 (ts.map fun p => if (lseT s p.2).clamped then 2 ^ p.1 else 0).sum)

/-- Step 7: every LSE register. -/
def lsePublish (ns : Word) (s : State) : State :=
  let s := s.img.masters.foldl (fun (s : State) p => pubMaster s p.1) s
  let s := s.img.slaves.foldl (fun (s : State) p => pubSlave s p.1) s
  let s := s.img.regs.foldl (fun (s : State) p => pubReg s p.1) s
  let s := s.img.cascades.foldl (fun (s : State) p => pubCascade s p.1 p.2) s
  let s := setR s Reg.LSE_STATUS (Reg.LSE_STATUS_cascades.mk' s.img.cascades.length ||| Reg.LSE_STATUS_regs.mk' s.img.regs.length |||
    Reg.LSE_STATUS_slaves.mk' s.img.slaves.length ||| Reg.LSE_STATUS_masters.mk' s.img.masters.length)
  let s := setR s Reg.LSE_T_LAST ns
  setR s Reg.LSE_T_MAX (if (getR s Reg.LSE_T_MAX).toNat < ns.toNat then ns else getR s Reg.LSE_T_MAX)

/-- The update of FAST cycle N (Table 7.1). -/
def lseRun (x : LseCtx) (ns : Word) (s : State) : State :=
  let s := s.lse.stands.foldl (fun (s : State) p => setT s p.1 { p.2 with f := shiftF p.2.f (min x.c 5), clamped := false }) s
  let before := s
  let s := s.img.masters.foldl (fun (s : State) p => setM s p.1 (advanceMaster x p.2 (lseM s p.1))) s
  let after := s
  let dM := fun (i : Nat) => dpos (lseM after i).pos (lseM before i).pos
  let s := s.img.regs.foldl (fun (s : State) p => regStep x s p.1 p.2) s
  let s := s.img.cascades.foldl (fun (s : State) p => cascadeStep s p.2) s
  let s := s.img.slaves.foldl (fun (s : State) p => advanceSlave x dM s p.1 p.2) s
  lsePublish ns s

/-- The LSE after the commit of a full image and after START (R202). -/
def lseReset (s : State) : State :=
  setLse s
    { masters := s.img.masters.map fun p => (p.1, {})
      slaves := s.img.slaves.map fun p => (p.1, { phi := BitVec.ofNat 64 p.2.phi0 })
      regs := s.img.regs.map fun p => (p.1, {})
      stands := (s.img.cascades.flatMap fun p => p.2.stands).map fun i => (i, {}) }

/-- A FAST commit: staged polynomials become the held ones, and the last four are kept (R190, R196). -/
def lseCommit (s : State) : State :=
  let l := s.lse
  let ms := l.masters.map fun p => (p.1, { p.2 with
    polys := (match p.2.staged with
      | some q => (q :: p.2.polys).take 4
      | none => p.2.polys), staged := none })
  let ss := l.slaves.map fun p => (p.1, { p.2 with
    polys := (match p.2.staged with
      | some q => (q :: p.2.polys).take 4
      | none => p.2.polys), fresh := p.2.fresh && p.2.staged.isNone, staged := none })
  setLse s { l with masters := ms, slaves := ss }

/-- The 24 bytes of a polynomial record (Table 7.6). -/
def polyBytes (q : Poly) (stop : Bool) : List Byte :=
  beBytes 8 q.a0.toNat ++ beBytes 4 q.a1.toNat ++ beBytes 4 q.a2.toNat ++ beBytes 4 q.a3.toNat ++ beBytes 2 (q.h % 65536) ++
  [BitVec.ofNat 8 (q.validity % 8 + 8 * b2n q.origin + 16 * b2n q.join + 32 * b2n q.hold + 64 * b2n stop), 0]

/-- t_LSE in ns (R201). -/
def tLse (g : Image) : Nat :=
  let gear := (g.slaves.filter fun p => p.2.mode == 1).length
  let cams := (g.slaves.filter fun p => p.2.mode == 2).map fun p => 96 + 2 * ceilLog2 (g.cam p.2.profile).count
  let stands := (g.cascades.map fun p => p.2.count).sum
  2 * (120 + 24 * g.masters.length + (64 * gear + cams.sum + 40 * g.regs.length + 24 * stands + 3) / 4)

end Sys2Proof.Machine
end

