-- ==== Sys2Proof/Machine/Lane.lean ====
section
/-!
DEFINITION. Dual-lane comparison (chapter "Dual-Lane Execution and Comparison"): observability marking, mismatches, LATENTs, lane faults,
and the commands SPLIT and LOCK.
-/
namespace Sys2Proof.Machine

def setLane (s : State) (l : LaneSt) : State := { s with lane := l }

/-- The partner is takeover-ready as an executing module sees it (R246). -/
def partnerReady (s : State) : Bool :=
  s.red.partner.ready && (s.red.lanes[0].up || s.red.lanes[1].up) &&
  (match s.red.partner.at' with
   | some c => decide (s.time.c ≤ c + usT 50)
   | none => false)

/-! ### Observability (R167, R230) -/

/-- The export runs of REDUND (Table 10.1): first word and count. -/
def Image.exports (g : Image) : List (Nat × Nat) :=
  let r := ((g.recs 0x0F 0)[0]?).getD 0
  (List.range 4).map fun i => (fld r (16 + 8 * i) 4 % 2 ^ 17, fld r (20 + 8 * i) 4)

/-- Exported to the partner. -/
def Image.exported (g : Image) (n : Nat) : Bool := g.exports.any fun p => decide (p.1 ≤ n) && decide (n < p.1 + p.2)

/-- Axis interface blocks. -/
def isAxisBlk (t : Nat) : Bool := decide (0x28 ≤ t) && decide (t ≤ 0x2B)

/-- A root of the marking (R167, R230 steps 1 and 2). -/
def Image.obsRoot (g : Image) (recRoots : List Nat) (n : Nat) : Bool :=
  g.smtOut.any (fun e => e.covers n) || recRoots.contains n || g.exported n ||
  (match g.sigOf n with
   | some r => r.retentive || r.obsForce
   | none => false) ||
  g.order.any (fun o =>
    let t := (g.blk o.block).typ
    (isAxisBlk t || t == 0x2C) && (g.blkReads o.block).contains n) ||
  g.chains.any fun c => (g.chainActs c).contains n || (g.chainReads c).contains n

/-- The OBSERVABLE blocks after some repetitions of step 3. -/
def Image.obsBlocks (g : Image) (recRoots : List Nat) : Nat → List Nat
  | 0 => []
  | n + 1 =>
    let prev := g.obsBlocks recRoots n
    (g.order.map (·.block)).filter fun b =>
      (g.blkWrites b).any fun w => g.obsRoot recRoots w || prev.any fun p => (g.blkReads p).contains w

/-- A block is OBSERVABLE (R230). -/
def obsBlock (s : State) (b : Nat) : Bool := (s.img.obsBlocks s.recRoots (s.img.order.length + 1)).contains b

/-- A word is OBSERVABLE (R230). -/
def obsWord (s : State) (n : Nat) : Bool :=
  s.img.obsRoot s.recRoots n || (s.img.obsBlocks s.recRoots (s.img.order.length + 1)).any fun b => (s.img.blkReads b).contains n

/-- The marking of a compared write's target: chains, action words and the LSE are OBSERVABLE. -/
def CmpWr.obs (s : State) (w : CmpWr) : Bool :=
  match w.source with
  | .output => match w.word with
    | some n => obsWord s n
    | none => true
  | .state => obsBlock s w.ref
  | .sequencer | .lse => true

/-! ### Mismatches (R227, R231 to R233) -/

def srcCode : UpsetSource → Nat
  | .output => 0 | .state => 1 | .sequencer => 2 | .lse => 3

/-- A mismatch as LANE_MM records it. -/
structure Mis where
  kind : Nat
  src : Nat
  ref : Nat
  cls : Cls
  unit : Nat
  off : Nat
  a : BitVec 64
  b : BitVec 64
  qa : Byte
  qb : Byte
  obs : Bool
  deriving DecidableEq, Repr

/-- Record a mismatch: the first since valid was cleared fills the registers (R236: the caller gives the lower unit first). -/
def recordMis (m : Mis) (kind result : Nat) (s : State) : State :=
  if flag s Reg.LANE_MM_INFO Reg.LANE_MM_INFO_valid then satAdd s Reg.LANE_MM_INFO Reg.LANE_MM_INFO_count 1
  else
    let s := setR s Reg.LANE_MM_INFO (Reg.LANE_MM_INFO_valid.mk' 1 ||| Reg.LANE_MM_INFO_result.mk' result ||| Reg.LANE_MM_INFO_kind.mk' kind |||
      Reg.LANE_MM_INFO_source.mk' m.src ||| Reg.LANE_MM_INFO_class.mk' m.cls.code ||| Reg.LANE_MM_INFO_unit.mk' m.unit |||
      Reg.LANE_MM_INFO_count.mk' 1)
    let s := setR s Reg.LANE_MM_REF (Reg.LANE_MM_REF_ref.mk' m.ref)
    let s := setR s Reg.LANE_MM_ADDR (Reg.LANE_MM_ADDR_offset.mk' m.off)
    let s := setR s Reg.LANE_MM_CYCLE (BitVec.ofNat 32 (((s.cls.get m.cls).lastNo).getD 0))
    let s := pub64 Reg.LANE_MM_A_LO Reg.LANE_MM_A_HI m.a s
    let s := pub64 Reg.LANE_MM_B_LO Reg.LANE_MM_B_HI m.b s
    setR s Reg.LANE_MM_Q (Reg.LANE_MM_Q_q_a.mk' m.qa.toNat ||| Reg.LANE_MM_Q_q_b.mk' m.qb.toNat)

/-- A lane fault: recorded at severity 3, counted, and held for the first FAST OC (R234). -/
def laneFault (m : Mis) (kind : Nat) (s : State) : State :=
  let s := recordMis m kind 2 s
  let s := satAdd s Reg.LANE_CNT Reg.LANE_CNT_faults 1
  let s := recEvent s 0x0005 kind 3
  let here := (m.cls, ((s.cls.get m.cls).lastT0).getD 0)
  let f := match s.lane.fault with
    | some f => { f with classes := f.classes ++ [here] }
    | none => { ready := partnerReady s, classes := [here], splitEcc := s.lane.split && kind == 7 }
  setLane s { s.lane with fault := some f }

/-- 3,600 s of the raw TIME counter (R233). -/
def latentSpan : Nat := secT 3600

/-- A LATENT (R232), or the REPEAT lane fault that the third within an hour is (R233). A further mismatch on the same word or slot in the
same cycle adds nothing. -/
def latent (m : Mis) (s : State) : State :=
  if (s.lane.diverged.get m.cls).contains m.off then s
  else
    let s := setLane s { s.lane with diverged := s.lane.diverged.set m.cls (m.off :: s.lane.diverged.get m.cls) }
    match s.lane.hist with
    | [x, y] =>
      if s.time.c - x ≤ latentSpan then laneFault m 8 (setLane s { s.lane with hist := [] })
      else
        let s := setLane s { s.lane with hist := [y, s.time.c] }
        recEvent (satAdd (recordMis m m.kind 1 s) Reg.LANE_CNT Reg.LANE_CNT_latent 1) 0x0004 m.off 1
    | h =>
      let s := setLane s { s.lane with hist := h ++ [s.time.c] }
      recEvent (satAdd (recordMis m m.kind 1 s) Reg.LANE_CNT Reg.LANE_CNT_latent 1) 0x0004 m.off 1

/-- Table 9.2. -/
def judgeMis (m : Mis) (s : State) : State :=
  if m.kind ≤ 3 && !m.obs then latent m s else laneFault m m.kind s

/-- The comparator works in locked mode with lane B on (R235, R237). -/
def comparing (s : State) : Bool := !s.lane.split && !s.lane.bOff

/-- The number with `bits` inverted in its 64-bit word `word`, within `len` bytes. -/
def flipBits (v len word : Nat) (bits : BitVec 64) : Nat := v ^^^ (bits.toNat * 2 ^ (64 * word) % 2 ^ (8 * len))

/-- Bytes 0 to 7 of the first 16 bytes in which two values differ: all of a signal's value, and of state slots the first differing slot
(Table 9.4). -/
def firstDiff : Nat → Nat → Nat → Nat → BitVec 64 × BitVec 64
  | 0, _, a, b => (BitVec.ofNat 64 a, BitVec.ofNat 64 b)
  | n + 1, len, a, b =>
    if 16 < len ∧ a % 2 ^ 128 = b % 2 ^ 128 then firstDiff n (len - 16) (a / 2 ^ 128) (b / 2 ^ 128) else (BitVec.ofNat 64 a, BitVec.ofNat 64 b)

/-- Lane B's write where an upset or an injection strikes lane A's write `w`, or the uncorrectable read `w`. Of values that no lane has written
LANE_MM records what it finds (notes/assumptions/84.md). -/
def misOf (s : State) (k : Cls) (w : CmpWr) (kind : UpsetKind) (word : Nat) (bits : BitVec 64) : Mis :=
  let d := firstDiff (w.len / 16) w.len w.val (flipBits w.val w.len word (if kind = .value then bits else 0))
  let base : Mis := { kind := 1, src := srcCode w.source, ref := w.ref, cls := k, unit := w.unit % 8, off := w.off, a := d.1, b := d.2
                      qa := w.q, qb := w.q, obs := CmpWr.obs s w }
  match kind with
  | .value => base
  | .quality => { base with kind := 2, qb := w.q ^^^ bits.setWidth 8 }
  | .written => { base with kind := 3 }
  | .address => { base with kind := 4, off := (w.off ^^^ bits.toNat) % 2 ^ 25 }
  | .ecc =>
    { base with
      kind := 7, unit := if s.lane.split then w.unit else w.unit % 8, a := Config.laneValue s.freeCtr false, b := Config.laneValue s.freeCtr true
      qa := Config.laneQuality s.freeCtr false, qb := Config.laneQuality s.freeCtr true }

/-- Does the upset change lane B's write? -/
def strikes (u : Upset) (w : CmpWr) : Bool :=
  u.source == w.source && u.ref == w.ref && u.part == w.part && !w.ecc &&
  (match u.kind with
   | .value => w.written && flipBits w.val w.len u.word u.bits != w.val
   | .quality => u.bits.setWidth 8 != 0
   | .address => u.bits.toNat % 2 ^ 25 != 0
   | .written => true
   | .ecc => false)

/-- Judge one compared write (R228, R231, R241): an uncorrectable read, an armed injection into the block, or an upset of the environment. With
lane B off nothing is judged (R235); in split mode uncorrectable reads are (R237). -/
def judgeWrite (k : Cls) (upsets : List Upset) (s : State) (w : CmpWr) : State :=
  if w.ecc then (if s.lane.bOff && !s.lane.split then s else takeFree (judgeMis (misOf s k w .ecc 0 0) s))
  else if !comparing s then s
  else if s.lane.inject == some w.ref && (w.source == .output || w.source == .state) then
    let s := setLane s { s.lane with inject := none }
    if w.written then judgeMis (misOf s k w .value 0 1) s else s
  else
    match upsets.find? fun u => strikes u w with
    | some u => judgeMis (misOf s k w u.kind u.word u.bits) s
    | none => s

/-- Insert by a key, behind those with a key that is not higher. -/
def insertBy (key : CmpWr → Nat) (w : CmpWr) : List CmpWr → List CmpWr
  | [] => [w]
  | x :: l => if key x ≤ key w then x :: insertBy key w l else w :: x :: l

/-- Judge the compared writes of an evaluation in the order of their CORE clocks, and of one clock by rising unit (R236); `clk` gives the clock of a
write. -/
def judgeWrites (k : Cls) (clk : CmpWr → Nat) (upsets : List Upset) (ws : List CmpWr) (s : State) : State :=
  (ws.foldl (fun (l : List CmpWr) w => insertBy (fun w => 16 * clk w + w.unit % 16) w l) []).foldl (judgeWrite k upsets) s

/-- Store words that the environment strikes with a double-bit error (R10). -/
def struck (upsets : List Upset) (s : State) : State :=
  { s with ecc := (upsets.filter fun u => u.kind == .ecc).foldl (fun (m : SMap 2) u => m.put (u.bits.toNat % 2 ^ 25 / 8) 2) s.ecc }

/-! ### LANE_INJECT, SPLIT and LOCK (R239 to R241) -/

/-- The module is in the security state OPEN (R413). -/
def secOpen (s : State) : Bool := secState s == 0

/-- A write of LANE_INJECT (R241). -/
def laneInject (v : Word) (s : State) : State :=
  if secOpen s && executing s && !s.lane.split then
    setLane s { s.lane with inject := if v.getLsbD 31 then some (v.toNat % 65536) else none }
  else s

/-- The FAST period. -/
def fastP (s : State) : Nat := max 1 (s.img.period 0)

/-- The period of the slowest class present among FAST, MID and SLOW, which stands in for SLOW (R51). -/
def slowPeriod (g : Image) : Nat :=
  if g.hasCls 2 then g.period 2 else if g.hasCls 1 then g.period 1 else g.period 0

/-- The boundary of a period at or before now. -/
def t0Of (s : State) (p : Nat) : Int := now s / (max 1 p : Nat) * (max 1 p : Nat)

/-- No FAST, MID or SLOW cycle is running (R217, R240). -/
def clsIdle (s : State) : Bool := !s.cls.fast.running && !s.cls.mid.running && !s.cls.slow.running

/-- The result codes of LANE_CMD_STATUS. -/
def laneDone (s : State) (m : Master) (cmd status : Nat) : State := cmdDone s m Reg.LANE_CMD_STATUS cmd status

/-- The states that accept SPLIT and LOCK (Table 9.3). -/
def laneAccepts (m : Mode) : Bool := m != .boot

/-- Take a mode: locked or split. -/
def setSplit (s : State) (split : Bool) : State := setLane s { s.lane with split := split }

/-- A write of LANE_CMD (R239, R240). -/
def laneCmd (m : Master) (cmd : Nat) (s : State) : State :=
  let split := cmd == 1
  if cmd ≠ 1 ∧ cmd ≠ 2 then laneDone s m cmd 4
  else if !laneAccepts s.mode then cmdRefused s m Reg.LANE_CMD Reg.LANE_CMD_STATUS cmd
  else if s.lane.pend.isSome then laneDone s m cmd 3
  else if !split && s.img.split then laneDone s m cmd 6
  else if split && s.lane.bOff then laneDone s m cmd 7
  else if s.lane.split == split then laneDone s m cmd 0
  else if executing s then laneDone (setLane s { s.lane with pend := some (m, split, s.time.c) }) m cmd 2
  else laneDone (setSplit s split) m cmd 0

/-- A deferred SPLIT or LOCK is cancelled (R236, R240). -/
def lanePendCancel (s : State) : State :=
  match s.lane.pend with
  | some p => laneDone (setLane s { s.lane with pend := none }) p.1 (if p.2.1 then 1 else 2) 5
  | none => s

/-- A BACKGROUND pass in progress is abandoned: its vector is discarded, its block state stands (R217). -/
def abandonBackground (s : State) : State :=
  { s with cls := { s.cls with background := { s.cls.background with running := false, waves := 0, complete := false, chainsDone := false } } }

/-- A deferred SPLIT or LOCK can act at a T0: a SLOW T0 at least 5 µs after the command (R240), while no lane fault waits that will cancel it
(R236). -/
def laneDue (s : State) (t0 : Int) : Bool :=
  match s.lane.pend with
  | some p => t0 % (max 1 (slowPeriod s.img) : Nat) == 0 && decide (p.2.2 + usT 5 ≤ s.time.c) && s.lane.fault.isNone
  | none => false

/-- LANE_MODE_HANDOVER: the hand-over instant of a deferred SPLIT or LOCK, at the T0's edge (R240). An image with split_required that has been
switched in since leaves LOCK without effect (R238). -/
def laneModeHandover (s : State) : State :=
  match s.lane.pend with
  | some p =>
    let t0 := t0Of s (slowPeriod s.img)
    if executing s && edgeAt s t0 && clsIdle s && laneDue s t0 then
      let s := abandonBackground (setLane s { s.lane with pend := none })
      if !p.2.1 && s.img.split then laneDone s p.1 2 6 else laneDone (setSplit s p.2.1) p.1 (if p.2.1 then 1 else 2) 0
    else s
  | none => s

/-- LANE_STATUS. -/
def laneStatus (s : State) : Word :=
  Reg.LANE_STATUS_latent_hist.mk' s.lane.hist.length ||| Reg.LANE_STATUS_degraded.mk' (b2n s.lane.bOff) |||
  Reg.LANE_STATUS_split_req.mk' (b2n s.img.split) ||| Reg.LANE_STATUS_pending.mk' (b2n s.lane.pend.isSome) |||
  Reg.LANE_STATUS_b_off.mk' (b2n s.lane.bOff) ||| Reg.LANE_STATUS_mode.mk' (b2n s.lane.split)

end Sys2Proof.Machine
end

