-- ==== Sys2Proof/Machine/Own.lean ====
section
/-!
DEFINITION. Ownership of the line (R243, R261 to R263): designation, pairs of epoch and owner, what a seen epoch does, signs of life (R254),
and the transition between module states with what every transition carries with it (R54, R78, R419, R442).
-/
namespace Sys2Proof.Machine

/-! ### Designation and pairs -/

/-- SECONDARY by the designation in force (R243): RED_CFG.desig 0 and 3 take the slot strap. -/
def secondary (s : State) : Bool :=
  match getF s Reg.RED_CFG Reg.RED_CFG_desig with
  | 1 => false | 2 => true | _ => s.strap

/-- The owner ID: 1 PRIMARY, 2 SECONDARY (R243). -/
def ownId (s : State) : Nat := if secondary s then 2 else 1

/-- At equal epochs owner ID 1 is newer than 2, and no owner (0) is oldest (R261, R262). -/
def ownRank (o : Nat) : Nat := if o = 1 then 2 else if o = 2 then 1 else 0

/-- Pair a is newer than pair b (R261). -/
def pairNewer (a b : Nat × Nat) : Bool := decide (b.1 < a.1) || (a.1 == b.1 && decide (ownRank b.2 < ownRank a.2))

def setRed (s : State) (r : Red) : State := { s with red := r }

/-- The module's own pair. -/
def ownPair (s : State) : Nat × Nat := (s.red.epoch, ownId s)

/-- The newest pair the module knows: its own while it owns the line, otherwise the newest seen. -/
def knownPair (s : State) : Nat × Nat :=
  if s.owner && !pairNewer s.red.seenPair (ownPair s) then ownPair s else s.red.seenPair

/-- A pair seen from others: the highest known epoch goes to Ballast (R261); a pair newer than an executing module's own supersedes it at
the next FAST OC (R263), and one newer than that of an owner in SAFE ends its ownership at once (R77). -/
def notePair (e o : Nat) (s : State) : State :=
  let newer := pairNewer (e, o) (ownPair s)
  let s := { s with bal := { s.bal with epoch := max s.bal.epoch e } }
  let s := setF s Reg.RED_EPOCH_SEEN Reg.RED_EPOCH_SEEN_value (max (getF s Reg.RED_EPOCH_SEEN Reg.RED_EPOCH_SEEN_value) e)
  let s := if pairNewer (e, o) s.red.seenPair then setRed s { s.red with seenPair := (e, o) } else s
  if newer && executing s then setB (setRed s { s.red with newer := true }) Reg.RED_ALARM Reg.RED_ALARM_superseded true
  else if newer && s.mode == .safe && s.owner then
    let s := setB { s with owner := false } Reg.RED_ALARM Reg.RED_ALARM_superseded true
    recEvent (satAdd s Reg.RED_EVENTS Reg.RED_EVENTS_superseded 1) 0x0013 e 3
  else s

/-- An epoch that names no owner of the line: the highest epoch a sender holds, in Crickets and Tether frames. -/
def noteEpoch (e : Nat) (s : State) : State := notePair e 0 s

/-! ### Signs of life (R254, R269) -/

/-- The last sign of an earlier FAST interval than the present one's. -/
def signBefore (s : State) (last before : Option Int) : Option Int :=
  match last with
  | some x => if x / (fastP s : Int) < now s / (fastP s : Int) then some x else before
  | none => before

/-- The FAST interval that ended at the last T0 is still to be judged (R254). -/
def intervalOpen (s : State) : Bool :=
  match s.red.endT0 with
  | some x => decide (x < now s / (fastP s : Int) * fastP s)
  | none => false

/-- A sign of life of the partner, on a ring or on the Tether, with the readiness it shows. Isolation ends, and paralleled outputs follow from
the next OR. The silence counted so far ends, once the interval before the present one has been judged. -/
def signOfLife (ring ready : Bool) (s : State) : State :=
  let r := s.red
  { s with isolated := false
           red := { r with
             lifeAt := some (now s), lifeBefore := signBefore s r.lifeAt r.lifeBefore, lifeReady := ready, isolation := 0, isoCommitted := false
             silence := if intervalOpen s then r.silence else 0
             ringAt := if ring then some (now s) else r.ringAt
             ringBefore := if ring then signBefore s r.ringAt r.ringBefore else r.ringBefore } }

/-! ### Transactions on their boundaries (R50, R51, R54) -/

/-- The class that stands in for a class named at a boundary: the slowest present one not slower (R51). -/
def Image.standIn (g : Image) (k : Nat) : Nat :=
  if k = 2 then (if g.hasCls 2 then 2 else if g.hasCls 1 then 1 else 0) else if k = 1 ∧ g.hasCls 1 then 1 else 0

/-- The base tick (R59). -/
def baseTick : Nat := 31250

/-- The grid on which a PENDING transaction's boundary lies (Table 2.13). -/
def txnGrid (s : State) (x : Txn) : Nat :=
  if !executing s then baseTick
  else if x.image && x.delta then slowPeriod s.img
  else if x.image then baseTick
  else max 1 (s.img.period (s.img.standIn x.boundary))

/-- The first boundary that a PENDING transaction can take from an instant on (R50); a delta's latch deadline lies before the first of all, though
its switch may pass boundaries over (R217). -/
def txnBoundary (s : State) (x : Txn) (n : Int) : Int :=
  gridUp (txnGrid s x) (if x.image && x.delta then x.latch + 5000 else max (x.latch + 5000) n)

/-- The latch deadline, 5 µs before the boundary, has passed (R50). A delta that mirrors the partner's waits for the switch marker. -/
def latchPassed (s : State) (x : Txn) : Bool :=
  !(x.image && x.delta && !executing s) && decide (txnBoundary s x (now s) - 5000 < now s)

def setTxn (s : State) (m : Master) (x : Txn) : State := { s with txn := s.txn.set m x }

/-- The transaction returns to IDLE: staged writes are discarded and locks released (R53). -/
def txnIdle (m : Master) (aborted : Bool) (s : State) : State :=
  setTxn s m { ({} : Txn) with aborted := aborted }

/-- The CTU rolls a transaction back on its own (R54). -/
def txnAbort (m : Master) (s : State) : State := txnIdle m true s

/-- A PENDING one is rolled back by SAFE entry before its latch deadline, and a full image's by ACTIVE or SOLO entry before its boundary (R54
cases 3 and 4); one that has been applied and waits for the old rule epoch to drain (R411) has passed its boundary. -/
def txnsOnEntry (dst : Mode) (s : State) : State :=
  masters.foldl (fun (s : State) m =>
    let x := s.txn.get m
    if x.st != .pending || s.art.waiting.contains m then s
    else if dst == .safe && !latchPassed s x then txnAbort m s
    else if (dst == .active || dst == .solo) && !executing s && x.image && !x.delta then txnAbort m s
    else s) s

/-! ### State transitions (R78) -/

/-- A Scarab run ends early: the running test reports ABORTED, the later ones NOT_RUN (R442). -/
def scarabEnd (s : State) : State :=
  match s.bist with
  | none => s
  | some b =>
    let s := setR s (Reg.BIST_RES (b.test - 1)) (Reg.BIST_RES_result.mk' 4)
    let s := b.later.foldl (fun (s : State) t => setR s (Reg.BIST_RES (t - 1)) 0) s
    setF (setB { s with bist := none } Reg.BIST_STATUS Reg.BIST_STATUS_running false) Reg.BIST_STATUS Reg.BIST_STATUS_test 0

/-- The states in which Table 17.6 allows a freeze. -/
def frozenState (m : Mode) : Bool := m == .hold || m == .standby || m == .safe || m == .service

/-- A transition to another module state. Into a state in which Table 17.6 forbids a freeze or a core halt, the engine thaws and the cores
resume (R419, R420; notes/assumptions/34.md). -/
def enter (dst : Mode) (c : Cause) (s : State) : State :=
  let s := scarabEnd s
  let s := txnsOnEntry dst s
  let s := if frozenState dst then s else { s with dbg := { s.dbg with frozen := false, mc0 := false, mc1 := false } }
  { s with mode := dst, prev := s.mode, cause := c }

end Sys2Proof.Machine
end

