-- ==== Sys2Proof/Machine/Ring.lean ====
section
/-!
DEFINITION. Feger rings (chapter "Feger Rings and Station Protocol"): image records, frames and their parsing, the slot schedule, the
states of stations, and the status registers.
-/
namespace Sys2Proof.Machine

/-! ### Image records (Tables 11.5, R287, R288) -/

structure StaRec where
  addr : Nat
  ring : Nat
  pos : Nat
  hold : Nat
  vendor : Nat
  product : Nat
  ev : Nat
  deriving DecidableEq, Repr

def staRec (r : Nat) : StaRec :=
  { addr := fld r 0 2, ring := fld r 2 1, pos := fld r 3 1, hold := fld r 4 4, vendor := fld r 8 4, product := fld r 12 4, ev := fld r 16 2 }

structure FSeg where
  sta : Nat
  down : Bool
  index : Nat
  words : Nat
  deriving DecidableEq, Repr

def fSeg (r : Nat) : FSeg := { sta := fld r 0 2, down := fld r 2 1 == 1, index := fld r 3 1, words := fld r 4 2 }

structure FSlot where
  ring : Nat
  kind : Nat
  ref : Nat
  start : Nat
  deriving DecidableEq, Repr

def fSlot (r : Nat) : FSlot := { ring := fld r 0 1, kind := fld r 1 1, ref := fld r 2 2, start := fld r 4 4 }

def Image.stas (g : Image) : List (Nat × StaRec) := numbered ((g.recs 0x0B 0).map staRec)
def Image.fsegs (g : Image) : List (Nat × FSeg) := numbered ((g.recs 0x0B 1).map fSeg)
def Image.fslots (g : Image) : List (Nat × FSlot) := numbered ((g.recs 0x0B 2).map fSlot)
def Image.stasOn (g : Image) (k : Nat) : List (Nat × StaRec) := g.stas.filter fun p => p.2.ring == k
def Image.staAt (g : Image) (k addr : Nat) : Option (Nat × StaRec) := (g.stasOn k).find? fun p => p.2.addr == addr
def Image.sta (g : Image) (i : Nat) : StaRec := staRec (((g.recs 0x0B 0)[i]?).getD 0)
def Image.fseg (g : Image) (i : Nat) : FSeg := fSeg (((g.recs 0x0B 1)[i]?).getD 0)

/-- The image holds ring k: both its ports have the role RING (R35). -/
def Image.ringUsed (g : Image) (k : Nat) : Bool := g.role (2 * k) == 1 && g.role (2 * k + 1) == 1

/-- The uplink segments of a station in ascending index, and its downlink segments. -/
def Image.upSegsOf (g : Image) (i : Nat) : List (Nat × FSeg) :=
  ((g.fsegs.filter fun p => !p.2.down && p.2.sta == i)).mergeSort fun a b => decide (a.2.index ≤ b.2.index)

/-- Body bytes of a station's uplink (R284). -/
def Image.upBody (g : Image) (i : Nat) : Nat := 4 + ((g.upSegsOf i).map fun p => 4 + 4 * p.2.words).sum

/-- Wire bytes of a Feger frame with a body (R43, R281): addresses, EtherType, header, check value, FCS, preamble, gap. -/
def fgrWire (body : Nat) : Nat := body + 14 + 16 + 4 + 4 + 20

/-- Body bytes that a downlink segment takes (R283). -/
def FSeg.dlBytes (x : FSeg) : Nat := 12 + 4 * x.words

/-- The downlink segments of a ring in ascending record order (R287). -/
def Image.dlSegs (g : Image) (k : Nat) : List (Nat × FSeg) := g.fsegs.filter fun p => p.2.down && (g.sta p.2.sta).ring == k

/-- The segments of a ring's downlink frames: a new frame begins when the next segment does not fit within 1,480 body bytes (R287). -/
def packSegs : Nat → List (Nat × FSeg) → List (Nat × FSeg) → List (List (Nat × FSeg))
  | _, acc, [] => if acc.isEmpty then [] else [acc.reverse]
  | used, acc, p :: l =>
    if used + p.2.dlBytes ≤ 1480 then packSegs (used + p.2.dlBytes) (p :: acc) l
    else acc.reverse :: packSegs (32 + p.2.dlBytes) [p] l

def Image.dlFrames (g : Image) (k : Nat) : List (List (Nat × FSeg)) := packSegs 32 [] (g.dlSegs k)

/-- The class of a segment: that of its output entries and polynomials; with neither it goes with FAST (R287). -/
def Image.segCls (g : Image) (i : Nat) : Nat :=
  match g.smtOut.find? fun e => e.kind == 0 && e.unit == i with
  | some e => g.entCls e
  | none => 0

/-! ### Frames (R281 to R285) -/

/-- A Feger frame as it arrived. -/
structure Frm where
  src : Nat
  typ : Nat
  owner : Nat
  epoch : Nat
  cycle : Nat
  flags : Nat
  body : List Byte
  deriving DecidableEq, Repr

/-- How an arriving frame is judged before its type acts (Table 11.10). -/
inductive Parsed where
  | foreign | badFcs | badFormat
  | good (f : Frm)
  deriving DecidableEq, Repr

/-- The segments of an uplink body. -/
def parseUp : Nat → List Byte → Option (List UpSeg)
  | _, [] => some []
  | n + 1, i :: f :: w1 :: w0 :: l =>
    let w := w1.toNat * 256 + w0.toNat
    if l.length < 4 * w then none
    else (parseUp n (l.drop (4 * w))).map fun r =>
      { index := i.toNat, valid := f.getLsbD 0, words := (List.range w).map fun j => BitVec.ofNat 32 (beNat (slice l (4 * j) 4)) } :: r
  | _, _ => none

/-- The segments of a downlink body fill it exactly (R283). -/
def dlFits : Nat → List Byte → Bool
  | _, [] => true
  | 0, _ => false
  | n + 1, l =>
    let w := beNat (slice l 4 2)
    decide (12 + 4 * w ≤ l.length) && dlFits n (l.drop (12 + 4 * w))

/-- The body's length fits the type (R283 to R285). -/
def bodyFits (typ : Nat) (b : List Byte) : Bool :=
  let n := b.length
  match typ with
  | 1 => decide (32 ≤ n) && dlFits n (b.drop 32)
  | 2 => decide (4 ≤ n) && (parseUp n (b.drop 4)).isSome
  | 3 => n == 0
  | 4 => n == 4
  | 5 => n == 12
  | 6 => decide (12 ≤ n) && (n == 12 + beNat (slice b 10 2)) && decide (beNat (slice b 10 2) ≤ 1024)
  | 7 => match beNat (slice b 2 1) with
    | 1 => n == 4
    | 2 => n == 28
    | 3 => decide (8 ≤ n) && (n == 8 + beNat (slice b 6 2)) && decide (beNat (slice b 6 2) ≤ 64)
    | _ => false
  | _ => false

def etherType (l : List Byte) : Nat := beNat (slice l 12 2)

/-- Table 11.10, in its order. -/
def parseFgr (s : State) (fcsOk : Bool) (l : List Byte) : Parsed :=
  if !fcsOk then .badFcs
  else if etherType l == 0x8100 then .badFormat
  else if etherType l != getF s Reg.FGR_ETYPE Reg.FGR_ETYPE_etype then .foreign
  else if l.length < 34 || 1518 < l.length + 4 then .badFormat
  else
    let n := beNat (slice l 26 2)
    let typ := beNat (slice l 15 1)
    if beNat (slice l 14 1) != 1 || typ == 0 || 7 < typ || l.length != 34 + n then .badFormat
    else if crc32c (slice l 14 (16 + n)) != BitVec.ofNat 32 (beNat (l.drop (30 + n))) then .badFcs
    else
      let b := slice l 30 n
      if !bodyFits typ b then .badFormat
      else .good { src := beNat (slice l 6 6), typ := typ, owner := beNat (slice l 17 1), epoch := beNat (slice l 18 4)
                   cycle := beNat (slice l 22 4), flags := beNat (slice l 28 2), body := b }

/-- The owner ID and port of a module's source address 02-46-47-00-0i-pp (R281). -/
def modSrc (src : Nat) : Option (Nat × Nat) :=
  let i := src / 256 % 256
  if src / 65536 = 0x02464700 ∧ (i = 1 ∨ i = 2) ∧ src % 256 < 12 then some (i, src % 256) else none

/-- A frame of the module on a port (R281). -/
def fgrFrame (s : State) (p typ owner epoch cycle flags : Nat) (body : List Byte) : List Byte :=
  let h := [1, BitVec.ofNat 8 typ, BitVec.ofNat 8 (p / 2), BitVec.ofNat 8 owner] ++ beBytes 4 epoch ++ beBytes 4 cycle ++
    beBytes 2 body.length ++ beBytes 2 flags ++ body
  [0x03, 0x00, 0x00, 0x46, 0x47, BitVec.ofNat 8 (p / 2)] ++ [0x02, 0x46, 0x47, 0x00, BitVec.ofNat 8 (ownId s), BitVec.ofNat 8 p] ++
    beBytes 2 (getF s Reg.FGR_ETYPE Reg.FGR_ETYPE_etype) ++ h ++ beBytes 4 (crc32c h).toNat

/-! ### Ports -/

def portLink (s : State) (p : Nat) : Bool := if h : p < 12 then s.fgr.link[p] else false

/-- A port works as a ring port: an image gives it the role RING, outside BOOT (R279). -/
def ringPort (s : State) (p : Nat) : Bool := s.mode != .boot && loaded s && s.img.role p == 1

def setFgr (s : State) (f : Feger) : State := { s with fgr := f }

def emit (m : OutMsg) (s : State) : State := { s with out := m :: s.out }

/-- A frame leaves a port whose link is up. -/
def sendPort (p : Nat) (l : List Byte) (good : Bool) (s : State) : State := if portLink s p then emit (.port p l good) s else s

/-- A frame of the module goes out on both ports of a ring. -/
def sendRing (k typ owner epoch cycle flags : Nat) (body : List Byte) (s : State) : State :=
  if ringPort s (2 * k) then
    sendPort (2 * k + 1) (fgrFrame s (2 * k + 1) typ owner epoch cycle flags body) true
      (sendPort (2 * k) (fgrFrame s (2 * k) typ owner epoch cycle flags body) true s)
  else s

/-! ### Schedule (R288, R291, R295) -/

/-- Stations on a ring. -/
def Image.nSta (g : Image) (k : Nat) : Nat := (g.stasOn k).length

/-- Hops from the station at a position to a port of the module (R278). -/
def hopsFrom (s : State) (g : Image) (p pos : Nat) : Nat :=
  let n := g.nSta (p / 2)
  match secondary s, p % 2 == 0 with
  | false, true => pos
  | false, false => n + 2 - pos
  | true, true => pos + 1
  | true, false => n + 1 - pos

/-- The image whose uplink slots are in force for an instant (R295). -/
def slotImg (s : State) (x : Int) : Image :=
  match s.fgr.oldSlots with
  | some (u, g) => if x / (fastP s : Int) * fastP s < u then g else s.img
  | none => s.img

/-- The instant lies in the window of a start: from T0 + start − 1 µs for `len` ns and the hops, to 1 µs after (R291). -/
def inWindow (p hops start len : Nat) (x : Int) : Bool :=
  decide ((x - ((start : Int) - 1000)) % (max 1 p : Nat) ≤ hops * 1200 + 2000 + len)

/-- The uplink slots of a ring in whose window a frame's first byte arrives at a port, each with the start, the station's address and its
record in the image whose slots are in force. -/
def slotsAt (s : State) (p : Nat) (x : Int) : List (Nat × Nat × Nat) :=
  let g := slotImg s x
  (g.fslots.filter fun q => q.2.kind == 1 && q.2.ring == p / 2 && inWindow (fastP s) (hopsFrom s g p (g.sta q.2.ref).pos) q.2.start 0 x).map
    fun q => (q.2.start, (g.sta q.2.ref).addr, q.2.ref)

/-- The phase in the FAST period at which a slot's frame of an image begins to leave a port of the module (R288, R289). -/
def slotPhase (s : State) (g : Image) (p : Nat) (x : FSlot) : Nat :=
  let n := g.nSta (p / 2)
  let here := if secondary s then n + 1 else 0
  let node := match x.kind with
    | 1 => (g.sta x.ref).pos
    | 2 => 0
    | 3 => n + 1
    | _ => here
  let hops := if p % 2 = 0 then (here + (n + 2) - node) % (n + 2) else (node + (n + 2) - here) % (n + 2)
  let start := if x.kind = 0 then fastP s - 2000 + x.start else x.start
  start + 1200 * hops

/-- The class C slots of a port's ring in force at an instant, by phase: after a delta switch the old uplink slots until T0_sw + 2P, and the old
downlink slots for the set committed before it (R218, R295). -/
def slotPhases (s : State) (p : Nat) (x : Int) : List Nat :=
  let of := fun (g : Image) (keep : FSlot → Bool) => (g.fslots.filter fun q => q.2.ring == p / 2 && keep q.2).map fun q => slotPhase s g p q.2
  of s.img (fun q => q.kind != 1) ++ of (slotImg s x) (fun q => q.kind == 1) ++
    (match s.fgr.oldSet with
      | some o => of o.1 fun q => q.kind == 0
      | none => [])

/-- The ns from an instant to the next class C slot of a port. -/
def toNextSlot (s : State) (p : Nat) (x : Int) : Option Nat :=
  if s.img.role p != 1 then none else ((slotPhases s p x).map fun (n : Nat) => (((n : Int) - x) % (fastP s : Int)).toNat).min?

/-- Wire time of a frame of `n` bytes without FCS, in ns (R43). -/
def wireNs (n : Nat) : Nat := 8 * (n + 24)

/-- A frame of `n` bytes that starts now ends before the next class C slot of a port begins (R16). -/
def fitsNow (s : State) (p n : Nat) : Bool :=
  match toNextSlot s p (now s) with
  | some x => decide (wireNs n ≤ x)
  | none => true

/-! ### Class E frames of the module's own (R16, R282, R296) -/

/-- A CLAIM or a RELEASE, which goes ahead of other class E frames (Table 11.2). -/
def isUrgent (l : List Byte) : Bool := beNat (slice l 15 1) == 3 || beNat (slice l 15 1) == 4

/-- A class E frame of the module starts on a port at once where it fits before the next slot and none waits there; otherwise it waits, a CLAIM
or RELEASE ahead of others (notes/assumptions/75.md). -/
def sendE (p : Nat) (l : List Byte) (s : State) : State :=
  if !portLink s p then s
  else if fitsNow s p l.length && !s.fgr.urgent.any (fun q => q.1 == p) then sendPort p l true s
  else
    let u := s.fgr.urgent
    let ahead := u.takeWhile fun q => isUrgent q.2
    setFgr s { s.fgr with urgent := if isUrgent l then ahead ++ (p, l) :: u.drop ahead.length else u ++ [(p, l)] }

/-- The first frame of the module's own that waits on a port. -/
def waitingE (s : State) (p : Nat) : Option (List Byte) := (s.fgr.urgent.find? fun q => q.1 == p).map (·.2)

/-- The first waiting frame of a port leaves it where it fits. -/
def sendWaiting (p : Nat) (s : State) : State :=
  match waitingE s p with
  | some l =>
    if fitsNow s p l.length then
      sendPort p l true (setFgr s { s.fgr with urgent := s.fgr.urgent.eraseP fun q => q.1 == p })
    else s
  | none => s

/-- A class E frame of the module for both ports of a ring. -/
def sendRingE (k typ owner epoch cycle : Nat) (body : List Byte) (s : State) : State :=
  if ringPort s (2 * k) then
    sendE (2 * k + 1) (fgrFrame s (2 * k + 1) typ owner epoch cycle 0 body) (sendE (2 * k) (fgrFrame s (2 * k) typ owner epoch cycle 0 body) s)
  else s

/-- CLAIM and RELEASE go out on both ports of every ring (R264, R266, R296). -/
def sendRings (typ owner epoch cycle : Nat) (body : List Byte) (s : State) : State :=
  (List.range 6).foldl (fun (s : State) k => sendRingE k typ owner epoch cycle body s) s

/-- The first byte's instant of a frame whose last byte arrives now: the receive timestamp (R305). -/
def firstByte (s : State) (p len : Nat) : Int := rxStamp s p - 8 * (len + 3 : Int)

/-! ### Stations (R292, R293) -/

def staOf (s : State) (i : Nat) : Station := (Tab.get? s.fgr.sta i).getD {}
def setSta (s : State) (i : Nat) (x : Station) : State := setFgr s { s.fgr with sta := Tab.put s.fgr.sta i x }

def ringAlarm (k : Nat) (f : Fld) (s : State) : State := setB s (Reg.FGR_RING_ALARM k) f true

/-- A case of R293 concerns a station record. -/
def conflictSta (i : Nat) (s : State) : State :=
  let s := setSta s i { staOf s i with conflict := true, conflictNow := true, clean := 0 }
  recEvent (ringAlarm (s.img.sta i).ring Reg.FGR_RING_ALARM_conflict s) 0x0007 i 2

/-- A station is LOST: its source address is freed. Entry is recorded, and raises station_lost from FRESH and MISSED (R155, R292). -/
def loseSta (i : Nat) (s : State) : State :=
  let x := staOf s i
  let s := setSta s i { x with st := .lost, src := none, goods := 0, idOk := false, entered := false }
  let s := recEvent s 0x0006 i 2
  if x.st == .fresh || x.st == .missed then ringAlarm (s.img.sta i).ring Reg.FGR_RING_ALARM_station_lost s else s

/-- DIAG IDENTIFY to a station (R285, R292). -/
def sendIdentify (i : Nat) (s : State) : State :=
  let r := s.img.sta i
  let own := s.owner && (executing s || s.mode == .safe)
  if own then
    let s := setSta s i { staOf s i with identAt := some s.time.c }
    sendRingE r.ring 7 (ownId s) s.red.epoch ((now s / (fastP s : Int)).toNat % 2 ^ 32) (beBytes 2 r.addr ++ [1, 0]) s
  else s

/-- The end of a FAST interval for one station at a T0 (R155, R292, R293). -/
def staInterval (t0 : Int) (s : State) (i : Nat) : State :=
  let x := staOf s i
  let inIt := x.got.any fun c => decide (c.ts < t0)
  let good := inIt && !x.conflict
  let x1 := { x with
    good := good
    segs := if good then (x.got.map (·.segs)).getD x.segs else x.segs
    got := if inIt then none else x.got
    heardLast := x.heard, heard := false, entered := x.entered && !inIt
    viaA := x.seenA, viaB := x.seenB, seenA := false, seenB := false, badA := false, badB := false
    missing := if good then 0 else min 255 (x.missing + 1)
    conflict := x.conflict && (x.conflictNow || decide (x.clean + 1 < 8))
    clean := if x.conflictNow then 0 else min 8 (x.clean + 1)
    conflictNow := false }
  let counts := match x.holdFrom with
    | some h => decide (h + fastP s ≤ t0)
    | none => true
  match x.st, good with
  | .lost, _ => setSta s i x1
  | .returning, true =>
    let n := if counts && !x.entered then min 8 (x.goods + 1) else 0
    setSta s i { x1 with goods := n, st := if n = 8 && x.idOk then .fresh else .returning }
  | .returning, false => if x1.entered then setSta s i x1 else loseSta i (setSta s i x1)
  | .fresh, true | .missed, true => setSta s i { x1 with st := .fresh }
  | .fresh, false => setSta s i { x1 with st := .missed }
  | .missed, false => if 3 ≤ x1.missing then loseSta i (setSta s i x1) else setSta s i x1

/-- Ring Crickets at a FAST T0: a Cricket that did not return opens its ring (R280). -/
def cricketsAtT0 (s : State) : State :=
  (List.range 6).foldl (fun (s : State) k =>
    if s.fgr.crkOut.getLsbD k then
      let back := fun (p : Nat) => s.fgr.crkBack.getLsbD p
      let ok := back (2 * k) || back (2 * k + 1)
      let f := s.fgr
      let one : BitVec 6 := BitVec.ofNat 6 (2 ^ k)
      let two : BitVec 12 := BitVec.ofNat 12 (3 * 4 ^ k)
      let s := setFgr s { f with
        crkOut := f.crkOut &&& ~~~one, crkBack := f.crkBack &&& ~~~two
        returned := (f.returned &&& ~~~two) ||| (f.crkBack &&& two)
        closed := if ok then f.closed ||| one else f.closed &&& ~~~one }
      if ok then s else ringAlarm k Reg.FGR_RING_ALARM_ring_open s
    else s) s

/-- A cycle has started and nothing of it has been evaluated. -/
def clsUntouched (g : Image) (k : Cls) (c : ClassRun) : Bool :=
  c.running && c.waves == (g.waves k.code).length && !c.chainsDone && !c.lseDone

/-- The T0 whose snapshots are still open for data in a crossing (R63): no class that started there has begun to evaluate
(notes/assumptions/83.md). -/
def crossingT0 (s : State) : Option Int :=
  match ([Cls.fast, .mid, .slow, .background].filter fun k => (s.cls.get k).running && (s.cls.get k).snapT0.isSome).map fun k =>
      (k, (s.cls.get k).snapT0.getD 0) with
  | [] => none
  | l =>
    let t0 := l.foldl (fun (m : Int) p => max m p.2) ((l.head?.map (·.2)).getD 0)
    if (l.filter fun p => p.2 == t0).all fun p => clsUntouched s.img p.1 (s.cls.get p.1) then some t0 else none

/-- The rings with a good uplink in the interval (R249). -/
def countRingsGood (s : State) : State :=
  setFgr s { s.fgr with
    rings := ((List.range 6).map fun k => if (s.img.stasOn k).any fun p => (staOf s p.1).good then 2 ^ k else 0).sum }

/-- The station_lost alarms of the rings. -/
def lostAlarms (s : State) : BitVec 6 :=
  BitVec.ofNat 6 ((List.range 6).map fun k => if flag s (Reg.FGR_RING_ALARM k) Reg.FGR_RING_ALARM_station_lost then 2 ^ k else 0).sum

/-- The end of a FAST interval for the rings: stations, Crickets, and the rings with a good uplink (R155, R249, R280). -/
def ringsInterval (t0 : Int) (s : State) : State :=
  let s := setFgr s { s.fgr with before := some (t0, s.fgr.sta, lostAlarms s) }
  cricketsAtT0 (countRingsGood (s.img.stas.foldl (fun (s : State) p => staInterval t0 s p.1) s))

/-- The station as it stood before the interval end at `t0`, in place of what that end made of it: an entry into LOST that this end recorded
is taken back, with the alarm that it raised. -/
def backToInterval (i : Nat) (tab : Tab Station) (alarms : BitVec 6) (s : State) : State :=
  let old := (Tab.get? tab i).getD {}
  let ring := (s.img.sta i).ring
  let fell := fun (j : Nat) => let y := ((Tab.get? tab j).getD {}).st; (y == .fresh || y == .missed) && (staOf s j).st == .lost
  let s' := setSta s i old
  if old.st != .lost && (staOf s i).st == .lost then
    let s' := { s' with rcd := { s'.rcd with queue := s'.rcd.queue.erase (.event 0x0006 i 2) } }
    if alarms.getLsbD ring || (s.img.stasOn ring).any (fun p => p.1 != i && fell p.1) then s'
    else setB s' (Reg.FGR_RING_ALARM ring) Reg.FGR_RING_ALARM_station_lost false
  else s'

/-- A station's interval end, done again with what `f` takes for it: an uplink that was in a crossing at the T0 belongs to the interval before it
(R63). -/
def staAgain (i : Nat) (t0 : Int) (tab : Tab Station) (alarms : BitVec 6) (f : State → State) (s : State) : State :=
  countRingsGood (staInterval t0 (f (backToInterval i tab alarms s)) i)

/-- Stations that enter LOST by an image commit or by `START` are recorded like any other entry (R155, Table 11.8). -/
def recordLost (old : Tab Station) (s : State) : State :=
  (s.img.stas.filter fun p => ((Tab.get? old p.1).getD {}).st != .lost && (staOf s p.1).st == .lost).foldl
    (fun (s : State) p => recEvent s 0x0006 p.1 2) s

/-- Every station LOST: a full image commit and `START` (R292). -/
def stasReset (s : State) : State :=
  recordLost s.fgr.sta (setFgr s { s.fgr with sta := s.img.stas.map fun p => (p.1, ({} : Station)), before := none })

/-! ### Status registers (Table 11.12) -/

def staWord (s : State) (i : Nat) : Word :=
  if i < (s.img.recs 0x0B 0).length then
    let x := staOf s i
    Reg.FGR_STA_missing.mk' x.missing ||| Reg.FGR_STA_st_status.mk' x.stStatus.toNat ||| Reg.FGR_STA_conflict.mk' (b2n x.conflict) |||
    Reg.FGR_STA_id_mismatch.mk' (b2n x.idMismatch) ||| Reg.FGR_STA_stale_pair.mk' (b2n x.stale) ||| Reg.FGR_STA_via_b.mk' (b2n x.viaB) |||
    Reg.FGR_STA_via_a.mk' (b2n x.viaA) ||| Reg.FGR_STA_state.mk' x.st.code
  else 0

def ringStatus (s : State) (k : Nat) : Word :=
  let l := (s.img.stasOn k).map fun p => staOf s p.1
  let used := s.img.ringUsed k
  Reg.FGR_RING_STATUS_used.mk' (b2n used) ||| Reg.FGR_RING_STATUS_link_b.mk' (b2n (portLink s (2 * k + 1))) |||
  Reg.FGR_RING_STATUS_link_a.mk' (b2n (portLink s (2 * k))) ||| Reg.FGR_RING_STATUS_closed.mk' (b2n (s.fgr.closed.getLsbD k)) |||
  Reg.FGR_RING_STATUS_conflict.mk' (l.countP (·.conflict)) |||
  Reg.FGR_RING_STATUS_lost.mk' (l.countP fun x => x.st == .lost || x.st == .returning) |||
  Reg.FGR_RING_STATUS_fresh.mk' (l.countP fun x => x.st == .fresh || x.st == .missed)

def portStatus (s : State) (p : Nat) : Word :=
  Reg.FGR_P_STATUS_returned.mk' (b2n (s.fgr.returned.getLsbD p)) |||
  Reg.FGR_P_STATUS_ring.mk' (if s.img.role p == 1 then p / 2 else 0) ||| Reg.FGR_P_STATUS_role.mk' (s.img.role p) |||
  Reg.FGR_P_STATUS_forwarding.mk' (b2n (ringPort s p)) ||| Reg.FGR_P_STATUS_link.mk' (b2n (portLink s p))

end Sys2Proof.Machine
end

