-- ==== Sys2Proof/Machine/Feger.lean ====
section
/-!
DEFINITION. What Feger ports send and receive: transmit queues, downlink frames, ring Crickets, forwarding, uplinks, PARAM, DIAG and PTP
frames (chapters "Feger Rings and Station Protocol" and "Network Time, Time-Stamping and Time Triggers").
-/
namespace Sys2Proof.Machine

/-! ### PTP messages (R305 to R310). Field places are those of IEEE 1588-2019 (notes/assumptions/21.md). -/

/-- Where the PTP message of a frame begins on a port: by IEEE 802.3 transport, or with the udp bit of a clock port by UDP/IPv4 port 319 or
320; a port with code 0 knows no PTP (Tables 12.2, 12.3). -/
def ptpAt (s : State) (p : Nat) (l : List Byte) : Option Nat :=
  let b := s.img.ptp p
  if b % 8 == 0 then none
  else if s.img.role p == 1 || !bit b 4 then (if etherType l == 0x88F7 then some 14 else none)
  else if etherType l == 0x0800 && beNat (slice l 14 1) == 0x45 && beNat (slice l 23 1) == 17 &&
      (beNat (slice l 36 2) == 319 || beNat (slice l 36 2) == 320) then some 42
  else none

def ptpType (l : List Byte) (o : Nat) : Nat := beNat (slice l o 1) % 16
def ptpSeq (l : List Byte) (o : Nat) : Nat := beNat (slice l (o + 30) 2)

/-- Sync 0, Delay_Req 1, Pdelay_Req 2 and Pdelay_Resp 3 are event messages. -/
def ptpEvent (t : Nat) : Bool := decide (t ≤ 3)

/-- A list with bytes from an offset on replaced. -/
def patch (l : List Byte) (o : Nat) (n : List Byte) : List Byte := l.take o ++ n ++ l.drop (o + n.length)

/-- Add to correctionField, modulo 2^64. -/
def addCf (l : List Byte) (o : Nat) (x : Int) : List Byte :=
  patch l (o + 8) (beBytes 8 (unsgn 64 ((beNat (slice l (o + 8) 8) : Int) + x)))

/-- A port of the module's own PTP clock: codes 1 and 2, and ring ports with ring_port (Table 12.2). -/
def ownClock (s : State) (p : Nat) : Bool := let b := s.img.ptp p; b % 8 == 1 || b % 8 == 2 || bit b 5

def asym (s : State) (p : Nat) : Int := lat s (Reg.PTP_ASYM p) * 4096

/-- What a port does to a PTP message that it sends (R308, R309), and whether it completed it one-step. -/
def ptpEgress (s : State) (p : Nat) (l : List Byte) : List Byte × Bool :=
  match ptpAt s p l with
  | none => (l, false)
  | some o =>
    let t := ptpType l o
    let l := if ownClock s p && (t == 1 || t == 2) then addCf l o (-(asym s p)) else l
    let one := bit (s.img.ptp p) 3 && o == 14 && !(bit (beNat (slice l (o + 6) 1)) 1) && (t == 0 || t == 3)
    if !one then (l, false)
    else
      let x := txStamp16 s p
      if t = 0 then
        let ns := x / 65536
        (addCf (patch l (o + 34) (beBytes 6 (unsgn 48 (ns / 1000000000)) ++ beBytes 4 (ns % 1000000000).toNat)) o (x % 65536), true)
      else (addCf l o x, true)

/-! ### Transmit queues of the ports (R14, R16, R17, R296, R307) -/

/-- A port that can carry frames: its image gives it a role, outside BOOT, and its link is up. -/
def portUsable (s : State) (p : Nat) : Bool := s.mode != .boot && loaded s && s.img.role p != 0 && portLink s p

/-- The slot that a class C descriptor names begins at this instant of the FAST period in which it was posted; none where it names no
admitted slot of the port that the module sends in (R17). -/
def slotBegin (s : State) (p slot : Nat) (posted : Int) : Option Int :=
  match s.img.fslots.find? fun q => q.1 == slot && q.2.ring == p / 2 && s.img.role p == 1 &&
      (q.2.kind == 0 || q.2.kind == (if secondary s then 3 else 2)) with
  | some q =>
    let P : Int := fastP s
    some (posted / P * P + (slotPhase s s.img p q.2 : Int) % P)
  | none => none

/-- Class B bytes of a queue in the present FAST period. -/
def bUsedNow (s : State) (q : Fin 128) : Nat := if s.que[q].bPeriod = fastPeriod s then s.que[q].bUsed else 0

/-- A PARAM or DIAG frame of the FGR EtherType. -/
def isParamDiag (s : State) (l : List Byte) : Bool :=
  etherType l == getF s Reg.FGR_ETYPE Reg.FGR_ETYPE_etype && (beNat (slice l 15 1) == 6 || beNat (slice l 15 1) == 7)

/-- The other port of a ring. -/
def otherPort (p : Nat) : Nat := if p % 2 = 0 then p + 1 else p - 1

/-- A frame posted on a ring port that leaves on both ports of the ring: PARAM and DIAG (R296), and with ring_port a message of the module's
clock, but not one of the peer delay mechanism, which runs on each link by itself (R310, R313, notes/assumptions/76.md). -/
def onBothPorts (s : State) (p : Nat) (l : List Byte) : Bool :=
  s.img.role p == 1 && (isParamDiag s l || (bit (s.img.ptp p) 5 && (match ptpAt s p l with
    | some o => let t := ptpType l o; !(s.img.ptp p % 8 == 4 && (t == 2 || t == 3 || t == 10))
    | none => false)))

/-- The ports on which a posted frame leaves: those of `p`'s ring that can carry frames for a frame of both ports, else `p`. -/
def portsOf (s : State) (p : Nat) (l : List Byte) : List Nat :=
  (if onBothPorts s p l then [p, otherPort p] else [p]).filter (portUsable s)

/-- A frame leaves on one port; its transmit timestamp enters the port's queue (R307 to R309). `head` is the count at which its descriptor was
taken. -/
def portTx (d : Desc) (raw : List Byte) (bad : Bool) (head : Nat) (s : State) (p : Nat) : State :=
  if h : p < 12 then
    let e := ptpEgress s p raw
    let s := sendPort p e.1 (!bad) s
    let push := fun (t : BitVec 4) (g : Nat) =>
      txtsPush ⟨p, h⟩ { aborted := bad, msgType := t, tag := BitVec.ofNat 16 g, ts := BitVec.ofInt 48 (txStamp s p) } s
    match ptpAt s p raw with
    | some o => if d.ts || (ptpEvent (ptpType raw o) && !e.2) then push (BitVec.ofNat 4 (ptpType raw o)) (ptpSeq raw o) else s
    | none => if d.ts then push 0xF head else s
  else s

/-- A frame of the descriptor at `a` starts on port `p`. -/
def portStart (p : Fin 12) (d : Desc) (s : State) : State :=
  let q : Fin 128 := ⟨p.val, by omega⟩
  let r := engineRead (0x10 + p.val) 12 d.buf d.len s
  let head := qHead r.1 q
  match qTake q r.1 with
  | none => s
  | some (s, a) =>
    let s := qMark q a (fun e => { e with poisoned := r.2 }) s
    let raw := ldBytes s.store d.buf d.len
    let s := (portsOf s p raw).foldl (portTx d raw r.2 head) s
    let s := if s.img.role p == 1 && isParamDiag s raw && beNat (slice raw 15 1) == 6 &&
        (beNat (slice raw 34 1) == 1 || beNat (slice raw 34 1) == 2) then
        setFgr s { s.fgr with tags := (p.val / 2, beNat (slice raw 30 2), beNat (slice raw 32 2)) :: s.fgr.tags }
      else s
    if d.cls = 2 then setQ s q { s.que[q] with bUsed := bUsedNow s q + d.len, bPeriod := fastPeriod s } else s

/-- A class B frame over the port's budget of the present FAST period (R14). -/
def portOver (s : State) (p : Nat) (q : Fin 128) (d : Desc) : Bool := d.cls == 2 && decide (s.img.bBudget p < bUsedNow s q + d.len)

/-- The outcome of a frame that its port cannot carry: the queue is out of service, the class is reserved, or no port that it leaves on has a
link (R17, Table 1.6); and before its slot or its length is looked at (notes/assumptions/77.md). -/
def portRefused (s : State) (p : Nat) (q : Fin 128) (d : Desc) : Bool :=
  !flag s (Reg.QUE_CFG q) Reg.QUE_CFG_enable || d.cls == 3 || (portsOf s p (ldBytes s.store d.buf d.len)).isEmpty

/-- The class B frame at the front of a queue waits over budget since this FAST period (R17). -/
def markWaiting (q : Fin 128) (s : State) : State :=
  let x := s.que[q]
  let n := (x.fly.takeWhile fun e => !(e.takenAt.isNone && e.outcome.isNone)).length
  setQ s q { x with fly := x.fly.modify n fun e => { e with waitFrom := some (e.waitFrom.getD (fastPeriod s)) } }

/-- QUEUE_FRAME_SEND on the transmit queue of a Feger port. A frame that must wait leaves the descriptor where it is. -/
def portQueueSend (p : Fin 12) (s : State) : State :=
  let q : Fin 128 := ⟨p.val, by omega⟩
  match qPeek q s with
  | none => sendWaiting p s
  | some (a, e) =>
    let r := fetchDesc q a s
    let s := r.1
    let d := readDesc s a
    if r.2 then endNext q 0 true s
    else if portRefused s p q d then endNext q 3 false s
    else if d.len = 0 then endNext q 0 false s
    else if d.cls = 0 then
      let posted := s.time.localAt e.postC
      match slotBegin s p d.slot posted with
      | none => endNext q 3 false s
      | some b => if b < posted then endNext q 3 false s else if now s < b then sendWaiting p s else portStart p d s
    else if (waitingE s p).isSome then sendWaiting p s
    else if portOver s p q d then markWaiting q s
    else if (portsOf s p (ldBytes s.store d.buf d.len)).all fun x => fitsNow s x d.len then portStart p d s
    else s

/-- The sink of a queue without a schedule of its own carries frames: a Tether lane that is up, the link of X40; a software queue's always
does (R17, Table 1.7). -/
def plainUp (s : State) (q : Fin 128) : Bool :=
  if q.val = 56 then s.red.lanes[0].up else if q.val = 57 then s.red.lanes[1].up else if q.val = 62 then s.svc.link else true

/-- The engine of a queue without a schedule of its own: the Tether lanes, X40, and the software queues (Table 1.7). No class C slot is admitted
there, so a class C descriptor names none (R17); the spec sets no class B budget for them (notes/assumptions/78.md). -/
def plainQueueSend (q : Fin 128) (s : State) : State :=
  match qTake q s with
  | none => s
  | some (s, a) =>
    let r := fetchDesc q a s
    let s := r.1
    let d := readDesc s a
    if r.2 then qComplete q a 0 0 true s
    else if !flag s (Reg.QUE_CFG q) Reg.QUE_CFG_enable || d.cls == 3 || !plainUp s q then qComplete q a 3 0 false s
    else if d.len = 0 then qComplete q a 0 0 false s
    else if d.cls = 0 then qComplete q a 3 0 false s
    else
      let r := engineRead (qEng q).1 (qEng q).2 d.buf d.len s
      let s := qMark q a (fun e => { e with poisoned := r.2 }) r.1
      let l := ldBytes s.store d.buf d.len
      if q.val = 56 ∨ q.val = 57 then emit (.tether (q.val - 56) l) s
      else if q.val = 62 then emit (.x40 l) s
      else s

/-- QUEUE_FRAME_SEND (R16): the engine of a transmit queue (Table 1.7) takes its next descriptor. The engine of a receive queue takes one only
where the queue is out of service (R22); those of the checkpoint streamer and the recorder hold no descriptors of software. -/
def queueFrameSend (q : Fin 128) (s : State) : State :=
  if h : q.val < 12 then portQueueSend ⟨q.val, h⟩ s
  else if h : 24 ≤ q.val ∧ q.val < 40 then canFill ⟨q.val - 24, by omega⟩ 32 s
  else if q.val = 56 ∨ q.val = 57 ∨ q.val = 62 ∨ 64 ≤ q.val then plainQueueSend q s
  else if flag s (Reg.QUE_CFG q) Reg.QUE_CFG_enable then s
  else refuseNext q s

/-- B_WAIT_EXPIRY: a class B frame still over budget after b_wait cycles completes REFUSED_BUDGET (R17). -/
def bWaitExpiry (q : Fin 128) (s : State) : State :=
  if h : 24 ≤ q.val ∧ q.val < 40 then
    let u : Fin 16 := ⟨q.val - 24, by omega⟩
    (List.finRange 32).foldl (fun (s : State) b =>
      let x := s.can[u].txb[b]
      match x.desc, x.frame with
      | some a, some f =>
        if !x.onBus && canOver s u a f && s.que[q].fly.any (fun e => e.takenAt == some a && e.outcome.isNone && bWaited s q e (fastPeriod s)) then
          txNext u b (queueDone u b false (setB s (txStat u b) Reg.CAN_TXB_STAT_pend false))
        else s
      | _, _ => s) s
  else if h : q.val < 12 then
    match qPeek q s with
    | some (a, e) => if bWaited s q e (fastPeriod s) && portOver s q.val q (readDesc s a) then endNext q 3 false s else s
    | none => s
  else s

/-- RX_FRAME_RECEIVE: a received frame fills the next posted buffer of its queue (R21); on a Feger port the receive timestamp follows
it (R306). -/
def rxFrameReceive (q : Fin 128) (classB : Bool) (frame : List Byte) (s : State) : State :=
  let rx := (12 ≤ q.val ∧ q.val < 24) ∨ (40 ≤ q.val ∧ q.val < 56) ∨ q.val = 58 ∨ q.val = 59 ∨ q.val = 63 ∨ 64 ≤ q.val
  if rx then
    let ts := if 12 ≤ q.val ∧ q.val < 24 then leBytes 8 (unsgn 64 (firstByte s (q.val - 12) frame.length)) else []
    (rxDeliver q classB frame ts s).1
  else s

/-- A frame of a Feger port goes to the port's RX queue with its receive timestamp (R306). -/
def portDeliver (p : Fin 12) (frame : List Byte) (s : State) : State :=
  (rxDeliver ⟨12 + p.val, by omega⟩ false frame (leBytes 8 (unsgn 64 (firstByte s p frame.length))) s).1

/-! ### Sending: downlink frames and ring Crickets (R280, R283, R288, R290) -/

/-- The uplink slot start of a station (R288). -/
def Image.upStart (g : Image) (i : Nat) : Nat :=
  match g.fslots.find? fun q => q.2.kind == 1 && q.2.ref == i with
  | some q => q.2.start
  | none => 0

def segOf (s : State) (i : Nat) : DlSeg := (Tab.get? s.fgr.segs i).getD {}

/-- The image and the segments of the present set: after a delta switch those of the image that committed it, until the next set (R218). -/
def setImg (s : State) : Image := match s.fgr.oldSet with
  | some o => o.1
  | none => s.img
def setSegs (s : State) : Tab DlSeg := match s.fgr.oldSet with
  | some o => o.2
  | none => s.fgr.segs

/-- A segment of a downlink frame on the wire. -/
def dlSegBytes (s : State) (p : Nat × FSeg) : List Byte :=
  let g := setImg s
  let x := (Tab.get? (setSegs s) p.1).getD {}
  beBytes 2 (g.sta p.2.sta).addr ++ [BitVec.ofNat 8 p.2.index, BitVec.ofNat 8 (g.segCls p.1 + 4 * b2n x.fresh)] ++
  beBytes 2 p.2.words ++ [0, 0] ++ beBytes 4 (g.upStart p.2.sta) ++ (x.data ++ List.replicate (4 * p.2.words - x.data.length) 0)

/-- The body of frame `f` of a ring's set (Table 11.3). -/
def dlBody (s : State) (l : List (Nat × FSeg)) (f frames : Nat) : List Byte :=
  let x := s.fgr
  beBytes 8 (unsgn 64 x.release) ++ beBytes 8 (unsgn 64 x.relMid) ++ beBytes 8 (unsgn 64 x.relSlow) ++ beBytes 4 ((setImg s).period 0) ++
  [BitVec.ofNat 8 f, BitVec.ofNat 8 frames, 0, 0] ++ l.flatMap (dlSegBytes s)

/-- The instant D + start at which frame `f` of a ring's set starts (R288): D lies 2 µs before the T0 that ends the set's cycle. -/
def dlStartIn (s : State) (k f : Nat) : Option Int :=
  let g := setImg s
  (g.fslots.find? fun q => q.2.kind == 0 && q.2.ring == k && q.2.ref == f).map fun q =>
    s.fgr.release - g.relofs 0 - 2000 + q.2.start

/-- The module sends downlink sets: executing, or owner in SAFE (Table 3.3, R77), and the last set of a STOP up to its OR (R80). -/
def sendsDownlink (s : State) : Bool := s.owner && (executing s || s.mode == .safe || s.untilOr) && s.fgr.haveSet

/-- DOWNLINK_SEND: frame f of a ring's set leaves on both ports at its start, once (R288, R290). -/
def downlinkSend (k : Fin 6) (f : Nat) (s : State) : State :=
  let l := (setImg s).dlFrames k
  match l[f]?, dlStartIn s k f with
  | some segs, some x =>
    if sendsDownlink s && decide (x ≤ now s) && !s.fgr.sent.contains (k.val, f) then
      let fresh := segs.any fun p => ((Tab.get? (setSegs s) p.1).getD {}).fresh
      let s := setFgr s { s.fgr with sent := (k.val, f) :: s.fgr.sent }
      sendRing k 1 (ownId s) s.red.epoch s.fgr.cycle (b2n s.fgr.safeSet + 2 * b2n (!fresh)) (dlBody s segs f l.length) s
    else s
  | _, _ => s

/-- The module is ready as standby, or leaving and lagging, as its Crickets say: the flags of R249 and R285. -/
def crkFlags (s : State) : Nat := b2n s.red.ready + 2 * b2n (executing s)

/-- The module's CRICKET slot of a ring has begun in the present FAST interval (R288). -/
def crkDue (s : State) (k : Nat) : Bool :=
  s.img.fslots.any fun q => q.2.kind == (if secondary s then 3 else 2) && q.2.ring == k && decide ((q.2.start : Int) ≤ now s % (fastP s : Int))

/-- RING_CRICKET_SEND (R252, R280, R285): in every state but BOOT and HOLD, once per FAST cycle in the module's slot. -/
def ringCricketSend (k : Fin 6) (s : State) : State :=
  if s.mode == .boot || s.mode == .hold || !s.img.ringUsed k || !loaded s || !crkDue s k || s.fgr.crkOut.getLsbD k then s
  else
    let body := [BitVec.ofNat 8 s.mode.code, BitVec.ofNat 8 (crkFlags s), 0, 0] ++ beBytes 8 (unsgn 64 (now s))
    let s := sendRing k 5 (ownId s) s.bal.epoch ((now s / (fastP s : Int)).toNat % 2 ^ 32) 0 body s
    setFgr s { s.fgr with crkOut := s.fgr.crkOut ||| BitVec.ofNat 6 (2 ^ k.val) }

/-! ### Forwarding (R279, R310) -/

/-- A frame is forwarded to the other port of its ring, unless its source address is one of the module's own ring ports. -/
def forward (p : Nat) (l : List Byte) (good : Bool) (s : State) : State :=
  match modSrc (beNat (slice l 6 6)) with
  | some (i, pp) =>
    if i = ownId s ∧ s.img.role pp = 1 then s
    else if portLink s (otherPort p) then wrapAdd (sendPort (otherPort p) l good s) (Reg.FGR_P_FWD p) Reg.FGR_P_FWD_value 1 else s
  | none => if portLink s (otherPort p) then wrapAdd (sendPort (otherPort p) l good s) (Reg.FGR_P_FWD p) Reg.FGR_P_FWD_value 1 else s

/-- The ring of a port is a transparent clock: codes 3 and 4 (R310). -/
def tcCode (s : State) (p : Nat) : Nat := if s.img.role p == 1 then s.img.ptp p % 8 else 0

/-- RING_FRAME_FORWARD: a frame of the Feger EtherType, and a PTP frame on a ring without a transparent clock, goes on; other frames are
counted (R279, Table 11.10). PTP frames on a transparent clock go on by PTP_FRAME_RECEIVE. -/
def ringFrameForward (p : Fin 12) (fcsOk : Bool) (l : List Byte) (s : State) : State :=
  if !ringPort s p || !portLink s p then s
  else
    let e := etherType l
    if e == 0x88F7 then (if tcCode s p == 3 || tcCode s p == 4 then s else forward p l fcsOk s)
    else if e == getF s Reg.FGR_ETYPE Reg.FGR_ETYPE_etype then forward p l fcsOk s
    else if e == 0x8100 then satAdd s (Reg.FGR_P_ERR p) Reg.FGR_P_ERR_bad_format 1
    else satAdd s (Reg.FGR_P_VIOL p) Reg.FGR_P_VIOL_foreign 1

/-- A forwarded PTP message with its correctionField: egress less ingress timestamp, each in whole ns (R305), and under TC_P2P the ingress link
delay on Sync (R310). -/
def tcCorrect (s : State) (p : Nat) (residence : Nat) (l : List Byte) : List Byte :=
  match ptpAt s p l with
  | none => l
  | some o =>
    let t := ptpType l o
    if !ptpEvent t then l
    else
      let r : Int := (residence + lat s (Reg.PTP_LAT_OUT (otherPort p)) / 16 - -lat s (Reg.PTP_LAT_IN p) / 16) * 65536
      let d : Int := if tcCode s p = 4 ∧ t = 0 then (getR s (Reg.PTP_LINK_DELAY p)).toNat * 4096 else 0
      addCf l o (r + d)

/-- PTP_FRAME_RECEIVE (R305, R309, R310): on a transparent clock the frame is forwarded with its correction; a frame for the module's own
clock, or a Pdelay message that firmware answers, goes to the RX queue. -/
def ptpFrameReceive (p : Fin 12) (fcsOk : Bool) (l : List Byte) (residence : Nat) (s : State) : State :=
  if s.mode == .boot || !loaded s || s.img.role p == 0 || !portLink s p then s
  else match ptpAt s p l with
    | none => s
    | some o =>
      let t := ptpType l o
      let ring := s.img.role p == 1
      let code := tcCode s p
      let pdelay := code == 4 && (t == 2 || t == 3 || t == 10)
      let s := if ring && (code == 3 || code == 4) && !pdelay then
          forward p (if fcsOk then tcCorrect s p residence l else l) fcsOk s
        else s
      if !fcsOk then (if ring then satAdd s (Reg.FGR_P_ERR p) Reg.FGR_P_ERR_bad_fcs 1 else s)
      else
        let key := beNat (slice l (o + 20) 12)
        let slot := p.val / 2 * 16 + t
        let mine := if ring then bit (s.img.ptp p) 5 || pdelay else s.img.ptp p % 8 != 0
        let again := ring && !pdelay && Tab.get? s.fgr.ptpLast slot == some key
        if mine && !again then
          let l := if ownClock s p && (t == 0 || t == 3) then addCf l o (asym s p) else l
          portDeliver p l (if ring && !pdelay then setFgr s { s.fgr with ptpLast := Tab.put s.fgr.ptpLast slot key } else s)
        else s

/-! ### Receiving (R291 to R296, R299) -/

/-- A frame with a bad FCS in an uplink slot; on both ports in one interval it is a conflict case (R293). -/
def badInSlot (p : Nat) (x : Int) (s : State) : State :=
  match slotsAt s p x with
  | [] => s
  | q :: _ => match s.img.staAt (p / 2) q.2.1 with
   | none => s
   | some (i, _) =>
    let y := staOf s i
    let y := if p % 2 = 0 then { y with badA := true } else { y with badB := true }
    let s := setSta s i y
    if y.badA && y.badB then conflictSta i s else s

/-- The common part of every reception on a ring port (Table 11.10): refusals are counted, and a good frame comes out. -/
def rxFgr (p : Fin 12) (fcsOk : Bool) (l : List Byte) (s : State) : State × Option Frm :=
  if !ringPort s p || !portLink s p then (s, none)
  else match parseFgr s fcsOk l with
    | .foreign => (s, none)
    | .badFcs =>
      let s := satAdd s (Reg.FGR_P_ERR p) Reg.FGR_P_ERR_bad_fcs 1
      (if fcsOk then s else badInSlot p (firstByte s p l.length) s, none)
    | .badFormat => (satAdd s (Reg.FGR_P_ERR p) Reg.FGR_P_ERR_bad_format 1, none)
    | .good f => (wrapAdd s (Reg.FGR_P_RX p) Reg.FGR_P_RX_value 1, some f)

/-- A module frame type on a ring port: one from a station address is a rogue; the module's own frame and one with an older pair say nothing;
another's pair is noted (R299). A Cricket's pair is judged by its epoch (notes/assumptions/22.md). -/
def rxModule (p : Fin 12) (f : Frm) (s : State) : State × Bool :=
  match modSrc f.src with
  | none => (ringAlarm (p.val / 2) Reg.FGR_RING_ALARM_rogue (satAdd s (Reg.FGR_P_VIOL p) Reg.FGR_P_VIOL_rogue 1), false)
  | some (i, _) =>
    if i = ownId s then (s, false)
    else
      let older := if f.typ = 5 then decide (f.epoch < (knownPair s).1) else pairNewer (knownPair s) (f.epoch, f.owner)
      if older then (satAdd s (Reg.FGR_P_VIOL p) Reg.FGR_P_VIOL_older 1, false)
      else (if f.typ = 5 then noteEpoch f.epoch s else notePair f.epoch f.owner s, true)

/-- The partner was seen executing (R271). -/
def sawExec (s : State) : State := setRed s { s.red with sawExec := true }

/-- DOWNLINK_RECEIVE: the partner's DOWNLINK is a sign of life, and its pair a seen one (R254, R261). -/
def downlinkReceive (p : Fin 12) (fcsOk : Bool) (l : List Byte) (s : State) : State :=
  match rxFgr p fcsOk l s with
  | (s, some f) =>
    if f.typ != 1 then s
    else match rxModule p f s with
      | (s, true) => sawExec (signOfLife true s.red.partner.ready s)
      | (s, false) => s
  | (s, none) => s

/-- RING_CRICKET_RECEIVE: the module's own Cricket back on the ring's other port shows the loop closed; the partner's is a sign of
life (R254, R280). -/
def ringCricketReceive (p : Fin 12) (fcsOk : Bool) (l : List Byte) (s : State) : State :=
  match rxFgr p fcsOk l s with
  | (s, some f) =>
    if f.typ != 5 then s
    else match modSrc f.src with
      | some (i, pp) =>
        if i = ownId s then
          if pp = otherPort p then
            setFgr s { s.fgr with crkBack := s.fgr.crkBack ||| BitVec.ofNat 12 (2 ^ p.val)
                                  closed := s.fgr.closed ||| BitVec.ofNat 6 (2 ^ (p.val / 2)) }
          else s
        else match rxModule p f s with
          | (s, true) =>
            let fl := beNat (slice f.body 1 1)
            let s := signOfLife true (bit fl 0) s
            if bit fl 1 then sawExec s else s
          | (s, false) => s
      | none => (rxModule p f s).1
  | (s, none) => s

/-- A frame outside its window (Table 11.10). -/
def slotViolation (p : Fin 12) (s : State) : State :=
  ringAlarm (p.val / 2) Reg.FGR_RING_ALARM_slot_violation (satAdd s (Reg.FGR_P_VIOL p) Reg.FGR_P_VIOL_slot 1)

/-- The uplink's segments match the station's records in count, index and words (R291). -/
def segsMatch (g : Image) (i : Nat) (l : List UpSeg) : Bool :=
  (g.upSegsOf i).map (fun p => (p.2.index, p.2.words)) == l.map fun x => (x.index, x.words.length)

/-- A good uplink copy of station record i (R291, R292): the first is taken, and its pair is reported. The first in LOST makes the station
RETURNING; the first of a later interval binds its source address. -/
def takeCopy (p : Fin 12) (i : Nat) (f : Frm) (segs : List UpSeg) (arrival : Int) (s : State) : State :=
  let x := staOf s i
  let st := (f.body.getD 2 0)
  let x := if p.val % 2 = 0 then { x with seenA := true } else { x with seenB := true }
  let x := if x.st == .returning && !x.entered && x.src.isNone then { x with src := some f.src } else x
  let x := { x with stale := s.owner && pairNewer (ownPair s) (f.epoch, f.owner) }
  let first := x.got.isNone
  let x := if first then { x with stStatus := st, got := some { ts := rxStamp s p, status := st, segs := segs } } else x
  let back := x.st == .lost
  let x := if back then { x with st := .returning, goods := 0, idOk := false, entered := true } else x
  let s := notePair f.epoch f.owner (setSta s i x)
  let s := if first then recSample s (0x10 + p.val) arrival else s
  if back then sendIdentify i s else s

/-- A good uplink copy in the interval of its receive timestamp. One that was in a crossing at the last T0 belongs to the interval before
it, and that station's interval end is done again (R63, R155). -/
def goodCopy (p : Fin 12) (i : Nat) (f : Frm) (segs : List UpSeg) (arrival : Int) (s : State) : State :=
  let take := takeCopy p i f segs arrival
  match s.fgr.before with
  | some (t0, tab, alarms) =>
    if crossingT0 s == some t0 && decide (rxStamp s p < t0) && (staOf s i).got.isNone then staAgain i t0 tab alarms take s else take s
  | none => take s

/-- UPLINK_RECEIVE (R284, R291 to R294). -/
def uplinkReceive (p : Fin 12) (fcsOk : Bool) (l : List Byte) (s : State) : State :=
  match rxFgr p fcsOk l s with
  | (s, some f) =>
    if f.typ != 2 then s
    else
      let k := p.val / 2
      let x := firstByte s p l.length
      let slots := slotsAt s p x
      let addr := beNat (slice f.body 0 2)
      let heard := fun (i : Nat) (s : State) => setSta s i { staOf s i with heard := true }
      let clash := fun (a : Nat) (s : State) => match s.img.staAt k a with
        | some w => conflictSta w.1 (heard w.1 s)
        | none => s
      match slots.find? fun q => q.2.1 == addr with
      | some q => match s.img.staAt k addr with
        | none => s
        | some (i, _) =>
          let s := heard i s
          let y := staOf s i
          let segs := (parseUp f.body.length (f.body.drop 4)).getD []
          if y.src.isSome && y.src != some f.src then conflictSta i s
          else if !segsMatch (slotImg s x) q.2.2 segs then satAdd s (Reg.FGR_P_ERR p) Reg.FGR_P_ERR_bad_format 1
          else if y.conflict then s
          else goodCopy p i f segs ((x - (q.1 : Int) + 1000) % (fastP s : Int) - 1000) s
      | none =>
        match slots with
        | q :: _ => clash addr (clash q.2.1 s)
        | [] => slotViolation p s
  | (s, none) => s

/-- The window of a station's PARAM or DIAG frame: its slot, with ev_bytes, after its uplink (Table 11.9), in the image whose slots are in
force. -/
def inEvents (s : State) (p : Nat) (addr len : Nat) (x : Int) : Bool :=
  let g := slotImg s x
  match g.staAt (p / 2) addr with
  | some (i, r) => inWindow (fastP s) (hopsFrom s g p r.pos) (g.upStart i) (8 * (fgrWire (g.upBody i) + r.ev) - wireNs len) x
  | none => false

/-- An IDENTITY answer against the station record (R292). -/
def identity (i : Nat) (b : List Byte) (s : State) : State :=
  let r := s.img.sta i
  let ok := fun (want got : Nat) => want == 0 || want == got
  let same := ok r.vendor (beNat (slice b 4 4)) && ok r.product (beNat (slice b 8 4)) && ok r.hold (beNat (slice b 20 4))
  if same then setSta s i { staOf s i with idOk := true, idMismatch := false }
  else
    let s := ringAlarm r.ring Reg.FGR_RING_ALARM_id_mismatch (setSta s i { staOf s i with idMismatch := true })
    if (staOf s i).st == .lost then s else loseSta i s

/-- PARAM_DIAG_RECEIVE (R285, R292, R296, R299). -/
def paramDiagReceive (p : Fin 12) (fcsOk : Bool) (l : List Byte) (s : State) : State :=
  match rxFgr p fcsOk l s with
  | (s, some f) =>
    if f.typ != 6 && f.typ != 7 then s
    else if (modSrc f.src).isSome then (rxModule p f s).1
    else
      let k := p.val / 2
      let addr := beNat (slice f.body 0 2)
      match s.img.staAt k addr with
      | none => satAdd s (Reg.FGR_P_VIOL p) Reg.FGR_P_VIOL_slot 1
      | some w =>
        if !inEvents s p addr l.length (firstByte s p l.length) then satAdd s (Reg.FGR_P_VIOL p) Reg.FGR_P_VIOL_slot 1
        else
          let tag := if f.typ = 6 then beNat (slice f.body 2 2) else 0x10000 + beNat (slice f.body 2 1)
          let fresh := s.fgr.recent.filter fun e => decide (s.time.c < e.2.2.2 + msT 1)
          if fresh.any fun e => e.1 == k && e.2.1 == addr && e.2.2.1 == tag then s
          else
            let answer := f.typ = 6 && beNat (slice f.body 4 1) == 3
            if answer && !s.fgr.tags.contains (k, addr, tag) then satAdd s (Reg.FGR_P_ERR p) Reg.FGR_P_ERR_bad_format 1
            else
              let s := notePair f.epoch f.owner s
              let s := setFgr s { s.fgr with recent := (k, addr, tag, s.time.c) :: fresh
                                             tags := if answer then s.fgr.tags.filter fun t => t != (k, addr, tag) else s.fgr.tags }
              let s := if f.typ = 7 && beNat (slice f.body 2 1) == 2 then identity w.1 f.body s else s
              portDeliver p l s
  | (s, none) => s

/-- IDENTIFY_REPEAT: once per second to a station that is RETURNING, or LOST with uplinks (R292). -/
def identifyRepeat (s : State) : State :=
  s.img.stas.foldl (fun (s : State) q =>
    let x := staOf s q.1
    let due := match x.identAt with
      | some c => decide (c + secT 1 ≤ s.time.c)
      | none => true
    let asks := x.st == .returning || (x.st == .lost && (x.heard || x.heardLast))
    if due && asks then sendIdentify q.1 s else s) s

/-- The next descriptor of a port's queue completes REFUSED_BUDGET where the port cannot carry it. -/
def portRefuseNext (p : Fin 12) (s : State) : State :=
  let q : Fin 128 := ⟨p.val, by omega⟩
  match qPeek q s with
  | some (a, _) => if portRefused s p q (readDesc s a) then refuseNext q s else s
  | none => s

/-- FEGER_PORT_LINK_CHANGE: a port whose link is down has a budget of zero, so what it has not yet sent is refused when it is
taken (R17), and what waited of the module's own frames is not sent. -/
def fegerLink (p : Fin 12) (up : Bool) (s : State) : State :=
  let s := setFgr s { s.fgr with link := s.fgr.link.set p up }
  if up then s
  else
    let s := setFgr s { s.fgr with urgent := s.fgr.urgent.filter fun q => q.1 != p.val }
    (s.que[(⟨p.val, by omega⟩ : Fin 128)].fly).foldl (fun (s : State) _ => portRefuseNext p s) s

end Sys2Proof.Machine
end

