-- ==== Sys2Proof/Machine/Tether.lean ====
section
/-!
DEFINITION. The Tether (chapter "The Redundant Pair"): frames, lanes, Crickets, the pair and readiness (R244 to R254).
-/
namespace Sys2Proof.Machine

/-! ### Frames (R248 to R250) -/

/-- The Tether lane's reception is good: a good frame within 50 µs (R251). -/
def laneHears (s : State) (l : Fin 2) : Bool :=
  match s.red.lanes[l].lastGood with
  | some c => decide (s.time.c ≤ c + usT 50)
  | none => false

def setTLane (s : State) (l : Fin 2) (x : TLane) : State := setRed s { s.red with lanes := s.red.lanes.set l x }

/-- A frame of the module on a lane (R248, Table 10.2). -/
def tetherFrame (s : State) (l : Fin 2) (typ epoch cycle : Nat) (body : List Byte) : List Byte :=
  let i := ownId s
  let h := [1, BitVec.ofNat 8 typ, BitVec.ofNat 8 (l.val + 2 * b2n (laneHears s l)), BitVec.ofNat 8 i] ++
    beBytes 4 (getR s Reg.RED_PAIR_ID).toNat ++ beBytes 4 epoch ++ beBytes 4 s.red.lanes[l].seq ++ beBytes 4 cycle ++ body
  [0x02, 0, 0, 0, 0, BitVec.ofNat 8 (3 - i)] ++ [0x02, 0, 0, 0, 0, BitVec.ofNat 8 i] ++ [0x88, 0xB6] ++ h ++ beBytes 4 (crc32c h).toNat

/-- A frame leaves on a lane, and its count rises. -/
def tetherSendE (l : Fin 2) (typ epoch cycle : Nat) (body : List Byte) (s : State) : State :=
  let x := s.red.lanes[l]
  emit (.tether l (tetherFrame s l typ epoch cycle body)) (setTLane s l { x with seq := (x.seq + 1) % 2 ^ 32 })

/-- The frame carries the highest epoch the sender holds. -/
def tetherSend (l : Fin 2) (typ cycle : Nat) (body : List Byte) (s : State) : State := tetherSendE l typ s.bal.epoch cycle body s

/-- A frame on both lanes. -/
def tetherBoth (typ cycle : Nat) (body : List Byte) (s : State) : State := tetherSend 1 typ cycle body (tetherSend 0 typ cycle body s)

/-- The present FAST cycle number (R60). -/
def fastNo (s : State) : Nat := (now s / (fastP s : Int)).toNat % 2 ^ 32

/-- A Tether frame as it arrived. -/
structure TFrm where
  typ : Nat
  rxOk : Bool
  sender : Nat
  pairId : Nat
  epoch : Nat
  cycle : Nat
  body : List Byte
  deriving DecidableEq, Repr

/-- The length of the body fits the type (Table 10.3). -/
def tBodyFits (typ : Nat) (b : List Byte) : Bool :=
  let n := b.length
  match typ with
  | 1 => n == 16
  | 2 => decide (8 ≤ n) && (n == 8 + beNat (slice b 6 2)) && decide (4 ≤ beNat (slice b 6 2)) && decide (beNat (slice b 6 2) ≤ 4096)
  | 3 => n == 33
  | 4 => n == 4
  | 5 => n == 9
  | 6 => n == 1
  | 7 => n == 4
  | 8 => n == 1
  | 9 => n == 5
  | 10 => decide (9 ≤ n) && decide (n ≤ 9 + 4096)
  | _ => false

/-- A received frame, or none where R250 discards it. -/
def parseTether (fcsOk : Bool) (l : List Byte) : Option TFrm :=
  let n := l.length
  let h := slice l 14 (n - 18)
  let b := l.drop 34 |>.take (n - 38)
  if !fcsOk || n < 38 || crc32c h != BitVec.ofNat 32 (beNat (l.drop (n - 4))) || beNat (slice l 14 1) != 1 || !tBodyFits (beNat (slice l 15 1)) b then none
  else some { typ := beNat (slice l 15 1), rxOk := bit (beNat (slice l 16 1)) 1, sender := beNat (slice l 17 1), pairId := beNat (slice l 18 4)
              epoch := beNat (slice l 22 4), cycle := beNat (slice l 30 4), body := b }

def redAlarm (f : Fld) (s : State) : State := setB s Reg.RED_ALARM f true

/-- A module that does not execute goes DETACHED from STANDBY, and a resynchronisation begins anew (R244, R259, R277). -/
def detach (s : State) : State :=
  if s.mode == .standby then
    redAlarm Reg.RED_ALARM_detached (enter .detached .tether (setRed s { s.red with
      lagging := true, ready := false, lag := 0, resyncLeft := 0, inDelta := none, inOld := [] }))
  else s

/-- There is no pair: nothing that the partner has shown stands (R244). -/
def unpair (s : State) : State :=
  setRed s { s.red with paired := false, resyncLeft := 0, partner := { s.red.partner with at' := none, ready := false } }

/-- The run of good Crickets that a good frame of a type leaves: a Cricket goes on with one that has had no gap of 50 µs, or begins one (R251). -/
def crkRun (x : TLane) (typ n : Nat) : Option Nat :=
  if typ ≠ 1 then x.runFrom
  else match x.lastCrk with
    | some c => if n ≤ c + usT 50 then some (x.runFrom.getD n) else some n
    | none => some n

/-- A good frame on a lane: 1 ms of good Crickets without a gap of 50 µs bring it up; what is received well was received with PCS lock (R251). -/
def laneGood (l : Fin 2) (typ : Nat) (s : State) : State :=
  let x := s.red.lanes[l]
  let n := s.time.c
  let run := crkRun x typ n
  let up := x.up || (typ == 1 && run.any fun r => decide (r + msT 1 ≤ n))
  let s := if up then setRed s { s.red with downAt := none } else s
  setTLane s l { x with lastGood := some n, lastCrk := if typ = 1 then some n else x.lastCrk, runFrom := run, up := up, pcs := true }

/-- The common part of every Tether reception (R244, R250, R251, R254, R261). -/
def rxTether (l : Fin 2) (fcsOk : Bool) (frame : List Byte) (s : State) : State × Option TFrm :=
  match parseTether fcsOk frame with
  | none => (satAdd s (Reg.RED_LANE l) Reg.RED_LANE_bad_cnt 1, none)
  | some f =>
    if f.pairId != (getR s Reg.RED_PAIR_ID).toNat then (detach (unpair (redAlarm Reg.RED_ALARM_pair_mismatch s)), none)
    else
      let s := laneGood l f.typ s
      if f.sender = ownId s then (detach (unpair (redAlarm Reg.RED_ALARM_desig_clash s)), none)
      else
        let s := if s.red.partner.fwOk then s else detach (redAlarm Reg.RED_ALARM_pair_mismatch s)
        let s := if f.typ = 7 then notePair f.epoch f.sender s else noteEpoch f.epoch s
        (signOfLife false s.red.partner.ready s, some f)

/-! ### The pair (R244) -/

/-- A lane carries data in both directions: up here, and the partner's last Cricket on it had rx_ok (R251). -/
def laneBoth (s : State) (l : Fin 2) : Bool := s.red.lanes[l].up && s.red.lanes[l].partnerRx

def anyUp (s : State) : Bool := s.red.lanes[0].up || s.red.lanes[1].up

/-- The Tether is down when both lanes are down (R251). -/
def tetherDown (s : State) : Bool := !anyUp s

/-- The pair stands (R244): a partner of the other designation has been heard since the last frame that forbids a pair; the firmware major version
travels in no frame, and is part of State (notes/assumptions/23.md). -/
def pairStands (s : State) : Bool := (laneBoth s 0 || laneBoth s 1) && s.red.partner.fwOk && s.red.partner.at'.isSome

/-- RESYNC_REQ: the standby is LAGGING until a full delta and the delta after it are complete (R260). What is in staging is of no use any more. -/
def resyncReq (reason : Nat) (s : State) : State :=
  let s := setRed s { s.red with lagging := true, resyncLeft := 2, inDelta := none, inOld := [] }
  (if s.red.lanes[0].up then tetherSend 0 6 (fastNo s) [BitVec.ofNat 8 reason]
   else tetherSend 1 6 (fastNo s) [BitVec.ofNat 8 reason]) s

/-! ### Crickets (R246, R252, R253) -/

/-- LAGGING: marked, or, on a standby, delta j − 1 is not here at or after OC(j), 8 µs before T0(j + 1) (R259). -/
def lagNow (s : State) : Bool :=
  s.red.lagging || (s.mode == .standby && match s.red.ckAt with
    | some k => decide (2 < unsgn 32 ((now s + 8000) / (fastP s : Int) - k))
    | none => true)

/-- TETHER_CRICKET_SEND: every 10 µs on each lane, in every state but BOOT. -/
def tetherCricketSend (s : State) : State :=
  if s.mode == .boot then s
  else
    let r := s.red
    let flags := b2n r.ready + 2 * b2n (lagNow s) + 4 * b2n r.leaving + 8 * b2n (executing s)
    let body := [BitVec.ofNat 8 s.mode.code, BitVec.ofNat 8 flags, BitVec.ofNat 8 s.xch.st.code, BitVec.ofNat 8 s.fgr.rings] ++
      beBytes 4 (getF s Reg.RED_CKPT Reg.RED_CKPT_value) ++ beBytes 8 (unsgn 64 (now s))
    tetherBoth 1 (fastNo s) body s

/-- The local times differ by at most 40 µs (R245): the Cricket's time against local time at its reception
(notes/assumptions/24.md). -/
def timeClose (s : State) (sent : Int) : Bool := decide ((now s - sent).natAbs ≤ 40000)

/-- What a Cricket says of the partner. -/
def crkPartner (s : State) (f : TFrm) : Partner :=
  let fl := beNat (slice f.body 1 1)
  { s.red.partner with
    at' := some s.time.c, state := beNat (slice f.body 0 1), ready := bit fl 0, lagging := bit fl 1, leaving := bit fl 2, exec := bit fl 3
    xch := beNat (slice f.body 2 1), rings := beNat (slice f.body 3 1) % 64, ckpt := beNat (slice f.body 4 4), sender := f.sender
    timeOk := timeClose s (sgn 64 (beNat (slice f.body 8 8))) }

/-- A lane's loss: its alarm, and that of the Tether when both are down (R251, R277). -/
def laneDown (l : Fin 2) (s : State) : State :=
  let x := s.red.lanes[l]
  if x.up then
    let s := redAlarm Reg.RED_ALARM_tether_lane (setTLane s l { x with up := false, runFrom := none })
    if tetherDown s then
      redAlarm Reg.RED_ALARM_tether_down (setRed s { s.red with
        paired := false, resyncLeft := if s.mode == .detached then 0 else s.red.resyncLeft
        partner := { s.red.partner with ready := false }, downAt := some (now s) })
    else s
  else setTLane s l { x with runFrom := none }

/-- TETHER_LANE_TIMEOUT: no good frame for 50 µs (R246, R251). -/
def tetherLaneTimeout (l : Fin 2) (s : State) : State := if laneHears s l then s else laneDown l s

/-- TETHER_PCS_LOCK_LOSS (R251). -/
def tetherPcsLoss (l : Fin 2) (s : State) : State := setTLane (laneDown l s) l { (laneDown l s).red.lanes[l] with pcs := false }

/-- SFP_PRESENCE_CHANGE: the transceiver's presence and its loss of signal (RED_LANE). A PCS finds its lock again with a signal. -/
def sfpChange (l : Fin 2) (present los : Bool) (s : State) : State :=
  let s := if present && !los then s else tetherPcsLoss l s
  let x := s.red.lanes[l]
  setTLane s l { x with present := present, los := los, pcs := present && !los }

/-- RED_LANE of a Tether lane. -/
def redLane (s : State) (l : Fin 2) : Word :=
  let x := s.red.lanes[l]
  getR s (Reg.RED_LANE l) ||| Reg.RED_LANE_sfp_present.mk' (b2n x.present) ||| Reg.RED_LANE_rx_los.mk' (b2n x.los) |||
  Reg.RED_LANE_partner_rx.mk' (b2n x.partnerRx) ||| Reg.RED_LANE_up.mk' (b2n x.up)

/-- The rings that the image uses, each with at least one linked port (R245). -/
def ringsLinked (s : State) : Bool :=
  (List.range 6).all fun k => !s.img.ringUsed k || portLink s (2 * k) || portLink s (2 * k + 1)

/-- Own readiness as a standby (R245, R419): the checkpoint is of the image that the partner runs, and that image is the module's own too
(notes/assumptions/90.md). -/
def standbyReady (s : State) : Bool :=
  if tetherDown s then s.mode == .standby && s.red.ready && !s.red.leaving
  else
    s.mode == .standby && !lagNow s && s.red.ckAt.isSome && s.red.ckImage == s.red.partner.image && s.img.id == s.red.partner.image &&
      ringsLinked s && s.red.partner.timeOk && !s.red.leaving && !s.dbg.frozen

/-- Readiness is judged again; a break restarts the hold-off (R245, R276). -/
def readyUpdate (s : State) : State :=
  let r := standbyReady s
  setRed s { s.red with ready := r, readySince := if r then some (s.red.readySince.getD s.time.c) else none, requested := r && s.red.requested }

/-- RED_STATUS. -/
def redStatus (s : State) : Word :=
  let r := s.red
  let seen := match r.lifeAt with
    | some x => decide (now s / (fastP s : Int) * fastP s - fastP s ≤ x)
    | none => false
  Reg.RED_STATUS_partner_state.mk' r.partner.state ||| Reg.RED_STATUS_partner_seen.mk' (b2n seen) |||
  Reg.RED_STATUS_partner_ready.mk' (b2n (partnerReady s)) ||| Reg.RED_STATUS_leaving.mk' (b2n r.leaving) |||
  Reg.RED_STATUS_lanes_up.mk' (b2n r.lanes[0].up + 2 * b2n r.lanes[1].up) ||| Reg.RED_STATUS_ready.mk' (b2n r.ready) |||
  Reg.RED_STATUS_lagging.mk' (b2n (lagNow s)) ||| Reg.RED_STATUS_isolated.mk' (b2n s.isolated) |||
  Reg.RED_STATUS_time_ok.mk' (b2n r.partner.timeOk) ||| Reg.RED_STATUS_owner.mk' (ownId s) |||
  Reg.RED_STATUS_rings_own.mk' s.fgr.rings ||| Reg.RED_STATUS_rings_partner.mk' r.partner.rings

/-- RED_COUNTS. -/
def redCounts (s : State) : Word :=
  Reg.RED_COUNTS_lag.mk' s.red.lag ||| Reg.RED_COUNTS_isolation.mk' s.red.isolation ||| Reg.RED_COUNTS_silence.mk' s.red.silence

/-- RED_HANDOVER. -/
def redHandover (s : State) : Word :=
  Reg.RED_HANDOVER_cycle.mk' s.red.hand.n ||| Reg.RED_HANDOVER_attempts.mk' s.red.hand.attempts ||| Reg.RED_HANDOVER_state.mk' s.red.hand.st.code

/-- The hold-off in force (RED_HOLDOFF). -/
def holdoffS (s : State) : Nat :=
  let x := getF s Reg.RED_HOLDOFF Reg.RED_HOLDOFF_seconds
  if x = 0 then 0 else max 10 (min 86400 x)

/-- RED_HOLDOFF_LEFT: seconds left of the hold-off. -/
def holdoffLeft (s : State) : Nat :=
  match s.red.readySince with
  | some c => if secondary s then 0 else holdoffS s - (s.time.c - c) / secT 1
  | none => 0

/-- HOLDOFF_EXPIRY: a PRIMARY standby ready without a break for the hold-off sends REQUEST, once for each hold-off (R276). -/
def holdoffExpiry (s : State) : State :=
  if s.mode == .standby && !secondary s && s.red.ready && decide (0 < holdoffS s) && holdoffLeft s == 0 && s.red.readySince.isSome &&
      !s.red.requested then
    tetherBoth 9 (fastNo s) ([4] ++ beBytes 4 0) (setRed s { s.red with requested := true })
  else s

end Sys2Proof.Machine
end

