-- ==== Sys2Proof/Machine/Ckpt.lean ====
section
/-!
DEFINITION. Checkpoints (R255 to R260): the words of the checkpointed regions, their capture at a FAST OC, and their stream over the Tether.
Where chains, LSE, overrides and exchange state lie in the Central Store is this model's choice (notes/assumptions/25.md).
-/
namespace Sys2Proof.Machine

/-! ### Records as words -/

/-- A record as words: fields with their widths in words, low word first. -/
def encW : List (Nat × Nat) → List Word
  | [] => []
  | (n, v) :: l => (List.range n).map (fun i => BitVec.ofNat 32 (v >>> (32 * i))) ++ encW l

/-- The number in `n` words from a place on. -/
def decW (l : List Word) (o n : Nat) : Nat := (List.range n).foldr (fun i a => ((l.getD (o + i) 0).toNat + 2 ^ 32 * 0) * 2 ^ (32 * i) + a) 0

def bvI (x : Int) : Nat := unsgn 64 x

def encPoly (q : Poly) : List Word :=
  encW [(2, q.a0.toNat), (1, q.a1.toNat), (1, q.a2.toNat), (1, q.a3.toNat), (2, q.x1.toNat), (1, q.v1.toNat), (1, q.h), (2, bvI q.orAt)
        , (1, 0x80000000 + q.validity + 16 * b2n q.origin + 32 * b2n q.join + 64 * b2n q.hold)]

def decPoly (l : List Word) (o : Nat) : Option Poly :=
  let f := decW l (o + 11) 1
  if f < 0x80000000 then none
  else some { a0 := BitVec.ofNat 64 (decW l o 2), a1 := l.getD (o + 2) 0, a2 := l.getD (o + 3) 0, a3 := l.getD (o + 4) 0
              x1 := BitVec.ofNat 64 (decW l (o + 5) 2), v1 := l.getD (o + 7) 0, h := decW l (o + 8) 1, orAt := sgn 64 (decW l (o + 9) 2)
              validity := f % 16, origin := bit f 4, join := bit f 5, hold := bit f 6 }

/-- Four polynomials, absent ones as zeros. -/
def encPolys (l : List Poly) : List Word :=
  (List.range 4).flatMap fun i => match l[i]? with
    | some q => encPoly q
    | none => List.replicate 12 0

def decPolys (l : List Word) (o : Nat) : List Poly := (List.range 4).filterMap fun i => decPoly l (o + 12 * i)

def encMaster (m : LseMaster) : List Word :=
  encW [(3, m.p48.toNat), (2, m.v.toNat), (2, m.a.toNat), (1, m.vt.toNat), (1, b2n m.en + 2 * b2n m.qs), (1, m.stWord.toNat)] ++ encPolys m.polys

def decMaster (l : List Word) : LseMaster :=
  let f := decW l 8 1
  { p48 := BitVec.ofNat 80 (decW l 0 3), v := BitVec.ofNat 64 (decW l 3 2), a := BitVec.ofNat 64 (decW l 5 2), vt := l.getD 7 0
    en := bit f 0, qs := bit f 1, stWord := l.getD 9 0, polys := decPolys l 10 }

def encSlave (x : LseSlave) : List Word :=
  encW [(2, x.s.toNat), (2, x.o.toNat), (2, x.oCmd.toNat), (1, x.r), (2, x.phi.toNat), (2, x.f.toNat), (2, x.xOr.toNat), (1, x.num.toNat)
        , (1, x.den), (2, x.ot.toNat), (1, x.k.toNat), (1, x.lnum.toNat), (1, x.lden), (1, x.stWord.toNat), (1, x.spd.toNat)
        , (1, b2n x.en + 2 * b2n x.badRatio + 4 * b2n x.fresh + 8)] ++ encPolys x.polys ++ [BitVec.ofNat 32 x.rDen]

/-- Where the first polynomial lies among the words of a slave's record. -/
def polyAt : Nat := 23

def decSlave (l : List Word) : LseSlave :=
  let f := decW l 22 1
  if f = 0 then {}
  else
    { s := BitVec.ofNat 64 (decW l 0 2), o := BitVec.ofNat 64 (decW l 2 2), oCmd := BitVec.ofNat 64 (decW l 4 2), r := decW l 6 1
      phi := BitVec.ofNat 64 (decW l 7 2), f := BitVec.ofNat 64 (decW l 9 2), xOr := BitVec.ofNat 64 (decW l 11 2)
      num := l.getD 13 0, den := decW l 14 1, ot := BitVec.ofNat 64 (decW l 15 2), k := l.getD 17 0, lnum := l.getD 18 0
      lden := decW l 19 1, stWord := l.getD 20 0, spd := l.getD 21 0, en := bit f 0, badRatio := bit f 1, fresh := bit f 2
      polys := decPolys l polyAt, rDen := decW l (polyAt + 48) 1 }

def encReg (r : LseReg) : List Word :=
  encW [(1, b2n r.en + 2 * b2n r.rst + 4 * b2n r.usable + 8 * b2n r.last.isSome), (2, bvI r.ts), (2, r.tgt.toNat), (2, bvI (r.last.getD 0))
        , (2, r.oReg.toNat), (2, r.err.toNat), (1, r.result), (1, r.accepted), (1, r.misses)]

def decReg (l : List Word) : LseReg :=
  let f := decW l 0 1
  { en := bit f 0, rst := bit f 1, usable := bit f 2, ts := sgn 64 (decW l 1 2), tgt := BitVec.ofNat 64 (decW l 3 2)
    last := if bit f 3 then some (sgn 64 (decW l 5 2)) else none, oReg := BitVec.ofNat 64 (decW l 7 2), err := BitVec.ofNat 64 (decW l 9 2)
    result := decW l 11 1, accepted := decW l 12 1, misses := decW l 13 1 }

def encStand (x : LseStand) : List Word := x.f.toList ++ [BitVec.ofNat 32 (b2n x.fresh + 2 * b2n x.clamped + 4)]

def decStand (l : List Word) : LseStand :=
  let f := decW l 5 1
  if f = 0 then {} else { f := Vector.ofFn fun i => l.getD i 0, fresh := bit f 0, clamped := bit f 1 }

/-! ### The checkpointed regions, by Store word number -/

def chainWord : Nat := chainBase / 4
def slaveWord : Nat := (smtBase + 0x88000) / 4
def masterWord : Nat := slaveWord + 96 * 128
def regWord : Nat := masterWord + 64 * 8
def standWord : Nat := regWord + 16 * 128
def ovrWord : Nat := standWord + 8 * 64
def xchWord : Nat := ovrWord + 4 * 256
/-- One past the last word of the records. -/
def ckEnd : Nat := xchWord + 8
/-- The Migration Map's entries lie in the Store's checkpoint staging, after the 12 MiB of queues and buffers (Table 1.4). -/
def mapWord : Nat := (queueBase + 12 * 2 ^ 20) / 4

/-- One word of a record of fixed size. -/
def recWord {α : Type} (t : Tab α) (enc : α → List Word) (n i : Nat) : Word :=
  match Tab.get? t (i / n) with
  | some x => (enc x).getD (i % n) 0
  | none => 0

/-- A record with one word replaced. -/
def recPut {α : Type} (t : Tab α) (enc : α → List Word) (dec : List Word → α) (n i : Nat) (w : Word) : Tab α :=
  let l := match Tab.get? t (i / n) with
    | some x => enc x
    | none => []
  let l := l ++ List.replicate (n - l.length) 0
  Tab.put t (i / n) (dec (l.set (i % n) w))

def chainNum (x : ChainSt) : List Word := encW [(4, x.num)]
def chainDec (l : List Word) : ChainSt := ChainSt.ofNum (decW l 0 4)

/-- The override register of a word: control, low and high words of an entry. -/
def ovrReg (i : Nat) : Option Nat :=
  match i % 4 with
  | 0 => some (Reg.IMG_OVR_CTL (i / 4)) | 1 => some (Reg.IMG_OVR_LO (i / 4)) | 2 => some (Reg.IMG_OVR_HI (i / 4)) | _ => none

/-- The exchange state as words: state, image_id of the replaced image and of the one that R214 keeps a copy for, entries of the Migration Map. -/
def xchWords (x : Xch) : List Word := encW [(1, x.st.code), (2, x.base.id), (2, x.keepBase), (1, x.map.length)]

/-- A word of the exchange state or of its Migration Map. -/
def xchWordOf (x : Xch) (n : Nat) : Word :=
  if n < mapWord then (xchWords x).getD (n - xchWord) 0
  else BitVec.ofNat 32 ((x.map.getD ((n - mapWord) / 4) 0) >>> (32 * ((n - mapWord) % 4)))

/-- The words of the exchange state: header and map. -/
def xchPlaces (x : Xch) : List Nat := (List.range 8).map (· + xchWord) ++ (List.range (4 * x.map.length)).map (· + mapWord)

/-- The exchange state as a checkpoint gives it. -/
def ckXchOf (s : State) : SMap 32 := (xchPlaces s.xch).foldl (fun m n => m.put n (xchWordOf s.xch n)) SMap.empty

/-- A module that takes over inherits the exchange state of the last complete checkpoint, except PENDING (R224, R267). The replaced content is what
it holds itself; a REVERT that waited at the partner waits here for no master; an Archive write of its own goes on (notes/assumptions/91.md). -/
def inheritXch (s : State) : State :=
  let num := fun (n k : Nat) => ((List.range k).map fun i => (s.red.ckXch.get (n + i)).toNat * 2 ^ (32 * i)).sum
  let base := num (xchWord + 1) 2
  let map := (List.range (num (xchWord + 5) 1)).map fun i => num (mapWord + 4 * i) 4
  let x : Xch := { s.xch with
    map := map, keepBase := num (xchWord + 3) 2, base := if s.xch.base.id = base then s.xch.base else { id := base }
    cont := if s.xch.base.id = base then s.xch.cont else [] }
  match num xchWord 1 with
  | 2 => { s with xch := { x with st := .unconfirmed, revert := none } }
  | 3 => { s with xch := { x with st := .reverting, revert := some (none, now s), deferrals := 0 } }
  | 4 => if s.xch.st = .archiving then s else { s with xch := { st := .archiving, keepBase := x.keepBase, deferrals := s.xch.deferrals } }
  | _ => if s.xch.st = .archiving then s else { s with xch := { deferrals := s.xch.deferrals } }

/-- A word of the checkpointed regions, as the last commits left them (R255). -/
def ckGet (s : State) (n : Nat) : Word :=
  if slotBase / 4 ≤ n ∧ n < paramBase / 4 then BitVec.ofNat 32 (ld s.prog.cslots (4 * n - slotBase) 4)
  else if imageBase / 4 ≤ n ∧ n < qualityBase / 4 then s.prog.pub.w.get (n - imageBase / 4)
  else if qualityBase / 4 ≤ n ∧ n < camBase / 4 then BitVec.ofNat 32 (leNat (s.prog.pub.q.getList (4 * n - qualityBase) 4))
  else if chainWord ≤ n ∧ n < slaveWord then recWord s.prog.cchain chainNum 4 (n - chainWord)
  else if slaveWord ≤ n ∧ n < masterWord then recWord s.cLse.slaves encSlave 96 (n - slaveWord)
  else if masterWord ≤ n ∧ n < regWord then recWord s.cLse.masters encMaster 64 (n - masterWord)
  else if regWord ≤ n ∧ n < standWord then recWord s.cLse.regs encReg 16 (n - regWord)
  else if standWord ≤ n ∧ n < ovrWord then recWord s.cLse.stands encStand 8 (n - standWord)
  else if ovrWord ≤ n ∧ n < xchWord then
    match ovrReg (n - ovrWord) with
    | some a => getR s a
    | none => 0
  else if (xchWord ≤ n ∧ n < ckEnd) ∨ mapWord ≤ n then
    if s.mode = .standby ∨ s.mode = .detached then s.red.ckXch.get n else xchWordOf s.xch n
  else 0

def setPub (s : State) (v : ImgView) : State := setProg s { s.prog with pub := v }

/-- The LSE with one word of its records replaced. -/
def lseWord (l : Lse) (n : Nat) (w : Word) : Lse :=
  if n < masterWord then { l with slaves := recPut l.slaves encSlave decSlave 96 (n - slaveWord) w }
  else if n < regWord then { l with masters := recPut l.masters encMaster decMaster 64 (n - masterWord) w }
  else if n < standWord then { l with regs := recPut l.regs encReg decReg 16 (n - regWord) w }
  else { l with stands := recPut l.stands encStand decStand 8 (n - standWord) w }

/-- A word of the records that the LSE works on. -/
def lsePut (n : Nat) (w : Word) (s : State) : State := { s with lse := lseWord s.lse n w }

/-- A word of the checkpointed regions is written on the standby (R258). The exchange state is kept apart until a takeover (R224). -/
def ckPut (n : Nat) (w : Word) (s : State) : State :=
  let p := s.prog
  if slotBase / 4 ≤ n ∧ n < paramBase / 4 then setProg s { p with cslots := st p.cslots (4 * n - slotBase) 4 w.toNat }
  else if imageBase / 4 ≤ n ∧ n < qualityBase / 4 then setPub s { p.pub with w := p.pub.w.put (n - imageBase / 4) w }
  else if qualityBase / 4 ≤ n ∧ n < camBase / 4 then setPub s { p.pub with q := stBytes p.pub.q (4 * n - qualityBase) (leBytes 4 w.toNat) }
  else if chainWord ≤ n ∧ n < slaveWord then setProg s { p with cchain := recPut p.cchain chainNum chainDec 4 (n - chainWord) w }
  else if slaveWord ≤ n ∧ n < ovrWord then { s with cLse := lseWord s.cLse n w }
  else if ovrWord ≤ n ∧ n < xchWord then
    match ovrReg (n - ovrWord) with
    | some a => setR s a w
    | none => s
  else if (xchWord ≤ n ∧ n < ckEnd) ∨ mapWord ≤ n then setRed s { s.red with ckXch := s.red.ckXch.put n w }
  else s

/-- The word numbers of the checkpointed regions, rising (R260). -/
def ckRegions (s : State) : List Nat :=
  (List.range ((paramBase - slotBase) / 4)).map (· + slotBase / 4) ++
  (List.range ((camBase - imageBase) / 4)).map (· + imageBase / 4) ++ (List.range (xchWord - chainWord)).map (· + chainWord) ++ xchPlaces s.xch

/-- The words that differ from those captured last, or every word when a full delta is due (R255, R260). -/
def ckChanged (s : State) : List (Nat × Word) :=
  let all := (ckRegions s).map fun n => (n, ckGet s n)
  if s.red.fullNext then all else all.filter fun p => p.2 != s.red.base.get p.1

/-! ### Records and frames of a delta (R257) -/

/-- One record: the words of one line, with their mask. -/
def ckRecord (line : Nat) (ws : List (Nat × Word)) : List Byte :=
  let mask := (ws.map fun p => 2 ^ (24 + p.1 % 8)).sum
  beBytes 4 (line + mask) ++ ws.flatMap fun p => beBytes 4 p.2.toNat

/-- The records of words in rising order. -/
def ckRecords : List (Nat × Word) → Nat → List (Nat × Word) → List (List Byte)
  | [], line, acc => if acc.isEmpty then [] else [ckRecord line acc.reverse]
  | p :: l, line, acc =>
    if acc.isEmpty then ckRecords l (p.1 / 8) [p]
    else if p.1 / 8 = line then ckRecords l line (p :: acc)
    else ckRecord line acc.reverse :: ckRecords l (p.1 / 8) [p]

/-- Records packed into frames of at most 4,096 record bytes; a record never spans two frames (R257). -/
def ckPack : List (List Byte) → List Byte → List (List Byte)
  | [], acc => if acc.isEmpty then [] else [acc]
  | r :: l, acc => if acc.length + r.length ≤ 4096 then ckPack l (acc ++ r) else acc :: ckPack l r

def Delta.frames (d : Delta) : List (List Byte) := ckPack (ckRecords d.words 0 []) []
def Delta.bytes (d : Delta) : Nat := (d.frames.map (·.length)).sum
def Delta.crc (d : Delta) : Word := crc32c d.frames.flatten

/-! ### Capture and stream (R255, R256) -/

/-- The present budget of record bytes per FAST cycle. -/
def ckBudget (s : State) : Nat :=
  let per := if laneBoth s 0 && laneBoth s 1 then 2300 else if laneBoth s 0 || laneBoth s 1 then 1150 else 0
  per * s.img.period 0 / 1000

/-- The last committed cycle numbers of FAST, MID, SLOW and the BACKGROUND pass count. -/
def lastNos (s : State) : List Nat := [Cls.fast, .mid, .slow, .background].map fun k => (s.cls.get k).comNo

/-- The capture at a FAST OC: delta k; one that has ended stays until it is acknowledged. While the previous delta is still being streamed, or no lane carries data, nothing is captured and
the words stay tracked. -/
def ckCapture (k : Nat) (s : State) : State :=
  let busy := match s.red.outDelta with
    | some d => !d.ended
    | none => false
  if busy || !pairStands s then s
  else
    let d : Delta := { k := k, words := ckChanged s, full := s.red.fullNext, flags := b2n s.red.fullNext + s.red.markSwitch, last := lastNos s }
    let base := d.words.foldl (fun m p => m.put p.1 p.2) s.red.base
    let s := setF s Reg.RED_CKPT_SIZE Reg.RED_CKPT_SIZE_bytes d.bytes
    let old := match s.red.outDelta with
      | some e => [e]
      | none => []
    setRed s { s.red with outDelta := some d, unacked := s.red.unacked ++ old, base := base, fullNext := false, markSwitch := 0 }

/-- The lane that a frame of an index goes on: by parity while both carry data (R256). -/
def ckLane (s : State) (i : Nat) : Option (Fin 2) :=
  match laneBoth s 0, laneBoth s 1 with
  | true, true => some (if i % 2 = 0 then 0 else 1)
  | true, false => some 0
  | false, true => some 1
  | false, false => none

/-- The delta is given up with CKPT_ABORT; its words stay tracked (R258). -/
def ckAbortSend (d : Delta) (s : State) : State :=
  let s := redAlarm Reg.RED_ALARM_ckpt_abort s
  let base := d.words.foldl (fun m p => m.put p.1 (~~~p.2)) s.red.base
  let s := setRed s { s.red with
    outDelta := s.red.outDelta.filter fun e => e.k != d.k, unacked := s.red.unacked.filter fun e => e.k != d.k, base := base
    fullNext := s.red.fullNext || d.full, markSwitch := s.red.markSwitch ||| (d.flags / 2 * 2) }
  tetherBoth 4 d.k (beBytes 4 d.k) s

/-- A CKPT_DATA frame (Table 10.3). -/
def ckData (d : Delta) (i : Nat) (l : Fin 2) (s : State) : State :=
  let r := d.frames.getD i []
  tetherSend l 2 d.k (beBytes 4 d.k ++ beBytes 2 i ++ beBytes 2 r.length ++ r) s

/-- CKPT_END on both lanes (Table 10.3). -/
def ckEndSend (d : Delta) (s : State) : State :=
  tetherBoth 3 d.k (beBytes 4 d.k ++ beBytes 4 d.frames.length ++ beBytes 4 d.bytes ++ beBytes 4 d.crc.toNat ++
    d.last.flatMap (beBytes 4) ++ [BitVec.ofNat 8 d.flags]) s

/-- The streamer's reads of a delta's words: single-bit errors are corrected; a word that is uncorrectable or refused cuts the delta off (R10, R408). -/
def ckReads (d : Delta) (s : State) : State × Bool :=
  let r := if s.ecc.cells.isEmpty then (s, false) else
    (d.words.map fun p => p.1 / 2).eraseDups.foldl (fun (a : State × Bool) w =>
      let x := eccWord w a.1
      (x.1, a.2 || x.2)) (s, false)
  if r.2 then r
  else match if ruled s 9 then d.words.find? fun p => unitRefused s 9 .read (4 * p.1) 4 else none with
    | some p => unitAccess 9 9 .read (4 * p.1) 4 r.1
    | none => r

/-- What is sent next: a frame of an older delta that was asked for again, else of the delta that was captured last. -/
def ckJob (s : State) : Option Delta :=
  match s.red.unacked.find? fun d => !d.again.isEmpty with
  | some d => some d
  | none => s.red.outDelta

/-- A delta at its place, changed. -/
def ckKeep (d : Delta) (s : State) : State :=
  setRed s { s.red with
    outDelta := s.red.outDelta.map fun e => if e.k = d.k then d else e, unacked := s.red.unacked.map fun e => if e.k = d.k then d else e }

/-- CKPT_FRAME_SEND: the next frame of the delta, or one asked for again, within the budget; CKPT_END after the last. An uncorrectable Store
word ends the delta (R256, R258). -/
def ckptFrameSend (s : State) : State :=
  match ckJob s with
  | none => s
  | some d =>
    if d.ended && d.again.isEmpty then s
    else
      let i := d.again.head?.getD d.next
      match ckLane s i with
      | none => ckAbortSend d s
      | some l =>
        let fr := d.frames
        if fr.length ≤ i then ckEndSend d (ckKeep { d with ended := true } s)
        else
          let n := (fr.getD i []).length
          let used := if s.red.sentPeriod = fastPeriod s then s.red.sentBytes else 0
          if ckBudget s < used + n then s
          else
            match ckReads d s with
            | (s, true) => ckAbortSend d s
            | (s, false) =>
              let s := ckKeep (if d.again.isEmpty then { d with next := d.next + 1 } else { d with again := d.again.tail }) s
              ckData d i l (setRed s { s.red with sentBytes := used + n, sentPeriod := fastPeriod s })

/-- The delta of a number that is being streamed or not acknowledged yet. -/
def ckSent (s : State) (k : Nat) : Option Delta :=
  match s.red.outDelta with
  | some d => if d.k = k then some d else s.red.unacked.find? fun e => e.k == k
  | none => s.red.unacked.find? fun e => e.k == k

/-- Delta k is applied at the partner, and with it every older one. -/
def ckApplied (d : Delta) (s : State) : State :=
  let s := setF s Reg.RED_CKPT Reg.RED_CKPT_value d.k
  let newest := s.red.outDelta.any fun e => e.k == d.k
  setRed s { s.red with
    ckAt := some d.k, ckImage := s.img.id, outDelta := s.red.outDelta.filter fun e => !(e.k == d.k && e.ended)
    unacked := if newest then [] else (s.red.unacked.dropWhile fun e => e.k != d.k).drop 1 }

/-- CKPT_ACK_RECEIVE: applied is acknowledged; missing asks for a range again (R258). -/
def ckptAckReceive (l : Fin 2) (fcsOk : Bool) (frame : List Byte) (s : State) : State :=
  match rxTether l fcsOk frame s with
  | (s, some f) =>
    if f.typ != 5 then s
    else
      match ckSent s (beNat (slice f.body 0 4)) with
      | some d =>
        if beNat (slice f.body 4 1) = 0 then ckApplied d s
        else
          let first := beNat (slice f.body 5 2)
          let n := beNat (slice f.body 7 2)
          ckKeep { d with again := ((List.range n).map (· + first)).filter fun i => decide (i < d.frames.length) } s
      | none => s
  | (s, none) => s

/-- RESYNC_REQ_RECEIVE: every word of the regions is tracked again (R260); reason 3 says that the partner has loaded the image. -/
def resyncReqReceive (l : Fin 2) (fcsOk : Bool) (frame : List Byte) (s : State) : State :=
  match rxTether l fcsOk frame s with
  | (s, some f) =>
    if f.typ = 6 && executing s then
      let s := setRed s { s.red with fullNext := true }
      if beNat (slice f.body 0 1) = 3 then setRed s { s.red with partner := { s.red.partner with image := s.img.id } } else s
    else s
  | (s, none) => s

/-- CKPT_ABORT: an executing module ends the delta being streamed; a standby discards the delta being received, the newest in staging (R258). -/
def ckptAbort (s : State) : State :=
  match s.red.outDelta with
  | some d => if executing s && !d.ended then ckAbortSend d s else s
  | none => setRed s { s.red with inDelta := none }

end Sys2Proof.Machine
end

