-- ==== Sys2Proof/Machine/Snap.lean ====
section
/-!
DEFINITION. The process image between field and program: the statuses that input sources report (Tables 6.4 and 6.5), snapshots (R63, R64,
R151 to R157), publication (R143, R144), and the override table (R161 to R166).
-/
namespace Sys2Proof.Machine

/-! ### Sources (R152 to R154) -/

/-- The statuses of Table 6.4. -/
inductive SrcStat where
  | fresh | held | missed | lost | fault
  deriving DecidableEq, Repr

/-- What a source reports for an element: its status, and the words it delivers, low word first. -/
structure SrcVal where
  st : SrcStat
  words : List Word := []
  deriving DecidableEq, Repr

def timeWords (x : Int) : List Word := [BitVec.ofNat 32 (unsgn 64 x), BitVec.ofNat 32 (unsgn 64 x / 2 ^ 32)]

/-- The newest of two optional instants. -/
def newest (a b : Option Int) : Option Int :=
  match a, b with
  | some x, some y => some (max x y)
  | some x, none => some x
  | none, y => y

/-- An instant lies at or after the previous snapshot of the class; before the first snapshot every instant does (notes/assumptions/82.md). -/
def inSpan (prev : Option Int) (x : Int) : Bool :=
  match prev with
  | some p => decide (p ≤ x)
  | none => true

/-- FEGER_DATA: word `w` of a segment record (R153, R155). -/
def srcFeger (s : State) (seg w : Nat) : SrcVal :=
  let f := s.img.fseg seg
  let x := staOf s f.sta
  match x.st with
  | .lost | .returning => { st := .lost }
  | .missed => { st := .missed }
  | .fresh =>
    match if x.good then x.segs.find? (fun g => g.index == f.index) else none with
    | some g => { st := if g.valid then .fresh else .fault, words := [(g.words[w]?).getD 0] }
    | none => { st := .missed }

/-- The newest frame of a message whose timestamp lies before an instant (R63). -/
def canNewest (s : State) (rec' : Nat) (t0 : Int) : Option (Int × List Byte) :=
  let x := (Tab.get? s.canRx rec').getD {}
  match x.cur with
  | some c => if c.1 < t0 then some c else x.prev
  | none => none

/-- CAN_DATA and CAN_STAMP (R153, R335). -/
def srcCan (s : State) (t0 : Int) (prev : Option Int) (rec' w : Nat) (stamp : Bool) : SrcVal :=
  let m := canMsg (((s.img.recs 0x0C 1)[rec']?).getD 0)
  let off := if h : m.unit < 16 then s.can[m.unit].st == .busOff || s.can[m.unit].st == .recovering else false
  if off then { st := .lost }
  else match canNewest s rec' t0 with
    | none => { st := if m.time = 0 then .held else .missed }
    | some (ts, l) =>
      let out := m.time != 0 && decide ((m.time : Int) < t0 - ts)
      if inSpan prev ts && (prev.isSome || !out) then
        { st := .fresh, words := if stamp then timeWords ts else [BitVec.ofNat 32 (leNat (slice l (4 * w) 4))] }
      else { st := if out then .missed else .held }

/-- DI, DI_STAMP and DI_EDGES of a channel (R153). -/
def srcDi (s : State) (prev : Option Int) (kind edge : Nat) (c : Fin 32) : SrcVal :=
  let x := s.io.di[c]
  if s.io.grp[diGrp c].undervolt then { st := .fault }
  else if kind = 4 then { st := .fresh, words := [if x.fzLevel then 1 else 0] }
  else if kind = 6 then
    { st := .fresh, words := [if edge = 0 then x.fzRises else if edge = 1 then x.fzFalls else x.fzRises + x.fzFalls] }
  else
    match if edge = 0 then x.fzRise else if edge = 1 then x.fzFall else newest x.fzRise x.fzFall with
    | some ts => if inSpan prev ts then { st := .fresh, words := timeWords ts } else { st := .held }
    | none => { st := .held }

/-- AO_READ of a unit. -/
def srcAo (s : State) (prev : Option Int) (u : Fin 8) : SrcVal :=
  let x := s.io.ao[u]
  if aoFault s u then { st := .fault, words := [x.read] }
  else match x.readAt with
    | some ts => if inSpan prev ts then { st := .fresh, words := [x.read] } else { st := .held }
    | none => { st := .held }

/-- The newest sample of an AI unit that was triggered before an instant. -/
def aiNewest (s : State) (u : Fin 8) (t0 : Int) : Option AiSample :=
  let x := s.io.ai[u]
  match x.cur with
  | some c => if c.ts < t0 then some c else x.prev
  | none => none

/-- A fault of Table 14.6 stands on the channel. -/
def aiFault (s : State) (u : Fin 8) : Bool := let x := s.io.ai[u]; x.overR || x.underR || x.wire || x.shunt

/-- AI and AI_STAMP of a unit. A channel fault that stands is FAULT whether or not a new sample delivers a value (R153, R359). -/
def srcAi (s : State) (t0 : Int) (prev : Option Int) (u : Fin 8) (stamp : Bool) : SrcVal :=
  let idle : SrcVal := { st := if aiFault s u then .fault else .held }
  match aiNewest s u t0 with
  | some x =>
    if inSpan prev x.ts then { st := if x.fault then .fault else .fresh, words := if stamp then timeWords x.ts else [x.value] } else idle
  | none => idle

/-- Element `j` of an input entry at a snapshot at `t0` of a class whose previous snapshot was at `prev`. -/
def srcElem (s : State) (t0 : Int) (prev : Option Int) (e : SmtEnt) (j : Nat) : SrcVal :=
  let u := e.unit + j
  match e.kind with
  | 0x0 => srcFeger s e.unit (e.offset + j)
  | 0x1 => { st := .fresh, words := [staWord s e.unit] }
  | 0x2 => srcCan s t0 prev e.unit (e.offset + j) false
  | 0x3 => srcCan s t0 prev e.unit 0 true
  | 0x4 | 0x5 | 0x6 => if h : u < 32 then srcDi s prev e.kind (e.opt % 4) ⟨u, h⟩ else { st := .held }
  | 0x8 => { st := .fresh, words := [dioStatus s u] }
  | 0xA => if h : u < 8 then srcAo s prev ⟨u, h⟩ else { st := .held }
  | 0xB => if h : u < 8 then srcAi s t0 prev ⟨u, h⟩ false else { st := .held }
  | 0xC => if h : u < 8 then srcAi s t0 prev ⟨u, h⟩ true else { st := .held }
  | 0xD =>
    if e.unit = 0 then { st := .fresh, words := [BitVec.ofNat 32 (unsgn 32 (t0 / (fastP s : Int)))] }
    else { st := .fresh, words := timeWords (t0 / (fastP s : Int) * (fastP s : Int)) }
  | _ => { st := .held }

/-! ### Assembly (Table 6.4) -/

/-- A word that would fill a REAL signal with a NaN or an infinity reports FAULT and delivers nothing (R154). -/
def nanGuard (g : Image) (n : Nat) (x : SrcVal) : SrcVal :=
  if g.sigTyp n == some 4 && (x.st == .fresh || x.st == .fault) && x.words.any (fun w => !F32.isFin w) then { st := .fault } else x

/-- Words and quality of an element (Table 6.4). Only the low word of a signal carries the quality (R140). -/
def putElem (g : Image) (n : Nat) (x : SrcVal) (width : Nat) (v : ImgView) : ImgView :=
  let x := nanGuard g n x
  let ws := (List.range width).map fun i =>
    match x.st with
    | .fresh | .fault => (x.words[i]?).getD (v.w.get (n + i))
    | .held | .missed => v.w.get (n + i)
    | .lost => g.substWord (n + i)
  let q := v.q.get n
  let q := match x.st with
    | .fresh => qValid
    | .held => q
    | .missed => (q &&& qValid) ||| qStale
    | .lost => qSubst ||| qLost
    | .fault => qLost
  { w := v.w.putList n ws, q := if g.sigLow n then v.q.put n q else v.q }

/-! ### Overrides (R161 to R165) -/

/-- The enabled entries of the override table. -/
def ovrNow (s : State) : List Ovr :=
  (List.range 256).filterMap fun e =>
    let c := getR s (Reg.IMG_OVR_CTL e)
    if Reg.IMG_OVR_CTL_en.get c = 1 then
      some { entry := e, sig := Reg.IMG_OVR_CTL_sig.get c, sim := Reg.IMG_OVR_CTL_mode.get c == 1
             q := BitVec.ofNat 8 (Reg.IMG_OVR_CTL_q.get c)
             value := BitVec.ofNat 64 ((getR s (Reg.IMG_OVR_LO e)).toNat + 2 ^ 32 * (getR s (Reg.IMG_OVR_HI e)).toNat) }
    else none

/-- The quality of an overridden word (R161). -/
def Ovr.qual (o : Ovr) : Byte := if o.sim then o.q ||| qSim else qValid ||| qForced

/-- The words of the overridden signals take their entries' values. -/
def ovrPut (g : Image) (l : List Ovr) (v : ImgView) : ImgView :=
  l.foldl (fun v o => (v.putRaw o.sig ((g.sigTyp o.sig).getD 0 ≥ 5) o.value.toNat).putQ o.sig o.qual) v

/-- Entries that are no longer there leave their words with quality VALID (R164). -/
def ovrDrop (old new : List Ovr) (v : ImgView) : ImgView :=
  (old.filter fun o => !new.any fun n => n.sig == o.sig).foldl (fun v o => v.putQ o.sig qValid) v

/-- A class takes the override table as it stands (R162). -/
def ovrTake (k : Cls) (s : State) : State :=
  let new := ovrNow s
  let v := ovrDrop (s.prog.ovr.get k) new (s.prog.view.get k)
  setProg s { s.prog with view := s.prog.view.set k v, ovr := s.prog.ovr.set k new }

/-- The window shows a committed table from the boundary on (R162). -/
def ovrWindow (s : State) : State :=
  let new := ovrNow s
  setProg s { s.prog with pub := ovrPut s.img new (ovrDrop s.prog.winOvr new s.prog.pub), winOvr := new }

/-- IMG_STATUS. -/
def imgStatus (s : State) : Word :=
  let l := ovrNow s
  Reg.IMG_STATUS_simulated.mk' (l.filter (·.sim)).length ||| Reg.IMG_STATUS_forced.mk' (l.filter fun o => !o.sim).length

/-- The value is a value of a type (R165 case 2). -/
def ovrValueOk (typ : Nat) (lo hi : Word) : Bool :=
  if 5 ≤ typ then true
  else hi == 0 && (if typ = 0 then lo.toNat < 2 else if typ = 4 then F32.isFin lo else true)

/-- The first case of R165 that an enabled entry meets; `moved` turns reasons 1, 2 and 4 into 6. -/
def ovrReason (s : State) (taken : List Nat) (o : Ovr) (moved : Bool) : Nat :=
  let lo := o.value.setWidth 32
  let hi := (o.value >>> 32).setWidth 32
  if !s.img.sigLow o.sig then (if moved then 6 else 1)
  else if !ovrValueOk ((s.img.sigTyp o.sig).getD 0) lo hi then (if moved then 6 else 2)
  else if (!o.sim && o.q != 0) || (o.sim && o.q &&& 0x88 != 0) then 3
  else if o.sim && !s.img.isInput o.sig then (if moved then 6 else 4)
  else if taken.contains o.sig then 5
  else 0

/-- The check of R165 in ascending number: a refused entry loses its en, and the first refusal is recorded. -/
def ovrCheck (moved : Bool) (s : State) : State :=
  ((ovrNow s).foldl (fun (p : State × List Nat) o =>
    let s := p.1
    let r := ovrReason s p.2 o moved
    if r = 0 then (s, o.sig :: p.2)
    else
      let s := setB s (Reg.IMG_OVR_CTL o.entry) Reg.IMG_OVR_CTL_en false
      let s :=
        if flag s Reg.IMG_OVR_REJECT Reg.IMG_OVR_REJECT_valid then satAdd s Reg.IMG_OVR_REJECT Reg.IMG_OVR_REJECT_count 1
        else setR s Reg.IMG_OVR_REJECT (Reg.IMG_OVR_REJECT_valid.mk' 1 ||| Reg.IMG_OVR_REJECT_count.mk' 1 |||
          Reg.IMG_OVR_REJECT_reason.mk' r ||| Reg.IMG_OVR_REJECT_entry.mk' o.entry)
      (s, p.2)) (s, [])).1

/-- A full image commit disables every entry (R165). -/
def ovrDisable (s : State) : State :=
  (ovrNow s).foldl (fun (s : State) o => setB s (Reg.IMG_OVR_CTL o.entry) Reg.IMG_OVR_CTL_en false) s

/-- A register of the override table differs. -/
def ovrMoved (a b : State) : Bool :=
  (List.range 256).any fun e => [Reg.IMG_OVR_CTL e, Reg.IMG_OVR_LO e, Reg.IMG_OVR_HI e].any fun r => getR a r != getR b r

/-- A commit that has changed the override table is recorded (R166). -/
def ovrRecord (before s : State) : State := if ovrMoved before s then recEvent s 0x000B 0 1 else s

/-! ### The published image (R143, R144) -/

/-- IMG_PUB_SEQ counts beginnings and ends of updates of the window (R144). -/
def pubAdd (n : Nat) (s : State) : State := wrapAdd s Reg.IMG_PUB_SEQ Reg.IMG_PUB_SEQ_seq n

/-- Words with the values and qualities of a view. -/
def copyWords (l : List Nat) (src dst : ImgView) : ImgView :=
  l.foldl (fun d n => { w := d.w.put n (src.w.get n), q := d.q.put n (src.q.get n) }) dst

/-- The image word of a recorder histogram as a number, where its quality is usable (R394). -/
def wordSample (g : Image) (v : ImgView) (n : Nat) : Option Int :=
  let w := v.w.get n
  if qUsable (v.q.get n) then
    match g.sigTyp n with
    | some 0 | some 1 | some 3 => some w.toInt
    | some 2 => some (min (w.toNat : Int) 2147483647)
    | some 4 => if F32.isFin w then some (max (-2147483648) (min 2147483647 (F32.toIntTrunc w))) else none
    | _ => none
  else none

/-- Feed the image words of a list to the histograms that name them (Table 16.1, src 0x80). -/
def sampleWords (v : ImgView) (p : Nat → Bool) (s : State) : State :=
  (histsOf s 0x80).foldl (fun (s : State) h =>
    let n := getF s (Reg.REC_H_CFG h) Reg.REC_H_CFG_sig
    if p n then
      match wordSample s.img v n with
      | some x => recPost s (.sample h x)
      | none => s
    else s) s

/-! ### Snapshots (R64, R151) -/

/-- The words that input entries fill in the snapshot of a class: those it reads, and in FAST those that no class reads (R143). -/
def snapReads (g : Image) (k : Cls) (n : Nat) : Bool :=
  g.clsReads k.code n || (k == .fast && !([0, 1, 2, 3].any fun j => g.clsReads j n))

/-- The elements of the input entries that a class's snapshot fills, with their first words. -/
def snapElems (g : Image) (k : Cls) : List (SmtEnt × Nat × Nat) :=
  g.smtIn.flatMap fun e => ((List.range e.cnt).map fun j => (e, j, e.sig + j * e.width)).filter fun p =>
    (List.range e.width).any fun i => snapReads g k (p.2.2 + i)

/-- The faster class whose snapshot at the same T0 has filled a word (R151). -/
def sharedBy (s : State) (k : Cls) (t0 : Int) (n : Nat) : Option Cls :=
  [Cls.fast, .mid, .slow].find? fun j =>
    decide (j.code < k.code) && (s.cls.get j).snapT0 == some t0 && snapReads s.img j n

/-- The words and the quality byte of an element, as Store ranges. -/
def elemRanges (p : SmtEnt × Nat × Nat) : List (Nat × Nat) := [(imageBase + 4 * p.2.2, 4 * p.1.width), (qualityBase + p.2.2, 1)]

/-- Fill one element in a class's view: with the words of a faster class that took it at the same T0 (R151), else from its source. -/
def fillElem (k : Cls) (t0 : Int) (prev : Option Int) (s : State) (p : SmtEnt × Nat × Nat) : State :=
  let v := s.prog.view.get k
  let v := match sharedBy s k t0 p.2.2 with
    | some j => copyWords ((List.range p.1.width).map (p.2.2 + ·)) (s.prog.view.get j) v
    | none => putElem s.img p.2.2 (srcElem s t0 prev p.1 p.2.1) p.1.width v
  (elemRanges p).foldl (fun s r => eccClean r.1 r.2 s) (setView s k v)

/-- Fill elements, but for those whose write the ART refuses to the snapshot assembler (R408), and put the overrides that the class has taken over
them (R161). -/
def fillElems (k : Cls) (t0 : Int) (prev : Option Int) (l : List (SmtEnt × Nat × Nat)) (s : State) : State :=
  let s :=
    if ruled s 8 then
      l.foldl (fun s p =>
        match unitAccesses 8 8 .write (elemRanges p) s with
        | (s, true) => s
        | (s, false) => fillElem k t0 prev s p) s
    else l.foldl (fillElem k t0 prev) s
  setView s k (ovrPut s.img (s.prog.ovr.get k) (s.prog.view.get k))

/-- The filled words that the window takes from this class (R143). -/
def snapPublished (g : Image) (k : Cls) (l : List (SmtEnt × Nat × Nat)) : List Nat :=
  (l.flatMap fun p => (List.range p.1.width).map (p.2.2 + ·)).filter fun n => g.reader n == k.code

def publishSnap (k : Cls) (l : List (SmtEnt × Nat × Nat)) (s : State) : State :=
  setProg s { s.prog with pub := copyWords (snapPublished s.img k l) (s.prog.view.get k) s.prog.pub }

/-- The counts of R141's input words after a FAST snapshot (Table 6.6), by each word's own quality byte (R140). -/
def countInputs (s : State) : State :=
  let ws := s.img.smtIn.flatMap fun e => (List.range e.words).map (e.sig + ·)
  let q := fun (n : Nat) => s.prog.pub.q.get n
  let cnt := fun (p : Byte → Bool) => (ws.filter fun n => p (q n)).length
  let s := setF s Reg.IMG_STALE_CNT Reg.IMG_STALE_CNT_words (cnt fun b => b &&& qStale != 0)
  let s := setF s Reg.IMG_SUBST_CNT Reg.IMG_SUBST_CNT_words (cnt fun b => b &&& qSubst != 0)
  setF s Reg.IMG_FAULT_CNT Reg.IMG_FAULT_CNT_words (cnt fun b => b &&& qLost != 0 && b &&& qSubst == 0)

/-- A class's snapshot waits for AI conversions that were triggered before its T0 (R157). -/
def aiPending (s : State) (k : Cls) : Bool :=
  match (s.cls.get k).snapT0 with
  | none => false
  | some t0 => (snapElems s.img k).any fun p =>
      (p.1.kind == 0xB || p.1.kind == 0xC) &&
      (if h : p.1.unit + p.2.1 < 8 then
        (match s.io.ai[p.1.unit + p.2.1].conv with
         | some ts => decide (ts < t0)
         | none => false)
       else false)

/-- The cycles whose snapshot is still being assembled. -/
def pubWaits (s : State) : List Cls := [Cls.fast, .mid, .slow, .background].filter fun k => (s.cls.get k).running && aiPending s k

/-- What the FAST snapshot brings when it ends: the counts of Table 6.6 and the samples of the histograms of input words. -/
def fastSnapDone (s : State) : State := sampleWords s.prog.pub s.img.isInput (countInputs s)

/-- The snapshot of a class at a T0 (R64, R67, R151): its own words stay as its last cycle left them, every other word comes from the published
image, and the words of input entries from their sources. -/
def snapshot (k : Cls) (t0 : Int) (s : State) : State :=
  let c := s.cls.get k
  let s := ovrTake k { s with cls := s.cls.set k { c with snapT0 := some t0, prevT0 := c.snapT0 } }
  let l := snapElems s.img k
  let s := setView s k (copyWords (s.img.clsWrites k.code) (s.prog.view.get k) s.prog.pub)
  let s := publishSnap k l (fillElems k t0 c.snapT0 l s)
  if k == .fast && !aiPending s .fast then fastSnapDone s else s

/-- IMG_PUB_SEQ after the snapshot of a class that starts: its update of the window has begun, and has ended unless it waits for a conversion;
snapshots are assembled one after the other, so that a later one begins when the one that waits has ended (R64, R144, R157). -/
def snapSeq (k : Cls) (s : State) : State :=
  let w := pubWaits s
  if w.contains k then (if w.length = 1 then pubAdd 1 s else s) else pubAdd 2 s

/-- Elements that `p` selects are filled again in the snapshots at a T0, in the classes' order (R63, R151, R157). -/
def refill (t0 : Int) (p : SmtEnt → Nat → Bool) (s : State) : State :=
  [Cls.fast, .mid, .slow, .background].foldl (fun (s : State) k =>
    let c := s.cls.get k
    let l := (snapElems s.img k).filter fun e => p e.1 e.2.1
    if c.running && c.snapT0 == some t0 && !l.isEmpty then
      let s := publishSnap k l (fillElems k t0 c.prevT0 l s)
      if k == .fast && !aiPending s .fast then countInputs s else s
    else s) s

/-- The conversion of a unit has ended: the snapshots that waited for it take the sample, and those that wait for nothing more end
(R144, R157). `before` is the state before the result came. -/
def aiFill (before : State) (u : Fin 8) (s : State) : State :=
  let was := pubWaits before
  let t0s := (was.map fun k => ((s.cls.get k).snapT0).getD 0).eraseDups
  let s := t0s.foldl (fun (s : State) t0 => refill t0 (fun e j => (e.kind == 0xB || e.kind == 0xC) && e.unit + j == u.val) s) s
  let now' := pubWaits s
  let s := if was.contains .fast && !now'.contains .fast then fastSnapDone s else s
  let m := was.length - now'.length
  if m = 0 then s else pubAdd (2 * m - 1 + (if now'.isEmpty then 0 else 1)) s

/-- AI_CONVERSION_DONE (R157, R359). -/
def aiDone (u : Fin 8) (code : BitVec 16) (s : State) : State :=
  let was := s.io.ai[u].conv
  let r := aiConversionDone u code s
  if was.isSome && r.io.ai[u].conv.isNone then aiFill s u r else r

/-! ### Data in a crossing at T0 (R63) -/

/-- A DI edge that was stamped before a T0 and came after it belongs to that cycle: the channel freezes again, and its elements are filled
again. `before` is the state before the edge came. -/
def diLate (c : Fin 32) (before s : State) : State :=
  match crossingT0 s, s.io.di[c].wait.getLast? with
  | some t0, some e =>
    if before.io.di[c].wait.length < s.io.di[c].wait.length && decide (e.1 < t0) then
      refill t0 (fun e j => (e.kind == 4 || e.kind == 5 || e.kind == 6) && e.unit + j == c.val) (setDi s c (freezeDi s.io.di[c] t0))
    else s
  | _, _ => s

/-- An uplink whose receive timestamp lies before a T0 and that came after it belongs to that cycle: where the station has become good for the
interval, its elements are filled again. `before` is the state before the uplink came. -/
def uplinkLate (before s : State) : State :=
  match crossingT0 s with
  | some t0 =>
    let came := fun (i : Nat) => !(staOf before i).good && (staOf s i).good
    refill t0 (fun e j => (e.kind == 0 && came (s.img.fseg e.unit).sta) || (e.kind == 1 && came e.unit && j == 0)) s
  | none => s

end Sys2Proof.Machine
end

