-- ==== Sys2Proof/Machine/Retain.lean ====
section
/-!
DEFINITION. The retentive set (R135 to R139) and what `START` and a full image commit leave of the program's memory (R116, R130, R146,
R202).
-/
namespace Sys2Proof.Machine

/-! ### The set (R135, R136) -/

def Image.retRuns (g : Image) : List SigRun := g.signals.filter (·.retentive)

/-- The words of the retentive runs, in SIGNALS order. -/
def Image.retWords (g : Image) : List Nat := g.retRuns.flatMap fun r => (List.range r.words).map (r.index + ·)

/-- The word belongs to a retentive signal. -/
def Image.isRet (g : Image) (n : Nat) : Bool :=
  match g.sigOf n with
  | some r => r.retentive
  | none => false

/-- Head entries of the stateful blocks whose out0 names a retentive signal, with their state slots. -/
def Image.retBlocks (g : Image) : List (BlkEnt × Nat) :=
  (g.order.map (·.block)).filterMap fun b =>
    let e := g.blk b
    match g.shape e with
    | some x => if x.slots != 0 && g.isRet (refIdx e.out0) then some (e, x.slots) else none
    | none => none

/-- The retentive slots, ascending. -/
def Image.retSlots (g : Image) : List Nat :=
  sortNats (g.retBlocks.flatMap fun p => (List.range p.2).map (p.1.state + ·))

/-- The retentive chains, ascending. -/
def Image.retChains (g : Image) : List Nat := ((g.chains.zipIdx).filter fun p => p.1.retentive).map (·.2)

/-- Its size in bytes (R135). -/
def Image.retSize (g : Image) : Nat := 5 * g.retWords.length + 16 * g.retSlots.length + 16 * g.retChains.length

/-! ### Copies in Ballast (R136, R137, R214) -/

def lrrt : List Byte := [0x4C, 0x52, 0x52, 0x54]
def retCopy0 : Nat := 0x0000000
def retCopy1 : Nat := 0x0101000

/-- The set with the words of a view, and slots and chains as the last commits left them (R137). -/
def retData (v : ImgView) (s : State) : List Byte :=
  let g := s.img
  (g.retWords.flatMap fun n => leBytes 4 (v.w.get n).toNat) ++ (g.retWords.map fun n => v.q.get n) ++
  (g.retSlots.flatMap fun i => ldBytes s.prog.cslots (16 * i) 16) ++
  (g.retChains.flatMap fun c => leBytes 16 ((Tab.get? s.prog.cchain c).getD {}).num)

/-- The T0 of the last cycle of a class whose state a capture holds: of its last commit, or of the state that `START` restored; 0 for an absent
class (Table 5.8). -/
def retT0 (s : State) (k : Cls) : Int :=
  if s.img.hasCls k.code then ((s.cls.get k).comT0).getD (((s.retain.baseT0s).get k).getD 0) else 0

/-- A capture (Table 5.8): reason 0 JOURNAL, 1 FLUSH, 2 HALT. A FLUSH takes the words as published at the last OC (R137). -/
def retCapture (s : State) (reason : Nat) : Capture :=
  let v := if reason = 1 then s.prog.ocPub.getD s.prog.pub else s.prog.pub
  { reason := reason, image := s.img.id, data := retData v s, hours := s.rtc.opH.toNat
    t0s := [Cls.fast, .mid, .slow].flatMap fun k => leBytes 8 (unsgn 64 (retT0 s k)) }

/-- The complete copies: base, sequence number, image_id. -/
def retCopies (m : SMap 8) : List (Nat × Nat × Nat) :=
  [retCopy0, retCopy1].filterMap fun b => (copySeq m b lrrt).map fun q => (b, q, ld m (b + 16) 8)

/-- The complete copy with the highest seq of a list. -/
def topCopy (l : List (Nat × Nat × Nat)) : Option (Nat × Nat × Nat) :=
  l.foldl (fun a c => match a with
    | some x => if x.2.1 < c.2.1 then some c else a
    | none => some c) none

/-- The copy that a write takes, with its sequence number: the one that does not hold the newest complete capture, or under R214 not the
newest of the base image. Every write begun takes a number, also one that a FLUSH abandons (R136). -/
def retTarget (s : State) : Nat × Nat :=
  let all := retCopies s.ballast
  let q := max (((topCopy all).map (·.2.1)).getD 0) s.retain.seq + 1
  let keep := if s.xch.keepBase = 0 then none else topCopy (all.filter fun c => c.2.2 == s.xch.keepBase)
  match (match keep with
    | some c => some c
    | none => topCopy all) with
  | some c => (if c.1 = retCopy0 then retCopy1 else retCopy0, q)
  | none => (retCopy0, q)

/-- A write begins at a copy: the data goes in, the header is written last. -/
def retBeginAt (base q : Nat) (c : Capture) (s : State) : State :=
  let h := copyHeader lrrt (BitVec.ofNat 8 c.reason) q c.image c.data c.t0s c.hours
  { s with ballast := stBytes s.ballast (base + 64) c.data, retain := { s.retain with writing := some (base, h), seq := q } }

def retBegin (c : Capture) (s : State) : State := retBeginAt (retTarget s).1 (retTarget s).2 c s

/-- JOURNAL: while no write is in progress, and not in HOLDUP (R379). -/
def retJournal (s : State) : State := if s.retain.writing.isNone && s.pwr.st == .main then retBegin (retCapture s 0) s else s

/-- JOURNAL at the switch instant of a delta (R214): a write in progress ends first (notes/assumptions/26.md). -/
def retSwitch (s : State) : State :=
  if s.pwr.st != .main then s
  else if s.retain.writing.isNone then retBegin (retCapture s 0) s
  else { s with retain := { s.retain with pend := some (retCapture s 0) } }

/-- HALT: when the engine halts. A write in progress ends first (notes/assumptions/26.md). -/
def retHalt (s : State) : State :=
  if s.retain.writing.isNone then retBegin (retCapture s 2) s
  else { s with retain := { s.retain with pend := some (retCapture s 2) } }

/-- FLUSH: at HOLDUP entry; a write in progress is abandoned, and the flush takes its copy. -/
def retFlush (s : State) : State :=
  let c := retCapture s 1
  let s' := { s with retain := { s.retain with pend := none } }
  match s.retain.writing with
  | some (b, _) => retBeginAt b (retTarget s).2 c s'
  | none => retBegin c s'

/-! ### Restore (R138, R139) -/

/-- Words, qualities, slots and chains of a copy's data go back; overridden words keep their overrides. -/
def retLoad (d : List Byte) (s : State) : State :=
  let g := s.img
  let nw := g.retWords.length
  let ns := g.retSlots.length
  let w := fun (o n : Nat) => leNat (slice d o n)
  let v := (g.retWords.zipIdx).foldl (fun (v : ImgView) p =>
    { w := v.w.put p.1 (BitVec.ofNat 32 (w (4 * p.2) 4))
      q := v.q.put p.1 (BitVec.ofNat 8 (w (4 * nw + p.2) 1) &&& ~~~qForced) }) s.prog.pub
  let sl := (g.retSlots.zipIdx).foldl (fun m p => st m (16 * p.1) 16 (w (5 * nw + 16 * p.2) 16)) s.prog.slots
  let ch := (g.retChains.zipIdx).foldl (fun t p => Tab.put t p.1 (ChainSt.ofNum (w (5 * nw + 16 * ns + 16 * p.2) 16))) s.prog.chain
  let v := ovrPut g s.prog.winOvr v
  setProg s { s.prog with pub := v, view := PerCls.all v, slots := sl, cslots := sl, chain := ch, cchain := ch }

/-- Table 5.9. The answer tells whether the set was restored. -/
def retRestore (s : State) : State × Bool :=
  let all := retCopies s.ballast
  match topCopy (all.filter fun c => c.2.2 == s.img.id) with
  | some c =>
    let s := retLoad (ldBytes s.ballast (c.1 + 64) (ld s.ballast (c.1 + 24) 4)) s
    let t := fun (o : Nat) => some (sgn 64 (ld s.ballast (c.1 + o) 8))
    let t0s : PerCls (Option Int) := ⟨t 32, t 40, t 48, t 32⟩
    ({ s with retain := { s.retain with t0s := t0s, baseT0s := t0s } }, true)
  | none => (recEvent s (if all.isEmpty then 0x000A else 0x0009) 0 2, false)

/-- At a class's first cycle after a restore the start of its restored mode-1 timers advances by T0 − t0 − P (R139). For BACKGROUND, whose T0 the
header does not hold, t0_fast and the FAST period stand in (R124, notes/assumptions/88.md). -/
def retTimers (k : Cls) (t0 : Int) (s : State) : State :=
  match s.retain.t0s.get k with
  | none => s
  | some old =>
    let d := t0 - old - s.img.period (if k = .background then 0 else k.code)
    let mine := s.img.clsBlocks k.code
    let es := (mine.map fun b => s.img.blk b).filter fun e =>
      decide (0x2F ≤ e.typ) && decide (e.typ ≤ 0x32) && e.v % 2 == 1 && s.img.isRet (refIdx e.out0)
    let m := es.foldl (fun m (e : BlkEnt) => st m (16 * e.state) 8 (unsgn 64 (sgn 64 (ld m (16 * e.state) 8) + d))) s.prog.slots
    setProg { s with retain := { s.retain with t0s := s.retain.t0s.set k none } } { s.prog with slots := m }

/-! ### Starting the program's memory (R116, R130, R146, R202) -/

/-- Every word of a declared run at its safe value with quality 0. -/
def safeView (g : Image) : ImgView :=
  g.signals.foldl (fun v r =>
    { v with w := v.w.putList r.index ((List.range r.words).map fun i => r.half r.safe (r.index + i)) }) {}

/-- Slots 0, words at their safe values but for overridden ones, no chain state, the LSE as R202 leaves it. -/
def progClear (s : State) : State :=
  let l := ovrNow s
  let v := ovrPut s.img l (safeView s.img)
  let s := setProg s { pub := v, view := PerCls.all v, ovr := PerCls.all l, winOvr := l }
  lseReset s

/-- The window shows the action words as the sequencer has just written them, but for forced ones (R130, R163). -/
def showActs (s : State) : State :=
  s.img.chains.foldl (fun (s : State) c =>
    let k : Cls := match c.cls with
      | 0 => .fast | 1 => .mid | 2 => .slow | _ => .background
    let l := ((List.range c.count).map fun i => refIdx (s.img.step c i).act).filter fun n => !s.prog.winOvr.any fun o => !o.sim && o.sig == n
    setProg s { s.prog with pub := copyWords l (s.prog.view.get k) s.prog.pub }) s

/-- The chains start; a restored chain keeps its state. What has committed is what there is. -/
def progStart (restored : Bool) (s : State) : State :=
  let s := showActs (startChains (fun c => restored && (s.img.retChains).contains c) s)
  { setProg s { s.prog with cslots := s.prog.slots, cchain := s.prog.chain } with cLse := s.lse }

/-- The program's memory at `START`: cleared, restored from the retentive set, started. A write in progress is waited for (R138). -/
def progRestart (s : State) : State :=
  let s := progClear s
  if s.retain.writing.isSome then progStart false { s with retain := { s.retain with startWaits := true } }
  else
    let r := retRestore s
    progStart r.2 r.1

/-- RETAIN_WRITE_COMPLETE: the header is written, a capture that waits begins, and a START that waits restores (R137, R138). -/
def retDone (s : State) : State :=
  match s.retain.writing with
  | none => s
  | some (b, h) =>
    let s := { s with ballast := stBytes s.ballast b h, retain := { s.retain with writing := none } }
    match s.retain.pend with
    | some c => retBegin c { s with retain := { s.retain with pend := none } }
    | none =>
      if s.retain.startWaits then
        let r := retRestore (progClear { s with retain := { s.retain with startWaits := false } })
        progStart r.2 r.1
      else s

end Sys2Proof.Machine
end

