-- ==== Sys2Proof/Machine/Exec.lean ====
section
/-!
DEFINITION. The cycle scheduler (R59 to R66, R71, R73, R75): cycle starts with their snapshots, evaluation by waves, chains and the LSE
update, and completion.
-/
namespace Sys2Proof.Machine

def setCls (s : State) (k : Cls) (x : ClassRun) : State := { s with cls := s.cls.set k x }

/-- The fabric evaluates: in ACTIVE and SOLO, and on the new active of a handover from GO on (R274). -/
def engRuns (s : State) : Bool := executing s || s.red.hand.taking

/-- The number of a class's cycle at a T0 (R60). -/
def cycleNo (s : State) (k : Cls) (t0 : Int) : Nat := unsgn 32 (t0 / (max 1 (s.img.period k.code) : Nat))

/-- The elapsed count of an evaluation (R61); for BACKGROUND the time between T0s (R117). -/
def elapsedOf (s : State) (k : Cls) (t0 : Int) : Nat :=
  let c := s.cls.get k
  if k = .background then
    match c.lastT0 with
    | some x => (t0 - x).toNat
    | none => fastP s
  else
    match c.lastNo with
    | some n => min 65535 (unsgn 32 ((cycleNo s k t0 : Int) - n))
    | none => 1

/-- A cycle of a class starts at a T0: snapshot, elapsed count, injection (R61, R64, R75). -/
def startCls (k : Cls) (t0 : Int) (s : State) : State :=
  let s := retTimers k t0 s
  let el := elapsedOf s k t0
  let no := if k = .background then (((s.cls.get k).lastNo).getD 0 + 1) % 2 ^ 32 else cycleNo s k t0
  let s := snapshot k t0 s
  let c := s.cls.get k
  let s := snapSeq k (setCls s k { c with
    lastT0 := some t0, lastNo := some no, elapsed := el, running := true, waves := (s.img.waves k.code).length
    chainsDone := false, lseDone := false, complete := false, late := false, injected := decide (0 < c.inject), inject := c.inject - 1 })
  let s := setR s (Reg.ENG_CLS_CYCLE k.code) (BitVec.ofNat 32 no)
  setLane s { s.lane with diverged := s.lane.diverged.set k [] }

/-- The class at its T0: not started while its last cycle runs on, nor twice, nor backwards (R62, R73). -/
def startDue (t0 : Int) (s : State) (k : Cls) : State :=
  let c := s.cls.get k
  let due := s.img.hasCls k.code && t0 % (max 1 (s.img.period k.code) : Nat) == 0
  let later := match c.lastT0 with
    | some x => decide (x < t0)
    | none => true
  if !due || !later then s
  else if c.running then setCls s k { c with skipT0 := some t0 }
  else startCls k t0 s

/-- A BACKGROUND pass starts at a FAST T0 once the previous one has committed (R71). -/
def startBackground (t0 : Int) (s : State) : State :=
  let c := s.cls.background
  let later := match c.lastT0 with
    | some x => decide (x < t0)
    | none => true
  if s.img.hasCls 3 && flag s Reg.ENG_CTRL Reg.ENG_CTRL_bg_enable && !c.running && !c.complete && later then startCls .background t0 s else s

/-- An exchange is to be switched at this T0 (R217, R223). -/
def xchDue (s : State) (t0 : Int) : Bool :=
  t0 % (max 1 (slowPeriod s.img) : Nat) == 0 &&
  (masters.any (fun m =>
    let x := s.txn.get m
    x.st == .pending && x.image && x.delta && decide (x.latch + 5000 ≤ t0)) ||
   (match s.xch.revert with
    | some p => decide (p.2 + 5000 ≤ t0) && s.lane.fault.isNone
    | none => false))

/-! ### Commands that wait -/

def setHand (s : State) (h : Handover) : State := setRed s { s.red with hand := h }

def sysCode : SysCmd → Nat
  | .stop => 2 | .safe => 3 | .handover => 5

/-- A waiting module command completes with a status for every master that waits (R81). -/
def sysFinish (status : Nat) (s : State) : State :=
  match s.sysPend with
  | some p =>
    p.masters.foldl (fun (s : State) m => cmdDone s m Reg.SYS_CMD_STATUS (sysCode p.cmd) status) { s with sysPend := none }
  | none => s

/-- A `HANDOVER` waits. -/
def handWaits (s : State) : Bool :=
  match s.sysPend with
  | some p => p.cmd == .handover
  | none => false

/-- A handover that has not reached GO is cancelled (R81, R275). -/
def handCancel (s : State) : State :=
  let h := s.red.hand
  if h.st == .go then s
  else
    let waits := handWaits s
    let s := if waits then sysFinish 6 s else s
    if waits || h.st == .proposed || h.st == .streaming then setHand s { h with st := .cancelled, undo := none } else s

/-- ACTIVE and SOLO follow the partner's readiness at a FAST T0 (R78, R246); its loss cancels a handover (R275). -/
def followPartner (s : State) : State :=
  if s.mode == .solo && partnerReady s then enter .active .partner s
  else if s.mode == .active && !partnerReady s then enter .solo .partner (handCancel s)
  else s

/-- Every DI channel freezes the edges before a T0 (R63). -/
def freezeInputs (t0 : Int) (s : State) : State :=
  { s with io := { s.io with di := s.io.di.map fun x => freezeDi x t0 } }

/-- Local time at the edge minus the boundary, in ps (Table 16.1, src 5). -/
def jitterPs (s : State) (t0 : Int) : Int :=
  (now s - t0) * 1000 + ((s.time.a s.time.c % 2 ^ 40) * 1000 / 2 ^ 40 : Nat)

/-- CYCLE_START: at a FAST T0 the interval ends for the rings, inputs freeze, and each class due there starts (R59 to R64, R71, R73). A
switch or a change of the lanes' mode that is due at this T0 comes first (R217, R240). -/
def cycleStart (s : State) : State :=
  let p := (fastP s : Int)
  let t0 := now s / p * p
  if !executing s || !edgeAt s t0 then s
  else if (xchDue s t0 || laneDue s t0) && clsIdle s then s
  else
    let s := if xchDue s t0 then { s with xch := { s.xch with deferrals := min 255 (s.xch.deferrals + 1) } } else s
    let s := freezeInputs t0 (ringsInterval t0 (followPartner s))
    let s := recSample s 0x05 (jitterPs s t0)
    let first := match s.red.firstT0 with
      | some x => decide (x ≤ t0)
      | none => true
    if !first || s.retain.startWaits then s
    else
      let s := if s.red.hand.st == .streaming && cycleNo s .fast t0 == (s.red.hand.n + 1) % 2 ^ 32 then
          setRed s { s.red with hand := { s.red.hand with undo := some { prog := s.prog, lse := s.lse, cls := s.cls } } }
        else s
      startBackground t0 ([Cls.fast, .mid, .slow].foldl (startDue t0) s)

/-- A class of higher priority still has waves to evaluate (R65). -/
def higherBusy (s : State) (k : Cls) : Bool :=
  [Cls.fast, .mid, .slow].any fun j => decide (j.code < k.code) && (s.cls.get j).running && (s.cls.get j).waves != 0

/-- Evaluation units (R91). -/
def units (s : State) : Nat := if s.lane.split then 16 else 8

/-- The CORE clock of a wave at which each of its blocks ends: a unit evaluates its blocks one after another, each in the time of its row
(R91, R93). -/
def blockEnds (g : Image) (u : Nat) : Nat → List Nat → List Nat → List (Nat × Nat)
  | _, _, [] => []
  | i, busy, b :: l =>
    let e := busy.getD (i % u) 0 + g.cost b
    (b, e) :: blockEnds g u (i + 1) (busy.set (i % u) e) l

/-- The clock of a compared write of a wave. -/
def waveClk (g : Image) (u : Nat) (w : List Nat) : CmpWr → Nat :=
  let ends := blockEnds g u 0 (List.replicate u 0) w
  fun x => ((ends.find? fun p => p.1 == x.ref).map (·.2)).getD 0

/-- WAVE_EVALUATE: the next wave of a class, compared as it is written (R91, R226 to R233). -/
def waveEvaluate (k : Cls) (upsets : List Upset) (s : State) : State :=
  let c := s.cls.get k
  if !engRuns s || !c.running || c.waves = 0 || aiPending s k || higherBusy s k then s
  else
    let ws := s.img.waves k.code
    let w := (ws[ws.length - c.waves]?).getD []
    let r := evalList k (units s) 0 w (struck upsets s)
    let s := judgeWrites k (waveClk s.img (units s) w) upsets r.2 r.1
    setCls s k { s.cls.get k with waves := c.waves - 1 }

/-- STEP_SEQUENCER_RUN: after the last wave of a cycle the chains of the class run (R131). -/
def stepSequencerRun (k : Cls) (upsets : List Upset) (s : State) : State :=
  let c := s.cls.get k
  if !engRuns s || !c.running || c.waves != 0 || c.chainsDone || aiPending s k then s
  else
    let r := runChains k (struck upsets s)
    let s := judgeWrites k (fun _ => 0) upsets r.2 r.1
    setCls s k { s.cls.get k with chainsDone := true }

/-! ### The LSE's reads and compared writes (Table 9.1) -/

/-- Words as a little-endian number. -/
def wordsNum (l : List Word) : Nat := l.foldr (fun w a => w.toNat + 2 ^ 32 * a) 0

/-- A compared record write of the LSE at a Store word. -/
def lseWr (ref part at' : Nat) (l : List Word) : CmpWr :=
  { source := .lse, ref := ref, part := part, off := 4 * at', val := wordsNum l, len := 4 * l.length }

/-- The registers that step 7 publishes (R205). -/
def lsePubRegs (g : Image) : List Nat :=
  (g.masters.flatMap fun p => [Reg.LSE_M_STATE p.1, Reg.LSE_M_POS_LO p.1, Reg.LSE_M_POS_HI p.1, Reg.LSE_M_VEL_LO p.1, Reg.LSE_M_VEL_HI p.1,
    Reg.LSE_M_ACC_LO p.1, Reg.LSE_M_ACC_HI p.1]) ++
  (g.slaves.flatMap fun p => [Reg.LSE_S_STATE p.1, Reg.LSE_S_NUM p.1, Reg.LSE_S_DEN p.1, Reg.LSE_S_REM p.1, Reg.LSE_S_POS_LO p.1,
    Reg.LSE_S_POS_HI p.1, Reg.LSE_S_OFS_LO p.1, Reg.LSE_S_OFS_HI p.1, Reg.LSE_S_CMD_LO p.1, Reg.LSE_S_CMD_HI p.1, Reg.LSE_S_PHASE p.1,
    Reg.LSE_S_HELD p.1]) ++
  (g.regs.flatMap fun p => [Reg.LSE_R_STATE p.1, Reg.LSE_R_ERR_LO p.1, Reg.LSE_R_ERR_HI p.1, Reg.LSE_R_OFS_LO p.1, Reg.LSE_R_OFS_HI p.1]) ++
  g.cascades.flatMap fun p => Reg.LSE_C_STATE p.1 :: (List.range p.2.count).flatMap fun i => [Reg.LSE_C_FACT p.1 i, Reg.LSE_C_NEXT p.1 i]

/-- The record writes of an update that the lanes compare, in the order of Table 7.1: a master's record, a registration record with a new mark
(part 16 + record), a stand's schedule (part 3), a slave's record (part 0), its polynomial in staging (part 1), and the publication (ref 0, part
4). The ref is the axis (LANE_MM_REF). -/
def lseWrites (before s : State) : List CmpWr :=
  (s.img.masters.map fun p => lseWr (128 + p.1) 0 (masterWord + 64 * p.1) (encMaster (lseM s p.1))) ++
  ((s.img.regs.filter fun p => (lseR s p.1).last != (lseR before p.1).last).map fun p =>
    lseWr p.2.slave (16 + p.1) (regWord + 16 * p.1) (encReg (lseR s p.1))) ++
  ((s.img.cascades.flatMap fun p => p.2.stands).map fun i => lseWr (s.img.stand i).slave 3 (standWord + 8 * i) (encStand (lseT s i))) ++
  (s.img.slaves.flatMap fun p =>
    let x := lseS s p.1
    let poly := match x.staged with
      | some q => encPoly q
      | none => []
    [lseWr p.1 0 (slaveWord + 96 * p.1) (encSlave x), lseWr p.1 1 (slaveWord + 96 * p.1 + polyAt) poly]) ++
  [{ source := .lse, ref := 0, part := 4, off := 0, val := wordsNum ((lsePubRegs s.img).map (getR s)), len := 4 * (lsePubRegs s.img).length }]

/-- The Store ranges of the records that the LSE reads, each with its axis. -/
def lseRanges (g : Image) : List (Nat × Nat × Nat) :=
  (g.masters.map fun p => (128 + p.1, 4 * (masterWord + 64 * p.1), 4 * 64)) ++
  (g.regs.map fun p => (p.2.slave, 4 * (regWord + 16 * p.1), 4 * 16)) ++
  ((g.cascades.flatMap fun p => p.2.stands).map fun i => ((g.stand i).slave, 4 * (standWord + 8 * i), 4 * 8)) ++
  g.slaves.map fun p => (p.1, 4 * (slaveWord + 96 * p.1), 4 * 96)

/-- The LSE reads its records (R10, R403): of an uncorrectable word it has no usable data (its words are free), and the read is a mismatch of
kind ECC. -/
def lseReads (s : State) : State × List CmpWr :=
  let marks := s.ecc.cells.filter fun c => decide (slaveWord ≤ 2 * c.1) && decide (2 * c.1 < ovrWord) && decide (2 ≤ c.2.toNat)
  let s' := (lseRanges s.img).foldl (fun (a : State × List CmpWr) p =>
    let r := readRanges .lse p.1 0 7 [(p.2.1, p.2.2)] a.1
    (r.1, a.2 ++ r.2)) (s, [])
  let put := fun (s : State) (n : Nat) => lsePut n (BitVec.ofNat 32 (leNat ((List.range 4).map fun i => Config.freeByte s.freeCtr (4 * n + i)))) s
  (marks.foldl (fun s c => put (put s (2 * c.1)) (2 * c.1 + 1)) s'.1, s'.2)

/-- The records that the LSE has written hold good ECC. -/
def lseClean (s : State) : State := if s.ecc.cells.isEmpty then s else (lseRanges s.img).foldl (fun s p => eccClean p.2.1 p.2.2 s) s

/-- LSE_UPDATE: after the last FAST wave (R168). `ns` is its measured duration. -/
def lseUpdate (ns : Word) (upsets : List Upset) (s : State) : State :=
  let c := s.cls.fast
  if !engRuns s || !c.running || c.waves != 0 || c.lseDone || aiPending s .fast then s
  else
    let r := lseReads (struck upsets s)
    let t0 := c.lastT0.getD 0
    let s := lseRun { p := fastP s, n := c.lastNo.getD 0, orAt := t0 + fastP s + s.img.relofs 0, c := c.elapsed } ns r.1
    let s := judgeWrites .fast (fun _ => 0) upsets (r.2 ++ lseWrites r.1 s) (lseClean s)
    setCls s .fast { s.cls.fast with lseDone := true }

/-! ### COMPARE_TIMEOUT -/

/-- A compared write of an evaluation, as it stands in the Store: of a block, a chain or the LSE. -/
def cmpWrite (s : State) (k : Cls) (source : UpsetSource) (ref part : Nat) : Option CmpWr :=
  match source with
  | .output =>
    let e := s.img.blk ref
    match s.img.shape e, part with
    | some x, 0 => some { source := .output, ref := ref, off := imageBase + 4 * refIdx e.out0, val := viewRaw s k (refIdx e.out0) x.out0
                          q := viewQ s k (refIdx e.out0), word := some (refIdx e.out0) }
    | some x, _ => x.out1.map fun t => { source := .output, ref := ref, part := part, off := imageBase + 4 * refIdx e.out1
                                         val := viewRaw s k (refIdx e.out1) t, q := viewQ s k (refIdx e.out1), word := some (refIdx e.out1) }
    | none, _ => none
  | .state =>
    let e := s.img.blk ref
    (s.img.shape e).map fun x => { source := .state, ref := ref, off := slotBase + 16 * e.state, len := 16 * x.slots
                                   val := slotsNum ((List.range x.slots).map fun i => slotNum s (e.state + i)) }
  | .sequencer =>
    let c := chainRec (((s.img.recs 0x06 0)[ref]?).getD 0)
    (chainWrites s ref c (some (chainOf s ref).active)).find? fun w => w.part == part
  | .lse => (lseWrites s s).find? fun w => w.ref == ref && w.part == part

/-- COMPARE_TIMEOUT: a write of a lane whose match in the other lane has not arrived within 64 CORE clocks, or a write of lane B that finds no
write of lane A waiting (R228). What the lane that wrote nothing would have written is free. -/
def compareTimeout (k : Cls) (source : UpsetSource) (unit : Fin 8) (ref part : Nat) (laneB : Bool) (s : State) : State :=
  if comparing s && engRuns s && (s.cls.get k).running then
    match cmpWrite s k source ref part with
    | none => s
    | some w =>
      let v := BitVec.ofNat 64 w.val
      let n := s.freeCtr
      takeFree (judgeMis { kind := 5, src := srcCode source, ref := ref, cls := k, unit := unit, off := w.off
                           a := if laneB then Config.laneValue n false else v, b := if laneB then v else Config.laneValue n true
                           qa := if laneB then Config.laneQuality n false else w.q, qb := if laneB then w.q else Config.laneQuality n true
                           obs := true } s)
  else s

/-- CYCLE_COMPLETE: the last wave is compared, the chains have run and, for FAST, the LSE is done (R66). A cycle that ran on past its OC is
discarded (R73). -/
def cycleComplete (k : Cls) (s : State) : State :=
  let c := s.cls.get k
  let chains := c.chainsDone || (s.img.clsChains k.code).isEmpty
  if !engRuns s || !c.running || c.waves != 0 || !chains || (k == .fast && !c.lseDone) then s
  else
    let d := (now s - c.lastT0.getD 0).toNat
    let s := setR s (Reg.ENG_CLS_LAST k.code) (BitVec.ofNat 32 d)
    let m := (getR s (Reg.ENG_CLS_MAX k.code)).toNat
    let s := setR s (Reg.ENG_CLS_MAX k.code) (BitVec.ofNat 32 (max m d))
    let s := recSample s (k.code + 1) d
    setCls s k { c with running := false, late := false, complete := !c.late }

/-- The next `n` cycles of a class overrun, in place of every count still pending (R75). -/
def injectOnly (k : Cls) (n : Nat) (s : State) : State :=
  [Cls.fast, .mid, .slow].foldl (fun (s : State) j => setCls s j { s.cls.get j with inject := if j = k then n else 0 }) s

/-- ENG_INJECT (R75). -/
def engInject (v : Word) (s : State) : State :=
  let n := Reg.ENG_INJECT_count.get v
  if !secOpen s || !executing s then s
  else match Reg.ENG_INJECT_class.get v with
    | 0 => injectOnly .fast n s
    | 1 => injectOnly .mid n s
    | 2 => injectOnly .slow n s
    | _ => s

/-- ENG_STATUS. -/
def engStatus (s : State) : Word :=
  let m := fun (f : Cls → Bool) => b2n (f .fast) + 2 * b2n (f .mid) + 4 * b2n (f .slow) + 8 * b2n (f .background)
  Reg.ENG_STATUS_running.mk' (m fun k => (s.cls.get k).running) ||| Reg.ENG_STATUS_present.mk' (m fun k => s.img.hasCls k.code) |||
  Reg.ENG_STATUS_executing.mk' (b2n (executing s))

end Sys2Proof.Machine
end

