-- ==== Sys2Proof/Machine/Commit.lean ====
section
/-!
DEFINITION. Output commit and release (R67 to R74, R80, R81, R150, R158 to R160, R229, R234 to R236, R263, R264, R290): vectors to their sinks,
overruns and the watchdog, lane faults, deferred commands, resignation, and what a release does.
-/
namespace Sys2Proof.Machine

/-! ### Completion of commands that wait -/


/-- A `REVERT` completes, for the master that gave it here. -/
def revertDone (m : Option Master) (status : Nat) (s : State) : State :=
  match m with
  | some m => cmdDone s m Reg.XCH_CMD_STATUS 2 status
  | none => s

/-- A waiting `REVERT` is cancelled, and the exchange is UNCONFIRMED again (R223, R236). -/
def revertCancel (s : State) : State :=
  match s.xch.revert with
  | some p => revertDone p.1 6 { s with xch := { s.xch with revert := none, st := .unconfirmed } }
  | none => s

/-- The engine halts: no cycle goes on, deferred commands are cancelled, a delta whose latch deadline has passed is not switched in (R217),
and a HALT capture starts (R137). -/
def haltEngine (s : State) : State :=
  let s := if (pubWaits s).isEmpty then s else pubAdd 1 s
  let stop := fun (c : ClassRun) =>
    ({ c with running := false, waves := 0, chainsDone := false, lseDone := false, complete := false, late := false, inject := 0
              injected := false, skipT0 := none, orAt := none } : ClassRun)
  let s := { s with cls := ⟨stop s.cls.fast, stop s.cls.mid, stop s.cls.slow, stop s.cls.background⟩ }
  let s := revertCancel (handCancel (lanePendCancel s))
  let s := setLane s { s.lane with fault := none, lost := PerCls.all none, inject := none }
  let s := masters.foldl (fun (s : State) m =>
    let x := s.txn.get m
    if x.st == .pending && x.image && x.delta && latchPassed s x then txnAbort m s else s) s
  retHalt s

/-! ### Vectors to their sinks (R158) -/

/-- Bytes written into a payload of a length. -/
def putBytes (l : List Byte) (len off : Nat) (b : List Byte) : List Byte :=
  let l := l ++ List.replicate (len - l.length) 0
  (l.take off ++ b ++ l.drop (off + b.length)).take len

/-- The value that an output entry hands over: its class's own words as the cycle left them, other words as published (R150, R163). -/
def outWord (s : State) (k : Cls) (n : Nat) : Word :=
  if (s.img.clsWrites k.code).contains n then (s.prog.view.get k).w.get n else s.prog.pub.w.get n

def outQual (s : State) (k : Cls) (n : Nat) : Byte :=
  if (s.img.clsWrites k.code).contains n then (s.prog.view.get k).q.get n else s.prog.pub.q.get n

/-- Load a DO or AO shadow for the release of a class. -/
def loadShadow (k : Cls) (kind unit : Nat) (w : Word) (s : State) : State :=
  if kind = 7 then
    if h : unit - 32 < 32 then
      setDo s ⟨unit - 32, h⟩ { s.io.dout[unit - 32] with shadow := some (w != 0, k) }
    else s
  else if h : unit < 8 then setAo s ⟨unit, h⟩ { s.io.ao[unit] with shadow := some (w, k) }
  else s

/-- Local DO and AO of the entries that `p` selects. -/
def commitLocal (k : Cls) (p : SmtEnt → Bool) (val : Nat → Word) (s : State) : State :=
  (s.img.smtOut.filter fun e => (e.kind == 7 || e.kind == 9) && p e).foldl (fun (s : State) e =>
    (List.range e.cnt).foldl (fun (s : State) j => loadShadow k e.kind (e.unit + j) (val (e.sig + j)) s) s) s

/-- The axes whose polynomials a segment carries, with their places (R190). -/
def Image.segAxes (g : Image) (i : Nat) : List (Nat × SlaveRec) := g.slaves.filter fun p => p.2.segment == i

/-- Downlink segments: words of the entries that `ok` lets through, and the newest polynomials; fresh (R158, R190, R290). -/
def commitFeger (p : Nat → Bool) (ok : SmtEnt → Bool) (val : Nat → Word) (stop : Bool) (s : State) : State :=
  (s.img.fsegs.filter fun f => f.2.down && p f.1).foldl (fun (s : State) f =>
    let len := 4 * f.2.words
    let d := (s.img.smtOut.filter fun e => e.kind == 0 && e.unit == f.1 && ok e).foldl (fun d e =>
      (List.range e.cnt).foldl (fun d j => putBytes d len (4 * (e.offset + j)) (beBytes 4 (val (e.sig + j)).toNat)) d) (segOf s f.1).data
    let d := (s.img.segAxes f.1).foldl (fun d a =>
      match (lseS s a.1).polys with
      | q :: _ => putBytes d len (4 * a.2.word) (polyBytes q stop)
      | [] => d) (putBytes d len 0 [])
    setFgr s { s.fgr with segs := Tab.put s.fgr.segs f.1 { data := d, fresh := true } }) s

/-- The class of a CAN message: that of its output entries (R150), and FAST for one without any (R325). -/
def Image.msgCls (g : Image) (n : Nat) : Nat :=
  match g.smtOut.find? fun e => e.kind == 2 && e.unit == n with
  | some e => g.entCls e
  | none => 0

/-- The payload of a transmit message. -/
def canPayload (s : State) (n : Nat) (m : CanMsg) (val : Nat → Word) : List Byte :=
  (s.img.smtOut.filter fun e => e.kind == 2 && e.unit == n).foldl (fun d e =>
    (List.range e.cnt).foldl (fun d j => putBytes d m.len (4 * (e.offset + j)) (leBytes 4 (val (e.sig + j)).toNat)) d)
    (List.replicate m.len 0)

/-- Transmit messages of a class go to their buffers: the window opens at OR + time, and the frame must end before the next OC of the class
(R158, R328). -/
def commitCan (p : Nat → Bool) (val : Nat → Word) (orAt bound : Int) (s : State) : State :=
  (List.finRange 16).foldl (fun (s : State) (u : Fin 16) =>
    ((s.img.canTx u).zipIdx).foldl (fun (s : State) q =>
      let n := q.1.1
      let m := q.1.2
      if h : q.2 + 1 < 32 then
        if p n then
          let f : CanFrame := { id := BitVec.ofNat 29 m.id, ide := m.ide, rtr := false, fdf := m.fdf, brs := m.brs
                                esi := m.fdf && s.can[u].st == .errorPassive
                                dlc := BitVec.ofNat 4 (lenDlc m.len), data := canPayload s n m val }
          canCommit u ⟨q.2 + 1, h⟩ f (orAt + m.time) bound s
        else s
      else s) s) s

/-- The state of a class's blocks and chains as the committed cycle left it (R137, R255). -/
def commitState (k : Cls) (s : State) : State :=
  let g := s.img
  let sl := (g.clsBlocks k.code).foldl (fun m b =>
    let e := g.blk b
    match g.shape e with
    | some x => stBytes m (16 * e.state) (ldBytes s.prog.slots (16 * e.state) (16 * x.slots))
    | none => m) s.prog.cslots
  let ch := (g.clsChains k.code).foldl (fun t p => Tab.put t p.1 (chainOf s p.1)) s.prog.cchain
  setProg s { s.prog with cslots := sl, cchain := ch }

/-- Publish what a class writes (R67, R143); a word stays that the window shows forced (R162), and one that the cycle left alone as forced (R163). -/
def publishCls (k : Cls) (s : State) : State :=
  let forced := fun (n : Nat) => (s.prog.winOvr ++ s.prog.ovr.get k).any fun o => !o.sim && (o.sig == n || (o.sig + 1 == n && !s.img.sigLow n))
  let l := s.img.clsWrites k.code
  let s := pubAdd 2 (setProg s { s.prog with pub := copyWords (l.filter fun n => !forced n) (s.prog.view.get k) s.prog.pub })
  sampleWords s.prog.pub l.contains s

/-- The OR of a class's cycle that ends at `tEnd` (R69); BACKGROUND takes FAST's (R71). -/
def clsOr (s : State) (k : Cls) (tEnd : Int) : Int := tEnd + s.img.relofs (if k = .background then 0 else k.code)

/-- The output entries of a class whose words the ART refuses to the commit unit (R408): they hand nothing over (notes/assumptions/61.md). -/
def barredEnts (k : Cls) (s : State) : State × List SmtEnt :=
  if ruled s 8 then
    (s.img.smtOut.filter fun e => s.img.entCls e == k.code).foldl (fun (p : State × List SmtEnt) e =>
      match unitAccess 8 8 .read (imageBase + 4 * e.sig) (4 * e.words) p.1 with
      | (s, true) => (s, e :: p.2)
      | (s, false) => (s, p.2)) (s, [])
  else (s, [])

/-- The commit of one class at an OC (R68, R158): `tEnd` is the end of its cycle. -/
def commitCls (tEnd : Int) (s : State) (k : Cls) : State :=
  let c := s.cls.get k
  let s := setCls s k { c with
    complete := false, orAt := some (clsOr s k tEnd), comT0 := c.lastT0, comNo := c.lastNo.getD 0 }
  let s := if k = .fast then (fun (s : State) => { s with cLse := s.lse }) (lseCommit s) else s
  let b := barredEnts k (commitState k (publishCls k s))
  let s := b.1
  let val := outWord s k
  let ok := fun (e : SmtEnt) => !b.2.contains e
  let s := commitLocal k (fun e => s.img.entCls e == k.code && ok e) val s
  let s := commitFeger (fun i => s.img.segCls i == k.code) ok val false s
  let bound := tEnd + s.img.period (if k = .background then 0 else k.code) - 8000
  commitCan (fun n => s.img.msgCls n == k.code && !(b.2.any fun e => e.kind == 2 && e.unit == n)) val (clsOr s k tEnd) bound s

/-- The header of the downlink set of the FAST cycle that ends at `tEnd` (Table 11.3, Table 11.7). -/
def setDownlink (tEnd relMid relSlow : Int) (safe : Bool) (s : State) : State :=
  setFgr s { s.fgr with
    cycle := unsgn 32 (tEnd / (fastP s : Int) - 1), release := tEnd + s.img.relofs 0, relMid := relMid, relSlow := relSlow
    safeSet := safe, haveSet := true, sent := [], oldSet := none }

/-- No segment is fresh when a new set begins. -/
def staleSegs (s : State) : State := setFgr s { s.fgr with segs := s.fgr.segs.map fun p => (p.1, { p.2 with fresh := false }) }

/-- The safe values of the local DO and AO go to their shadows, whatever the override entries say (R160). -/
def safeLocal (s : State) : State := commitLocal .fast (fun _ => true) s.img.safeWord s

/-- The safe-value vector is committed in place of every class's vector (R74, R160, R290). -/
def safeCommit (tEnd : Int) (s : State) : State :=
  let g := s.img
  let s := safeLocal (staleSegs s)
  let s := commitFeger (fun _ => true) (fun _ => true) g.safeWord true s
  let fastOr := tEnd + g.relofs 0
  let s := commitCan (fun _ => true) g.safeWord fastOr (tEnd + fastP s - 8000) s
  let due := fun (k : Nat) => if g.hasCls k then fastOr else 0
  setDownlink tEnd (due 1) (due 2) true s

/-- The release at the OR of the FAST cycle that ends at `tEnd`. -/
def fastRelease (tEnd : Int) (s : State) : State :=
  setCls s .fast { s.cls.fast with orAt := some (tEnd + s.img.relofs 0) }

/-! ### Leaving the line -/

/-- The module resigns (R264): RELEASE with its cause on both Tether lanes and on every ring port. -/
def resign (cause : Nat) (s : State) : State :=
  let s := tetherBoth 8 (fastNo s) [BitVec.ofNat 8 cause] s
  let s := sendRings 4 (ownId s) s.red.epoch (fastNo s) [BitVec.ofNat 8 cause, 0, 0, 0] s
  satAdd { s with owner := false } Reg.RED_EVENTS Reg.RED_EVENTS_resigned 1

/-- SAFE with the safe-value vector: watchdog trip, deferred `SAFE`, lane fault with SOLO policy SAFE (R74, R80, R234). -/
def safeTrip (tEnd : Int) (cause : Cause) (mayResign : Bool) (s : State) : State :=
  let was := s.mode == .active
  let s := fastRelease tEnd (haltEngine (safeCommit tEnd s))
  let s := enter .safe cause s
  if mayResign && was then resign cause.code s else s

/-- SAFE with nothing committed: local outputs take safe values at the OR, and the module is no longer owner (R234, R263). -/
def safeLeave (tEnd : Int) (cause : Cause) (s : State) : State :=
  let s := fastRelease tEnd (haltEngine (safeLocal s))
  enter .safe cause s

/-- A newer pair was seen: SAFE with cause SUPERSEDED, and nothing is committed (R263). -/
def supersede (tEnd : Int) (s : State) : State :=
  let s := sysFinish 6 s
  let s := safeLeave tEnd .superseded (setRed s { s.red with newer := false })
  let s := redAlarm Reg.RED_ALARM_superseded { s with owner := false }
  recEvent (satAdd s Reg.RED_EVENTS Reg.RED_EVENTS_superseded 1) 0x0013 s.red.seenPair.1 3

/-! ### Overruns and the watchdog (R72 to R75) -/

def ovrFlag : Cls → Fld
  | .fast => Reg.ENG_OVR_STATUS_ovr_fast | .mid => Reg.ENG_OVR_STATUS_ovr_mid | _ => Reg.ENG_OVR_STATUS_ovr_slow
def consecFld : Cls → Fld
  | .fast => Reg.ENG_OVR_STATUS_consec_fast | .mid => Reg.ENG_OVR_STATUS_consec_mid | _ => Reg.ENG_OVR_STATUS_consec_slow

/-- What an OC finds of a class. -/
inductive OcCase where
  | notDue | commits | lost | overruns
  deriving DecidableEq, Repr

/-- The class has a cycle whose OC is still to come: one that is complete, or one that runs and has not passed its OC. -/
def clsOpen (c : ClassRun) : Bool := c.complete || (c.running && !c.late)

/-- The end T0 + P of a class's open cycle where its OC has come by the OC that lies 8 µs before `due`, else `due`. An OC that a step of
time passes over acts at the edge of the step (notes/assumptions/36.md). -/
def clsEnd (s : State) (due : Int) (k : Cls) : Int :=
  let c := s.cls.get k
  match c.lastT0 with
  | some t => if clsOpen c && decide (t + s.img.period k.code ≤ due) then t + s.img.period k.code else due
  | none => due

/-- The case of a class at the OC 8 µs before `due` (R72, R73, R75, R234). -/
def ocCase (s : State) (due : Int) (k : Cls) : OcCase :=
  let c := s.cls.get k
  let p : Int := s.img.period k.code
  if !s.img.hasCls k.code then .notDue
  else match c.skipT0 with
    | some t => if t + p ≤ due then .overruns else .notDue
    | none => match c.lastT0 with
      | none => .notDue
      | some t =>
        if !clsOpen c || decide (due < t + p) then .notDue
        else if s.lane.lost.get k == some t then .lost
        else if c.complete && !c.injected then .commits
        else .overruns

/-- An overrun of a class at its OC (R72, R73). -/
def overrun (s : State) (k : Cls) : State :=
  let c := s.cls.get k
  let skipped := c.skipT0.isSome
  let s := setB s Reg.ENG_OVR_STATUS (ovrFlag k) true
  let s := satAdd s Reg.ENG_OVR_STATUS (consecFld k) 1
  let s := satAdd s (Reg.ENG_CLS_OVR k.code) Reg.ENG_CLS_OVR_overruns 1
  let s := if skipped then satAdd s (Reg.ENG_CLS_OVR k.code) Reg.ENG_CLS_OVR_ovr_skips 1 else s
  let s := recEvent s 0x0002 k.code 1
  setCls s k { c with skipT0 := none, complete := false, injected := false, late := c.running }

def three : List Cls := [.fast, .mid, .slow]

/-- The fastest class whose consecutive count has reached the limit (R74). A limit that was lowered to a standing count trips at the next FAST
OC, before a cycle that this OC would commit clears the count (notes/assumptions/79.md). -/
def tripped (s : State) : Option Cls :=
  let limit := max 1 (getF s Reg.ENG_CTRL Reg.ENG_CTRL_ovr_limit)
  three.find? fun k => decide (limit ≤ getF s Reg.ENG_OVR_STATUS (consecFld k))

/-- The cycle watchdog trips (R74, R236). -/
def watchdogTrip (tEnd : Int) (k : Cls) (s : State) : State :=
  let s := sysFinish 6 s
  let s := safeTrip tEnd .watchdog true s
  let s := setF (setB s Reg.ENG_OVR_STATUS Reg.ENG_OVR_STATUS_wd_trip true) Reg.ENG_OVR_STATUS Reg.ENG_OVR_STATUS_wd_class k.code
  recEvent s 0x0003 k.code 3

/-! ### Lane faults at the OC (R234 to R237) -/

/-- The bytes of a class's output vector: value and quality of every element in SMT order (R158, Table 9.1). -/
def vectorBytes (s : State) (k : Cls) : List Byte :=
  ((s.img.smtOut.filter fun e => s.img.entCls e == k.code).flatMap fun e => (List.range e.words).map (e.sig + ·)).flatMap fun n =>
    leBytes 4 (outWord s k n).toNat ++ [outQual s k n]

/-- The output CRCs of classes that commit differ between the lanes: SIGNATURE (R229). -/
def signature (ks : List Cls) (s : State) : State :=
  ks.foldl (fun (s : State) k =>
    let a := crc32c (vectorBytes s k)
    laneFault { kind := 6, src := 4, ref := 0, cls := k, unit := 0, off := 0, a := a.setWidth 64, b := (Config.laneCrc a).setWidth 64, qa := 0
                qb := 0, obs := true } 6 s) s

/-- CONTINUE: lane B goes off, or after an ECC fault in split mode stays, and the classes of the faults lose their commits (R234, R235,
R237). -/
def laneContinue (f : LaneFault) (s : State) : State :=
  let lost := f.classes.foldl (fun (l : PerCls (Option Int)) c => l.set c.1 (some c.2)) s.lane.lost
  setLane s { s.lane with fault := none, lost := lost, bOff := s.lane.bOff || !f.splitEcc }

/-- A class whose cycle has lost its commit at its OC. -/
def loseCommit (s : State) (k : Cls) : State :=
  let c := s.cls.get k
  setLane (setCls s k { c with complete := false, injected := false, late := c.running }) { s.lane with lost := s.lane.lost.set k none }

/-! ### The OC -/

/-- The OC at or before now. -/
def ocOf (s : State) : Int := (now s + 8000) / (fastP s : Int) * (fastP s : Int) - 8000

/-- Commits of the classes, the downlink set, the checkpoint capture and the journal (R68, R71, R137, R255, R290), at the OC 8 µs before
`due`; the FAST cycle ends at `tEnd`. Without `bg` a complete BACKGROUND pass waits for the next OC. -/
def commitAll (due tEnd : Int) (ks : List Cls) (bg : Bool) (s : State) : State :=
  let s := staleSegs s
  let rel := fun (k : Cls) => if ks.contains k then clsOr s k (clsEnd s due k) else 0
  let relMid := rel .mid
  let relSlow := rel .slow
  let s := ks.foldl (fun (s : State) k => setF (commitCls (clsEnd s due k) s k) Reg.ENG_OVR_STATUS (consecFld k) 0) s
  let s := if !s.cls.background.complete || !bg then s
    else if s.lane.lost.background.isSome && s.lane.lost.background == s.cls.background.lastT0 then loseCommit s .background
    else commitCls tEnd s .background
  let s := if s.cls.fast.lastT0.isSome then setDownlink tEnd relMid relSlow false s else s
  let s := setProg s { s.prog with ocPub := some s.prog.pub }
  let s := setRed s { s.red with isoCommitted := s.isolated && (s.red.isoCommitted || !ks.isEmpty) }
  let n := cycleNo s .fast (tEnd - fastP s)
  let s := ckCapture n s
  let s := if s.red.hand.st == .proposed && s.red.hand.n == n then setHand s { s.red.hand with st := .streaming } else s
  if tEnd % (max 1 (slowPeriod s.img) : Nat) == 0 then retJournal s else s

/-- A deferred `SAFE` or `STOP` at the OC (R80, R81). A `STOP` accepted in SOLO acts also where the module has become ACTIVE since
(notes/assumptions/80.md). -/
def deferredAct (tEnd : Int) (c : SysCmd) (s : State) : State :=
  match c with
  | .safe => sysFinish 0 (safeTrip tEnd .command true s)
  | .stop =>
    let s := fastRelease tEnd (haltEngine (safeCommit tEnd s))
    let s := enter .hold .command { s with untilOr := true }
    sysFinish 0 (setB s Reg.ENG_OVR_STATUS Reg.ENG_OVR_STATUS_wd_trip false)
  | .handover => s

/-- A module command acts at this OC. -/
def deferredDue (s : State) : Option SysCmd :=
  match s.sysPend with
  | some p => if p.cmd == .handover then none else some p.cmd
  | none => none

/-- A lane fault that waits acts at this OC (R234). -/
def laneFaultAct (tEnd : Int) (f : LaneFault) (s : State) : State :=
  let s := revertCancel (handCancel (lanePendCancel (sysFinish 6 s)))
  if f.ready then
    let s := safeLeave tEnd .laneFault s
    resign Cause.laneFault.code s
  else safeTrip tEnd .laneFault false s

/-- The OC 8 µs before `due` of an executing module that goes on as owner of its cycle. -/
def ocOrdinary (due : Int) (crcUpset : List Cls) (s : State) : State :=
  let tEnd := clsEnd s due .fast
  let runs := three.filter fun k => ocCase s due k == .overruns
  let good := three.filter fun k => ocCase s due k == .commits
  let lost := three.filter fun k => ocCase s due k == .lost
  let s := lost.foldl loseCommit (runs.foldl overrun s)
  match tripped s with
  | some k => watchdogTrip tEnd k s
  | none =>
    let bg : List Cls := if s.cls.background.complete then [.background] else []
    let bad := if comparing s then (good ++ bg).filter crcUpset.contains else []
    let s := signature bad s
    let policySafe := flag s Reg.LANE_CFG Reg.LANE_CFG_solo_policy
    match s.lane.fault with
    | some f =>
      if f.ready || policySafe then laneFaultAct tEnd f s
      else
        let s := laneContinue f (revertCancel (handCancel (lanePendCancel (sysFinish 6 s))))
        let gone := good.filter fun k => ocCase s due k == .lost || !bad.isEmpty
        commitAll due tEnd (good.filter fun k => !gone.contains k) (bad.isEmpty || bad.contains .background) (gone.foldl loseCommit s)
    | none =>
      match deferredDue s with
      | some c => deferredAct tEnd c s
      | none => commitAll due tEnd good true s

/-! ### Shadows to their stages, and SAFE without an OC (R80, R159, R160) -/

/-- Loaded shadows of a class go to their output stages. -/
def releaseCls (s : State) (k : Cls) : State :=
  let mine := fun (α : Type) (x : Option (α × Cls)) => match x with
    | some (v, j) => if j = k then some v else none
    | none => none
  let dout := s.io.dout.map fun x => match mine Bool x.shadow with
    | some v => { x with cmd := v, shadow := none }
    | none => x
  let ao := s.io.ao.map fun x => match mine Word x.shadow with
    | some v => { x with cmd := v, released := true, shadow := none }
    | none => x
  setCls { s with io := { s.io with dout := dout, ao := ao } } k { s.cls.get k with orAt := none }

/-- Nothing waits for a release, and no AO has been released: each sources 0 mA (R354). A DO keeps its commanded value (R349). -/
def outputsNew (s : State) : State :=
  let dout := s.io.dout.map fun x => ({ x with shadow := none } : DoCh)
  let ao := s.io.ao.map fun x => ({ x with cmd := 0, released := false, shadow := none } : AoCh)
  { s with io := { s.io with dout := dout, ao := ao } }

/-- `SAFE` in a state in which the engine is halted: the local outputs take their safe values at once, and the module owns nothing. -/
def safeNow (s : State) : State :=
  let s := releaseCls (safeLocal (outputsNew { s with owner := false, untilOr := false })) .fast
  enter .safe .command s

/-! ### Planned handover at the OC (R274, R275) -/

/-- The module takes a new epoch and owns the line (R261). An epoch has 32 bits and 0 is never claimed: the highest one is taken again
(notes/assumptions/89.md). -/
def takeEpoch (s : State) : State :=
  let e := min 0xFFFFFFFF (max s.bal.epoch (getF s Reg.RED_EPOCH_SEEN Reg.RED_EPOCH_SEEN_value) + 1)
  setRed { s with owner := true, bal := { s.bal with epoch := e } } { s.red with epoch := e, newer := false }

/-- The old active after GO: it commits nothing and enters STANDBY, holding delta N (R274 step 4). A `SAFE` that waits acts from there. -/
def handLeave (s : State) : State :=
  let h := s.red.hand
  let safe := deferredDue s == some SysCmd.safe
  let s := haltEngine (setHand (sysFinish 0 s) { h with st := .done, undo := none })
  let s := enter .standby .handover { s with owner := false, untilOr := true }
  let s := setRed s { s.red with
    ckAt := some h.n, ckImage := s.img.id, ckLast := lastNos s, ckXch := ckXchOf s, outDelta := none, unacked := [], lagging := false, resyncLeft := 0
    partner := { s.red.partner with image := s.img.id, exec := true } }
  let s := satAdd s Reg.RED_EVENTS Reg.RED_EVENTS_handovers 1
  if safe then safeNow s else s

/-- The new active at OC(N + 1): ACTIVE with a new epoch (R274 step 4). -/
def handEnter (s : State) : State :=
  let s := takeEpoch s
  let s := setRed s { s.red with hand := { s.red.hand with st := .done, taking := false }, outDelta := none }
  let s := inheritXch s
  satAdd (enter .active .handover s) Reg.RED_EVENTS Reg.RED_EVENTS_handovers 1

/-- No GO had come when the active commits N + 1 (R275). -/
def goLost (n : Nat) (s : State) : State :=
  if s.red.hand.st == .streaming && n == (s.red.hand.n + 1) % 2 ^ 32 then
    redAlarm Reg.RED_ALARM_go_lost (setHand s { s.red.hand with undo := none, st := .done })
  else s

/-- OUTPUT_COMMIT: the FAST OC at or before now, once (R68). -/
def outputCommit (crcUpset : List Cls) (s : State) : State :=
  let oc := ocOf s
  let due := oc + 8000
  let tEnd := clsEnd s due .fast
  let fresh := match s.lastOc with
    | some x => decide (x < oc)
    | none => true
  if !loaded s || !fresh then s
  else if engRuns s then
    let s := { s with lastOc := some oc }
    let n := cycleNo s .fast (tEnd - fastP s)
    if s.red.hand.taking then ocOrdinary due crcUpset (handEnter s)
    else if s.red.hand.st == .go then handLeave s
    else if s.red.newer then supersede tEnd s
    else ocOrdinary due crcUpset (goLost n s)
  else if s.mode == .safe && s.owner then
    setDownlink tEnd 0 0 true (staleSegs { s with lastOc := some oc })
  else s

/-! ### Release (R159, R269, R349) -/

/-- The last FAST OR at or before now; every base tick is one while no image is loaded. -/
def fastOrOf (s : State) : Int :=
  if loaded s then (now s - s.img.relofs 0) / (fastP s : Int) * (fastP s : Int) + s.img.relofs 0
  else now s / 31250 * 31250

/-- What every FAST OR brings: DIO groups that wait for one, PAR_OFF, and the end of outputs that stood until it. -/
def atFastOr (s : State) : State :=
  let s := grpsAtFastOr s
  let owner := s.owner && (executing s || s.mode == .safe)
  { s with owner := owner, parHeld := !owner || (s.isolated && s.red.isoCommitted), untilOr := false }

/-- OUTPUT_RELEASE: at an OR the committed vectors of its classes are released (R159). -/
def outputRelease (s : State) : State :=
  let due := fun (k : Cls) => match (s.cls.get k).orAt with
    | some x => decide (x ≤ now s)
    | none => false
  let s := ([Cls.fast, .mid, .slow, .background].filter due).foldl releaseCls s
  if edgeAt s (fastOrOf s) then atFastOr s else s

end Sys2Proof.Machine
end

