-- ==== Sys2Proof/Machine/Clk.lean ====
section
/-!
DEFINITION. Clocks (chapter "Clocks from the Rack, Gating and Power"): the judge of the rack lanes, the REF selection, PLL0 holdover,
dividers and their ramps, clock gates; and the samples of the supplies.
-/
namespace Sys2Proof.Machine

/-! ### The judge (R364 to R366) -/

/-- A count within ±0.01 % of nominal (R364). -/
def inRange (n : Nat) : Bool := decide (152573 ≤ n) && decide (n ≤ 152603)

/-- Counts that differ by at most 7. -/
def agree (a b : Nat) : Bool := decide (a ≤ b + 7) && decide (b ≤ a + 7)

/-- A lane after a window (Table 15.1). -/
def laneWindow (x : RefLane) (n : Nat) (pass : Bool) : RefLane :=
  let run := if pass then min 255 (x.run + 1) else 0
  match x.st with
  | .down => x
  | .judging => { x with count := n, run := run, st := if 3 ≤ run then .good else .judging, goodWin := 0 }
  | .good => { x with count := n, run := run, st := if pass then .good else .suspect, goodWin := if pass then min 255 (x.goodWin + 1) else 0 }
  | .suspect => { x with count := n, run := run, st := if 3 ≤ run then .good else .suspect, goodWin := 0 }

/-- The preferred lane, none with pref 2 or 3 (CLK_REF_CFG). -/
def prefLane (s : State) : Option Bool :=
  match getF s Reg.CLK_REF_CFG Reg.CLK_REF_CFG_pref with
  | 0 => some false | 1 => some true | _ => none

def refLane (k : Clocks) (b : Bool) : RefLane := if b then k.b else k.a

/-- Rules 2 and 3 of R366 at the end of a window. -/
def windowSwitch (s : State) (k : Clocks) : Option (Bool × Bool) :=
  let sel := refLane k k.selB
  let other := refLane k (!k.selB)
  if sel.st = .suspect ∧ other.st = .good then some (!k.selB, false)
  else match prefLane s with
    | some p => if p != k.selB && (refLane k p).st == .good && decide (16 ≤ (refLane k p).goodWin) then some (p, false) else k.pendSel
    | none => k.pendSel

/-- JUDGE_WINDOW_END: each lane that is not DOWN passes or fails the window, then the selection rules apply (R364 to R366). -/
def judgeWindow (countA countB : Nat) (s : State) : State :=
  let k := s.clk
  let aUp := k.a.st != .down
  let bUp := k.b.st != .down
  let close := agree countA countB
  let passA := inRange countA && (!bUp || close)
  let passB := inRange countB && (!aUp || close)
  let s := if aUp && bUp && inRange countA && inRange countB && !close then
      setB s Reg.CLK_REF_ALARM Reg.CLK_REF_ALARM_disagree true else s
  let k1 := { k with a := laneWindow k.a countA passA, b := laneWindow k.b countB passB }
  { s with clk := { k1 with pendSel := if s.held then none else windowSwitch s k1 } }

/-- REF_FAST_LOSS: the lane is DOWN at once; rule 1 of R366 turns to the other lane when it is GOOD or SUSPECT. -/
def refFastLoss (laneB : Bool) (s : State) : State :=
  let k := s.clk
  let k1 := if laneB then { k with b := {} } else { k with a := {} }
  let s := setB s Reg.CLK_REF_ALARM (if laneB then Reg.CLK_REF_ALARM_lost_b else Reg.CLK_REF_ALARM_lost_a) true
  let other := refLane k1 (!laneB)
  if k.selB = laneB ∧ (other.st = .good ∨ other.st = .suspect) then
    let s := if other.st = .suspect then setB s Reg.CLK_REF_ALARM Reg.CLK_REF_ALARM_suspect_used true else s
    { s with clk := { k1 with pendSel := some (!laneB, true) } }
  else { s with clk := k1 }

/-- REF_LOCK_REGAINED: a DOWN lane enters JUDGING (Table 15.1). -/
def refLockRegained (laneB : Bool) (s : State) : State :=
  let k := s.clk
  if (refLane k laneB).st = .down then
    let x : RefLane := { st := .judging }
    { s with clk := if laneB then { k with b := x } else { k with a := x } }
  else s

/-- REF_SWITCH: the multiplexer makes the decided switch and it is counted (R366, R367). -/
def refSwitch (s : State) : State :=
  match s.clk.pendSel with
  | none => s
  | some (b, forced) =>
    let s := satAdd s Reg.CLK_SWITCH_CNT Reg.CLK_SWITCH_CNT_switches 1
    let s := if forced then satAdd s Reg.CLK_SWITCH_CNT Reg.CLK_SWITCH_CNT_forced 1 else s
    { s with clk := { s.clk with selB := b, pendSel := none } }

/-- PLL0_HOLDOVER: PLL0 has missed 2 REF edges; PLL1 follows REF in the same way (R368). -/
def pll0Holdover (s : State) : State :=
  if s.clk.holdAt.isSome then s
  else setB { s with clk := { s.clk with holdAt := some s.time.c, pll0 := false, pll1 := false } }
    Reg.CLK_REF_ALARM Reg.CLK_REF_ALARM_holdover true

/-- PLL0_RELOCK: REF edges have returned (R368). -/
def pll0Relock (s : State) : State :=
  if s.clk.holdAt.isSome then { s with clk := { s.clk with holdAt := none, pll0 := true, pll1 := true } } else s

/-- CLK_REF_STATUS. -/
def refStatus (s : State) : Word :=
  let k := s.clk
  Reg.CLK_REF_STATUS_pll1_lock.mk' (b2n k.pll1) ||| Reg.CLK_REF_STATUS_holdover.mk' (b2n k.holdAt.isSome) |||
  Reg.CLK_REF_STATUS_pll0_lock.mk' (b2n k.pll0) ||| Reg.CLK_REF_STATUS_sel.mk' (b2n k.selB) |||
  Reg.CLK_REF_STATUS_state_b.mk' k.b.st.code ||| Reg.CLK_REF_STATUS_state_a.mk' k.a.st.code

def laneReg (x : RefLane) : Word :=
  Reg.CLK_LANE_A_good_run.mk' x.run ||| Reg.CLK_LANE_A_count.mk' (if x.st = .down then 0 else x.count)

/-- CLK_REF_PPM: (count − 152,587.89) / 0.152 587 89, rounded to the nearest ppm; 0 while the selected lane has no count. -/
def refPpm (s : State) : Word :=
  let x := refLane s.clk s.clk.selB
  if x.st = .down ∨ x.count = 0 then 0
  else
    let num : Int := ((x.count : Int) * 100 - 15258789) * 1000000
    Reg.CLK_REF_PPM_ppm.mk' (unsgn 16 ((2 * num + 15258789) / (2 * 15258789)))

/-! ### Dividers (R371 to R373) -/

/-- A divider value outside its range acts as the nearer end (R371). -/
def clampDiv (lo hi v : Nat) : Nat := max lo (min hi v)

/-- The target of a domain's divider, from CLK_DIV. -/
def divTarget (s : State) : DivDomain → Nat
  | .core => clampDiv 5 20 (getF s Reg.CLK_DIV Reg.CLK_DIV_core)
  | .store => clampDiv 5 20 (getF s Reg.CLK_DIV Reg.CLK_DIV_store)
  | .mgmt => clampDiv 3 15 (getF s Reg.CLK_DIV Reg.CLK_DIV_mgmt)
  | .io => clampDiv 20 160 (getF s Reg.CLK_DIV Reg.CLK_DIV_io)

def divNow (k : Clocks) : DivDomain → Nat
  | .core => k.divCore | .store => k.divStore | .mgmt => k.divMgmt | .io => k.divIo

def setDiv (k : Clocks) (d : DivDomain) (v : Nat) : Clocks :=
  match d with
  | .core => { k with divCore := v }
  | .store => { k with divStore := v }
  | .mgmt => { k with divMgmt := v }
  | .io => { k with divIo := v }

/-- Every divider has reached its target. -/
def divSettled (s : State) (k : Clocks) : Bool :=
  [DivDomain.core, .store, .mgmt, .io].all fun d => divNow k d == divTarget s d

/-- The settled ratios for which the module is specified (R373). -/
def ratiosOk (k : Clocks) : Bool :=
  (k.divStore == k.divCore || k.divCore == 2 * k.divStore) && decide (4 * k.divCore ≤ k.divIo) && decide (3 * k.divMgmt ≤ 2 * k.divCore)

/-- One step of a ramp: the divider moves by 1 toward its target (R372). At its end a `START` that waits begins to listen (R371). -/
def divStep (d : DivDomain) (s : State) : State :=
  let v := divNow s.clk d
  let g := divTarget s d
  let k := setDiv s.clk d (if v < g then v + 1 else if g < v then v - 1 else v)
  let r := s.red
  let begins : Bool := divSettled s k && r.listen.isSome && r.listenAt.isNone
  { s with clk := { k with ramping := !divSettled s k }, red := if begins then { r with listenAt := some (now s) } else r }

/-- CLK_DIV_STATUS: the dividers in force and the ramp. -/
def divStatus (k : Clocks) : Word :=
  Reg.CLK_DIV_io.mk' k.divIo ||| Reg.CLK_DIV_mgmt.mk' k.divMgmt ||| Reg.CLK_DIV_store.mk' k.divStore |||
  BitVec.ofNat 32 (b2n k.ramping * 128) ||| Reg.CLK_DIV_core.mk' k.divCore

/-! ### Clock gates (R374 to R376) -/

/-- A gate that Table 15.3 lists. -/
def gateExists (g : Nat) : Bool :=
  decide (g ≤ 7) || (decide (16 ≤ g) && decide (g ≤ 29)) || (decide (32 ≤ g) && decide (g ≤ 37)) || (decide (40 ≤ g) && decide (g ≤ 55))

/-- The parent of a gate. -/
def gateParent (g : Nat) : Option Nat :=
  if g < 16 then none else if g ≤ 27 then some 4 else if g ≤ 29 then some 7 else if g ≤ 37 then some 5 else some 6

def gateOpen (s : State) (g : Nat) : Bool := s.clk.gates.getLsbD g

/-- A unit's clock runs: its own gate and its parent's are open. -/
def clockRuns (s : State) (g : Nat) : Bool :=
  gateOpen s g && (match gateParent g with
    | some p => gateOpen s p
    | none => true)

def setGate (s : State) (g : Nat) (on : Bool) : State :=
  let m : BitVec 64 := 1#64 <<< g
  { s with clk := { s.clk with gates := if on then s.clk.gates ||| m else s.clk.gates &&& ~~~m } }

/-- An image record or trigger names a DIO channel of a group (R374). -/
def dioGrpUsed (s : State) (g : Nat) : Bool :=
  (s.img.smt.any fun e => (e.kind == 4 || e.kind == 5 || e.kind == 6 || e.kind == 7 || e.kind == 8) && e.names (16 * g) (16 * g + 16)) ||
  ((List.range 16).any fun i => s.img.io 0 (16 * g + i) != 0) || s.img.io 3 g != 0 ||
  ((List.finRange 16).any fun t => getF s (Reg.TTRG_CTL t) Reg.TTRG_CTL_timing != 0 && getF s (Reg.TTRG_CTL t) Reg.TTRG_CTL_target == 2 &&
    decide (2 + (getR s (Reg.TTRG_ARG t)).toNat % 32 / 16 = g))

/-- The AO or AI block is in use (R374). -/
def aoUsed (s : State) : Bool :=
  (s.img.smt.any fun e => e.kind == 9 || e.kind == 0xA) || (List.range 8).any fun u => s.img.io 1 u != 0
def aiUsed (s : State) : Bool :=
  (s.img.smt.any fun e => e.kind == 0xB || e.kind == 0xC) || ((List.range 8).any fun u => s.img.io 2 u != 0) ||
  ((List.finRange 16).any fun t => getF s (Reg.TTRG_CTL t) Reg.TTRG_CTL_timing != 0 && getF s (Reg.TTRG_CTL t) Reg.TTRG_CTL_target == 1 &&
    (getR s (Reg.TTRG_ARG t)).toNat % 256 != 0)

/-- A unit gate is in use (R374). -/
def gateUsed (s : State) (g : Nat) : Bool :=
  if g < 16 then false
  else if g ≤ 27 then s.img.role (g - 16) != 0
  else if g ≤ 29 then (if h : g - 28 < 2 then s.red.lanes[g - 28].present else false)
  else if g < 36 then dioGrpUsed s (g - 32)
  else if g = 36 then aoUsed s
  else if g = 37 then aiUsed s
  else s.img.canMode (g - 40) != 0

/-- The open children of a parent gate, ascending. -/
def openChildren (s : State) (p : Nat) : List Nat :=
  ((List.range 64).filter fun g => gateExists g && gateParent g == some p && gateOpen s g)

/-- 1,024 periods of the clock of a gate, in TIME ticks rounded up (R375). -/
def gateWait (g : Nat) : Nat :=
  let root := (gateParent g).getD g
  if root = 4 then 2048 else if root = 5 then 4096 else if root = 6 then 3200 else 1639

/-- The result of a gate request, in the master's CLK_GATE_RESULT. -/
def gateResult (m : Master) (gate status blocker : Nat) (waiting : Bool) (s : State) : State :=
  setR s (pm m Reg.CLK_GATE_RESULT) (Reg.CLK_GATE_RESULT_blocker.mk' blocker ||| Reg.CLK_GATE_RESULT_waiting.mk' (b2n waiting) |||
    Reg.CLK_GATE_RESULT_gate.mk' gate ||| Reg.CLK_GATE_RESULT_status.mk' status)

/-- A write of CLK_GATE_CMD with op 1, judged in the order of R375. -/
def gateOpenReq (m : Master) (g : Nat) (s : State) : State :=
  if s.clk.req.isSome then gateResult m g 6 0 false s
  else if g < 4 ∨ gateExists g = false then gateResult m g 5 0 false s
  else
    match gateParent g with
    | some p => if gateOpen s p then gateResult m g 0 0 false (setGate s g true) else gateResult m g 4 0 false s
    | none => gateResult m g 0 0 false (setGate s g true)

/-- A write of CLK_GATE_CMD with op 0, judged in the order of R375; an admitted close waits for idle. -/
def gateCloseReq (m : Master) (g : Nat) (s : State) : State :=
  if s.clk.req.isSome then gateResult m g 6 0 false s
  else if g < 4 ∨ gateExists g = false then gateResult m g 5 0 false s
  else if gateUsed s g then gateResult m g 2 0 false s
  else
    let kids := openChildren s g
    match kids.find? (gateUsed s) with
    | some c => gateResult m g 3 c false s
    | none =>
      if gateOpen s g then
        gateResult m g 0 0 true { s with clk := { s.clk with req := some { m := m, gate := g, todo := kids ++ [g], startC := s.time.c } } }
      else gateResult m g 0 0 false s

/-- CLK_GATE_CLOSE_IDLE: the unit that the request waits for is idle within its 1,024 periods; its gate closes, and a parent's request goes
on with the next child (R375). -/
def gateCloseIdle (s : State) : State :=
  match s.clk.req with
  | none => s
  | some r =>
    match r.todo with
    | [] => { s with clk := { s.clk with req := none } }
    | g :: l =>
      if r.startC + gateWait g < s.time.c then s
      else
        let s := setGate s g false
        if l.isEmpty then gateResult r.m r.gate 0 0 false { s with clk := { s.clk with req := none } }
        else { s with clk := { s.clk with req := some { r with todo := l, startC := s.time.c } } }

/-- CLK_GATE_CLOSE_TIMEOUT: a unit not idle within 1,024 periods ends the request with BUSY_TIMEOUT and stays open (R375). -/
def gateCloseTimeout (s : State) : State :=
  match s.clk.req with
  | none => s
  | some r =>
    let g := r.todo.headD r.gate
    if r.startC + gateWait g ≤ s.time.c then gateResult r.m r.gate 1 g false { s with clk := { s.clk with req := none } } else s

/-- A committed image that puts units in use opens their gates and parents; a waiting close of one of these gates completes with IN_USE (R376). -/
def gatesForImage (s : State) : State :=
  let used := (List.range 64).filter fun g => gateExists g && gateUsed s g
  let s := used.foldl (fun s g => match gateParent g with
    | some p => setGate (setGate s g true) p true
    | none => setGate s g true) s
  match s.clk.req with
  | some r =>
    if used.any fun g => r.todo.contains g then gateResult r.m r.gate 2 0 false { s with clk := { s.clk with req := none } } else s
  | none => s

/-! ### Supplies (R377, R378) -/

/-- Latch an alarm when its condition begins. -/
def alarmRise (a : Nat) (f : Fld) (old new : Bool) (s : State) : State := if new && !old then setB s a f true else s

/-- POWER_SAMPLE: feeds, supply, bank, CORE supply and junction (R378); the count of low samples and the return count of R380. -/
def powerSample (feedA feedB supply bank vcore : Nat) (tj : BitVec 16) (s : State) : State :=
  let lowFeed := fun (s : State) (v : Nat) => decide (v < 18000) && decide (18000 ≤ getF s Reg.PWR_BANK Reg.PWR_BANK_supply)
  let oldA := lowFeed s (getF s Reg.PWR_FEED Reg.PWR_FEED_feed_a)
  let oldB := lowFeed s (getF s Reg.PWR_FEED Reg.PWR_FEED_feed_b)
  let oldV := getF s Reg.PWR_CORE Reg.PWR_CORE_vcore
  let oldHot := decide (105 ≤ sgn 16 (getF s Reg.PWR_CORE Reg.PWR_CORE_tj))
  let out := fun (v : Nat) => v != 0 && (decide (v < 780) || decide (820 < v))
  let s := setR s Reg.PWR_FEED (Reg.PWR_FEED_feed_b.mk' feedB ||| Reg.PWR_FEED_feed_a.mk' feedA)
  let s := setR s Reg.PWR_BANK (Reg.PWR_BANK_bank.mk' bank ||| Reg.PWR_BANK_supply.mk' supply)
  let s := setR s Reg.PWR_CORE (Reg.PWR_CORE_tj.mk' tj.toNat ||| Reg.PWR_CORE_vcore.mk' vcore)
  let s := alarmRise Reg.PWR_ALARM Reg.PWR_ALARM_feed_a_low oldA (lowFeed s feedA) s
  let s := alarmRise Reg.PWR_ALARM Reg.PWR_ALARM_feed_b_low oldB (lowFeed s feedB) s
  let s := alarmRise Reg.PWR_ALARM Reg.PWR_ALARM_core_range (out oldV) (out vcore) s
  let s := alarmRise Reg.PWR_ALARM Reg.PWR_ALARM_hot oldHot (decide (105 ≤ tj.toInt)) s
  { s with pwr := { s.pwr with
    low := if supply < 18000 then min 3 (s.pwr.low + 1) else 0
    goodSince := since (decide (19000 ≤ supply)) s.pwr.goodSince s.time.c } }

/-- ride_us; a larger value acts as 10,000 (R381). -/
def rideUs (s : State) : Nat := min 10000 (getF s Reg.PWR_CFG Reg.PWR_CFG_ride_us)

end Sys2Proof.Machine
end

