-- ==== Sys2Proof/Machine/Container.lean ====
section
/-!
DEFINITION. The LRSI container of a Structure Image (R28 to R39): header, directory, the parts of a full image, the patches of a delta
image, and the container that a module builds of the image it runs.
-/
namespace Sys2Proof.Machine

/-- The report of a verification (R41). -/
structure LoadRes where
  code : Nat := 0
  step : Nat := 0
  typ : Nat := 0
  part : Nat := 0
  index : Nat := 0
  detail : Nat := 0
  limit : Nat := 0
  deriving DecidableEq, Repr

/-- A check: the refusal, or none where it passes. -/
abbrev Chk := Option LoadRes

/-- The first refusal of a list of checks. -/
def firstOf : List Chk → Chk
  | [] => none
  | some r :: _ => some r
  | none :: l => firstOf l

/-- A refusal where a condition holds. -/
def refuseIf (c : Bool) (r : LoadRes) : Chk := if c then some r else none

/-- How the loader reads a container: offset and number of bytes. -/
abbrev Rd := Nat → Nat → List Byte

def Rd.num (rd : Rd) (o n : Nat) : Nat := leNat (rd o n)

def maxContainer : Nat := 7340032

/-! ### Parts (Table 2.3) -/

/-- A row of Table 2.3: type, part, record size, maximum count, whether a full image must hold it, and whether only a delta may. -/
structure PartRow where
  typ : Nat
  part : Nat
  size : Nat
  max : Nat
  req : Bool := false
  delta : Bool := false
  deriving DecidableEq, Repr

def partRows : List PartRow := [
  ⟨0x01, 0, 16, 4, true, false⟩, ⟨0x02, 0, 24, 131072, true, false⟩, ⟨0x03, 0, 8, 32768, false, false⟩,
  ⟨0x04, 0, 32, 65536, true, false⟩, ⟨0x04, 1, 4, 524288, false, false⟩, ⟨0x05, 0, 4, 65536, true, false⟩,
  ⟨0x06, 0, 16, 1024, false, false⟩, ⟨0x06, 1, 16, 16384, false, false⟩, ⟨0x07, 0, 64, 8, false, false⟩,
  ⟨0x07, 1, 64, 128, false, false⟩, ⟨0x07, 2, 32, 128, false, false⟩, ⟨0x08, 0, 16, 64, false, false⟩] ++ [
  ⟨0x08, 1, 8, 131072, false, false⟩, ⟨0x09, 0, 16, 4, false, false⟩, ⟨0x09, 1, 32, 64, false, false⟩,
  ⟨0x0A, 0, 8, 12, true, false⟩, ⟨0x0B, 0, 32, 512, false, false⟩, ⟨0x0B, 1, 16, 4096, false, false⟩,
  ⟨0x0B, 2, 8, 1536, false, false⟩, ⟨0x0C, 0, 32, 16, false, false⟩, ⟨0x0C, 1, 16, 512, false, false⟩,
  ⟨0x0C, 2, 16, 16, false, false⟩, ⟨0x0D, 0, 8, 64, false, false⟩, ⟨0x0D, 1, 16, 8, false, false⟩] ++ [
  ⟨0x0D, 2, 16, 8, false, false⟩, ⟨0x0D, 3, 8, 4, false, false⟩, ⟨0x0E, 0, 16, 16, false, false⟩,
  ⟨0x0F, 0, 64, 1, true, false⟩, ⟨0x10, 0, 16, 128, false, false⟩, ⟨0x11, 0, 16, 65536, false, true⟩]

def partRow (typ part : Nat) : Option PartRow := partRows.find? fun r => r.typ == typ && r.part == part

/-! ### Header and directory (Tables 2.1 and 2.2) -/

structure Header where
  version : Nat
  size : Nat
  flags : Nat
  total : Nat
  id : Nat
  base : Nat
  dirs : Nat
  minFw : Nat
  deriving DecidableEq, Repr

def header (rd : Rd) : Header :=
  { version := rd.num 4 2, size := rd.num 6 2, flags := rd.num 8 4, total := rd.num 12 4, id := rd.num 16 8, base := rd.num 24 8
    dirs := rd.num 32 2, minFw := rd.num 40 4 }

def Header.delta (h : Header) : Bool := bit h.flags 0
def Header.signed (h : Header) : Bool := bit h.flags 1
def Header.split (h : Header) : Bool := bit h.flags 2

structure DirEnt where
  typ : Nat
  partByte : Nat
  size : Nat
  off : Nat
  count : Nat
  crc : Nat
  deriving DecidableEq, Repr

def DirEnt.part (d : DirEnt) : Nat := d.partByte % 16
def DirEnt.patch (d : DirEnt) : Bool := bit d.partByte 7
def DirEnt.last (d : DirEnt) : Nat := d.off + d.size * d.count
def DirEnt.key (d : DirEnt) : Nat := 16 * d.typ + d.part

def dirEnt (rd : Rd) (i : Nat) : DirEnt :=
  let o := 64 + 16 * i
  { typ := rd.num o 1, partByte := rd.num (o + 1) 1, size := rd.num (o + 2) 2, off := rd.num (o + 4) 4, count := rd.num (o + 8) 4
    crc := rd.num (o + 12) 4 }

def dirEnts (rd : Rd) : List DirEnt := (List.range (header rd).dirs).map (dirEnt rd)

/-- Header checks of step 1, in the order of Table 2.8 (R29, R41). -/
def checkHeader (rd : Rd) (len : Nat) : Chk :=
  let h := header rd
  let bad := fun (code detail limit : Nat) => { code := code, step := 1, detail := detail, limit := limit : LoadRes }
  firstOf [
    refuseIf (rd 0 4 != [0x4C, 0x52, 0x53, 0x49]) (bad 0x01 0 0),
    refuseIf (h.version != 3) (bad 0x02 h.version 0),
    refuseIf ((crc32c (rd 0 60)).toNat != rd.num 60 4) (bad 0x04 0 0),
    refuseIf (h.size != 64) (bad 0x07 6 0),
    refuseIf (h.flags / 8 != 0) (bad 0x07 8 0),
    refuseIf (h.id == 0) (bad 0x07 16 0),
    refuseIf (if h.delta then h.base == 0 else h.base != 0) (bad 0x07 24 0),
    refuseIf (rd.num 34 2 != 0) (bad 0x07 34 0),
    refuseIf (rd.num 44 16 != 0) (bad 0x07 44 0),
    refuseIf (decide (maxContainer < h.total)) (bad 0x03 h.total maxContainer),
    refuseIf (h.total != len) (bad 0x03 h.total len)]

/-- A directory entry obeys R28, R30 and R31; `prev` is the key of the entry before it, `from'` where its section may begin. -/
def dirOk (rd : Rd) (h : Header) (i : Nat) (prev : Option Nat) (from' : Nat) (d : DirEnt) : Bool :=
  let lim := if h.signed then h.total - 72 else h.total
  decide (64 + 16 * (i + 1) ≤ h.total) && bits d.partByte 4 3 == 0 && (!d.patch || h.delta) &&
  (match prev with
   | some k => decide (k < d.key)
   | none => true) &&
  (match partRow d.typ d.part with
   | some r => d.size == (if d.patch then r.size + 4 else r.size)
   | none => false) &&
  d.off % 8 == 0 && decide (from' ≤ d.off) && decide (d.last ≤ lim) && (rd from' (d.off - from')).all (· == 0)

/-- The first directory entry at fault. -/
def checkDirs (rd : Rd) (h : Header) : Nat → Option Nat → Nat → List DirEnt → Chk
  | _, _, _, [] => none
  | i, prev, f, d :: l =>
    if dirOk rd h i prev f d then checkDirs rd h (i + 1) (some d.key) d.last l
    else some { code := 0x05, step := 1, typ := d.typ, part := d.part + 128 * b2n d.patch, index := i }

/-- Step 1 of Table 2.8. -/
def checkContainer (rd : Rd) (len : Nat) : Chk :=
  let h := header rd
  checkHeader rd len <|>
  refuseIf (h.dirs == 0 || decide (30 < h.dirs)) { code := 0x05, step := 1, index := 0xFFFFFFFF, detail := h.dirs } <|>
  checkDirs rd h 0 none (64 + 16 * h.dirs) (dirEnts rd) <|>
  firstOf ((dirEnts rd).zipIdx.map fun p =>
    refuseIf ((crc32c (rd p.1.off (p.1.size * p.1.count))).toNat != p.1.crc)
      { code := 0x06, step := 1, typ := p.1.typ, part := p.1.partByte, index := p.2 })

/-! ### The image of a container (R36, R37) -/

/-- The records of a directory entry. -/
def DirEnt.recs (rd : Rd) (d : DirEnt) : List Nat := (List.range d.count).map fun i => rd.num (d.off + d.size * i) d.size

/-- A record of a part with the number of the patch record that it came from. -/
abbrev Traced := List (Nat × Option Nat)

/-- One patch record (R37): a removal takes a record out, another target replaces a record or, at the end of the part and beyond it, adds
one after records of zeros. -/
def patchOne (l : Traced) (p : Nat × Nat) : Traced :=
  let t := fld p.1 0 4
  let pos := bits t 0 24
  if bit t 31 then l.eraseIdx pos
  else if pos < l.length then l.set pos (p.1 / 2 ^ 32, some p.2)
  else l ++ List.replicate (pos - l.length) (0, some p.2) ++ [(p.1 / 2 ^ 32, some p.2)]

/-- A part of the new image, with what its records come from. -/
structure NewPart where
  typ : Nat
  part : Nat
  patch : Bool
  recs : Traced
  deriving DecidableEq, Repr

/-- A directory entry applied to the running image. -/
def newPart (base : Image) (rd : Rd) (d : DirEnt) : NewPart :=
  { typ := d.typ, part := d.part, patch := d.patch
    recs := if d.patch then ((d.recs rd).zipIdx).foldl patchOne ((base.recs d.typ d.part).map fun r => (r, none))
      else (d.recs rd).map fun r => (r, none) }

def NewPart.toPart (p : NewPart) : Part := { typ := p.typ, part := p.part, recs := p.recs.map (·.1) }

/-- Parts in ascending order of type, then part. -/
def partSort (l : List Part) : List Part := l.mergeSort fun a b => decide (16 * a.typ + a.part ≤ 16 * b.typ + b.part)

/-- The new image: the parts of a full image, or the running image with the parts of a delta; MIGRATE is no part of an image. -/
def newImage (base : Image) (h : Header) (np : List NewPart) : Image :=
  let mine := (np.filter fun p => p.typ != 0x11).map NewPart.toPart
  let kept := if h.delta then base.parts.filter fun q => !(mine.any fun p => p.typ == q.typ && p.part == q.part) else []
  { id := h.id, split := h.split, parts := partSort (kept ++ mine) }

/-! ### A container of an image (R242, R254: IMAGE frames; R222: the Archive) -/

def padTo8 (l : List Byte) : List Byte := l ++ List.replicate ((8 - l.length % 8) % 8) 0

/-- Sections of a container from an offset on, with their directory entries. -/
def layParts : List Part → Nat → List Byte × List Byte
  | [], _ => ([], [])
  | p :: l, o =>
    let sz := ((partRow p.typ p.part).map (·.size)).getD 0
    let body := p.recs.flatMap (leBytes sz)
    let r := layParts l (o + (padTo8 body).length)
    (leBytes 1 p.typ ++ leBytes 1 p.part ++ leBytes 2 sz ++ leBytes 4 o ++ leBytes 4 p.recs.length ++ leBytes 4 (crc32c body).toNat ++ r.1,
     padTo8 body ++ r.2)

/-- The unsigned full container that the parts of an image spell. -/
def Image.container (g : Image) : List Byte :=
  let o := 64 + 16 * g.parts.length
  let r := layParts g.parts o
  let total := o + r.2.length
  let hd := [0x4C, 0x52, 0x53, 0x49] ++ leBytes 2 3 ++ leBytes 2 64 ++ leBytes 4 (4 * b2n g.split) ++ leBytes 4 total ++ leBytes 8 g.id ++
    leBytes 8 0 ++ leBytes 2 g.parts.length ++ leBytes 2 0 ++ leBytes 4 0 ++ leBytes 4 0 ++ List.replicate 16 0
  hd ++ leBytes 4 (crc32c hd).toNat ++ r.1 ++ r.2

end Sys2Proof.Machine
end

