-- ==== Sys2Proof/Machine/LoadRec.lean ====
section
/-!
DEFINITION. Step 5 of Table 2.8, first half: record fields, reserved bits, references and types of CLASSES, SIGNALS, SMAP, BLOCKS, ORDER and
STEPS (R32 to R34, R84 to R89, R113, R114, R129, R134, R147 to R150).
-/
namespace Sys2Proof.Machine

/-- Codes of Table 2.9 that step 5 gives. -/
def cBadRecord : Nat := 0x15
def cBadRef : Nat := 0x16
def cTypeMis : Nat := 0x17
def cOverlap : Nat := 0x18
def cDupUid : Nat := 0x19

/-- A refusal of step 5 that names a record. -/
def rej (typ part code index : Nat) (detail : Nat := 0) : LoadRes :=
  { code := code, step := 5, typ := typ, part := part, index := index, detail := detail }

/-- Check every record of a part, in order. -/
def eachRec (g : Image) (typ part : Nat) (f : Nat → Nat → Chk) : Chk := firstOf ((g.recs typ part).zipIdx.map fun p => f p.2 p.1)

/-- Bits of a record outside a list of (first bit, width) are 0. -/
def onlyBits (r : Nat) (size : Nat) (fields : List (Nat × Nat)) : Bool :=
  (List.range (8 * size)).all fun i => !(bit r i) || fields.any fun f => decide (f.1 ≤ i) && decide (i < f.1 + f.2)

/-- The same with fields given in bytes: offset and size. -/
def onlyBytes (r size : Nat) (fields : List (Nat × Nat)) : Bool := onlyBits r size (fields.map fun f => (8 * f.1, 8 * f.2))

/-- The class is one that the CLASSES section carries (R32). -/
def clsOk (g : Image) (k : Nat) : Bool := decide (k ≤ 3) && g.hasCls k

/-! ### CLASSES and SIGNALS -/

def checkClassRec (g : Image) : Chk :=
  eachRec g 0x01 0 fun i r =>
    refuseIf (!(onlyBytes r 16 [(0, 1), (2, 2), (4, 4)]) || decide (3 < fld r 0 1)) (rej 0x01 0 cBadRecord i)

/-- A value of a signal of a type is legal (R33). -/
def sigValOk (t v : Nat) : Bool :=
  if 5 ≤ t then true
  else v / 2 ^ 32 == 0 && (t != 0 || decide (v ≤ 1)) && (t != 4 || !F32.isNan (BitVec.ofNat 32 v))

/-- SIGNALS (R33). A run beyond word 131,071 is BAD_RECORD (notes/assumptions/97.md). -/
def checkSignals (g : Image) : Chk :=
  let l := g.signals
  eachRec g 0x02 0 fun i r =>
    let x := sigRun r
    let prev := if i = 0 then none else l[i - 1]?
    let bad := rej 0x02 0 cBadRecord i
    firstOf [
      refuseIf (bits (fld r 0 4) 17 15 != 0 || decide (7 < x.typ) || fld r 5 1 / 4 != 0 || x.run == 0) bad,
      refuseIf (decide (5 ≤ x.typ) && x.index % 2 == 1) bad,
      refuseIf (decide (131072 < x.index + x.words)) bad,
      refuseIf (!(sigValOk x.typ x.safe) || !(sigValOk x.typ x.subst)) bad,
      match prev with
      | some p => firstOf [refuseIf (decide (x.index ≤ p.index)) bad,
          refuseIf (decide (x.index < p.index + p.words)) (rej 0x02 0 cOverlap i)]
      | none => none]

/-! ### References to words and parameters (R84) -/

/-- A reference to a signal of a type at a word. -/
def wordRef (g : Image) (typ part idx n t : Nat) : Chk :=
  match g.sigTyp n with
  | none => some (rej typ part cBadRef idx n)
  | some u => refuseIf (u != t || !(g.sigLow n) || (decide (5 ≤ t) && n % 2 == 1)) (rej typ part cTypeMis idx n)

/-- An input reference with a type; `base` is the param of its block. -/
def inRef (g : Image) (typ part idx base r : Nat) (t : Typ) : Chk :=
  if bits r 19 5 != 0 || (refInv r && t != .bool) then some (rej typ part cBadRecord idx)
  else if refConst r then
    let p := base + refIdx r
    let l := if t.two then p + 1 else p
    if g.prmCount ≤ l then some (rej typ part cBadRef idx (if g.prmCount ≤ p then p else l))
    else refuseIf (t == .real && !(F32.isFin (g.prm p))) (rej typ part cBadRecord idx)
  else wordRef g typ part idx (refIdx r) t.code

/-- An output reference that is written. -/
def outRef (g : Image) (typ part idx r : Nat) (t : Typ) : Chk :=
  firstOf [refuseIf (bits r 18 6 != 0) (rej typ part cBadRecord idx),
    wordRef g typ part idx (refIdx r) t.code,
    refuseIf ((refWords (refIdx r) t).any fun n => g.isInput n) (rej typ part cOverlap idx)]

/-! ### SMAP (R147 to R150) -/

/-- Kinds and their directions (Table 6.3): input allowed, output allowed. -/
def kindIn (k : Nat) : Bool := decide (k ≤ 0xD) && k != 7 && k != 9
def kindOut (k : Nat) : Bool := k == 0 || k == 2 || k == 7 || k == 9

/-- The signal type of a kind; none for any. -/
def kindTyp (e : SmtEnt) : Option Nat :=
  match e.kind with
  | 0x0 | 0x2 => none
  | 0x1 | 0x6 | 0x8 => some 2
  | 0x3 | 0x5 | 0xC => some 7
  | 0x4 | 0x7 => some 0
  | 0xD => some (if e.unit = 1 then 7 else 2)
  | _ => some 4

/-- Unit, offset and elements lie within the limits of the kind; records that the image does not hold are another matter. -/
def kindLimits (g : Image) (e : SmtEnt) : Bool :=
  match e.kind with
  | 0x0 => decide (e.unit ≤ 4095) && (decide (g.fsegs.length ≤ e.unit) || decide (e.offset + e.cnt ≤ (g.fseg e.unit).words))
  | 0x1 => decide (e.unit ≤ 511) && e.offset == 0 && e.cnt == 1
  | 0x2 =>
    decide (e.unit ≤ 511) && decide (e.offset + e.cnt ≤ 16) &&
      (match g.canMsgs[e.unit]? with
       | some m => decide (4 * (e.offset + e.cnt) ≤ m.len + 3)
       | none => true)
  | 0x3 => decide (e.unit ≤ 511) && e.offset == 0 && e.cnt == 1
  | 0x4 | 0x5 | 0x6 => decide (e.unit + e.cnt ≤ 32) && e.offset == 0
  | 0x7 => decide (32 ≤ e.unit) && decide (e.unit + e.cnt ≤ 64) && e.offset == 0
  | 0x8 => decide (e.unit + e.cnt ≤ 64) && e.offset == 0
  | 0x9 | 0xA | 0xB | 0xC => decide (e.unit + e.cnt ≤ 8) && e.offset == 0
  | 0xD => decide (e.unit ≤ 1) && e.offset == 0 && e.cnt == 1
  | _ => false

/-- The record that an entry names exists. -/
def kindHeld (g : Image) (e : SmtEnt) : Bool :=
  match e.kind with
  | 0x0 => decide (e.unit < g.fsegs.length)
  | 0x1 => decide (e.unit < g.stas.length)
  | 0x2 | 0x3 => decide (e.unit < g.canMsgs.length)
  | _ => true

/-- The sink elements of an output entry. -/
def SmtEnt.sinks (e : SmtEnt) : List (Nat × Nat × Nat) :=
  (List.range e.cnt).map fun j => if e.kind = 7 ∨ e.kind = 9 then (e.kind, e.unit + j, 0) else (e.kind, e.unit, e.offset + j)

/-- A head entry of the Block Table, whether ORDER names it or not, writes the word. -/
def headWrites (g : Image) (n b : Nat) : Bool := !(g.blk b).ext && (g.blkWrites b).contains n

/-- The class coded in the head entry that writes a word, or in the chain (R34, R129). -/
def entWriter (g : Image) (n : Nat) : Option Nat :=
  match (List.range g.blkCount).find? (headWrites g n) with
  | some b => some (g.blk b).cls
  | none => (g.chains.find? fun c => (g.chainActs c).contains n).map (·.cls)

/-- The classes that the words of an entry are written by; FAST for words that nothing writes (R150). -/
def entClasses (g : Image) (e : SmtEnt) : List Nat := (List.range e.words).map fun i => (entWriter g (e.sig + i)).getD 0

/-- A polynomial uses the segment. -/
def segPoly (g : Image) (i : Nat) : Bool := g.slaves.any fun p => p.2.segment == i

/-- R150: one class for the entry, for its segment (with its polynomials, R190) and for its CAN message. -/
def outClsOk (g : Image) (e : SmtEnt) : Bool :=
  let k := (entClasses g e).headD 0
  (entClasses g e).all (· == k) &&
  (if e.kind = 0 ∨ e.kind = 2 then
    (g.smtOut.filter fun f => f.kind == e.kind && f.unit == e.unit).all (fun f => (entClasses g f).all (· == k)) &&
    (e.kind != 0 || !(segPoly g e.unit) || k == 0)
  else true)

/-- The first covered word whose signal is not of the kind's type. -/
def badWord (g : Image) (e : SmtEnt) : Option Nat :=
  match kindTyp e with
  | none => none
  | some t => ((List.range e.cnt).map fun j => e.sig + j * e.width).find? fun n =>
      g.sigTyp n != some t || !(g.sigLow n) || (e.width == 2 && n % 2 == 1)

/-- A two-word signal is split at an end of an entry. -/
def splitSig (g : Image) (e : SmtEnt) : Bool :=
  ((match g.sigTyp e.sig with
    | some _ => !(g.sigLow e.sig)
    | none => false) ||
   (match g.sigTyp (e.sig + e.words - 1) with
    | some t => typWords t == 2 && g.sigLow (e.sig + e.words - 1)
    | none => false))

def checkSmap (g : Image) : Chk :=
  let l := g.smt
  eachRec g 0x03 0 fun i r =>
    let e := smtEnt r
    let bad := rej 0x03 0 cBadRecord i
    let usesOpt := e.kind == 5 || e.kind == 6
    firstOf [
      refuseIf (bits (fld r 0 4) 18 2 != 0 || decide (0xD < e.kind)) bad,
      refuseIf (!(if e.out then kindOut e.kind else kindIn e.kind)) bad,
      refuseIf (if usesOpt then decide (3 ≤ e.opt) else e.opt != 0) bad,
      refuseIf (!(kindLimits g e)) bad,
      refuseIf (!(kindHeld g e)) (rej 0x03 0 cBadRef i e.unit),
      refuseIf (e.kind == 0 && (g.fseg e.unit).down != e.out) bad,
      refuseIf (splitSig g e) bad,
      refuseIf (e.out && !(outClsOk g e)) bad,
      match ((List.range e.words).map (e.sig + ·)).find? fun n => (g.sigTyp n).isNone with
      | some n => some (rej 0x03 0 cBadRef i n)
      | none => none,
      match badWord g e with
      | some n => some (rej 0x03 0 cTypeMis i n)
      | none => none,
      refuseIf ((l.take i).any fun f =>
        if e.out then f.out && f.sinks.any (e.sinks.contains ·)
        else !f.out && decide (f.sig < e.sig + e.words) && decide (e.sig < f.sig + f.words)) (rej 0x03 0 cOverlap i)]

/-! ### BLOCKS (R83 to R89, R113, R114) -/

/-- The head entry before an extension entry: its index. -/
def headOf (g : Image) : Nat → Nat → Option Nat
  | 0, _ => none
  | n + 1, k => if (g.blk k).ext then (if k = 0 then none else headOf g n (k - 1)) else some k

/-- Parameter words of a curve rise strictly and are finite (R111). -/
def curveOk (g : Image) (e : BlkEnt) (m : Nat) : Bool :=
  let x := fun i => g.prm (e.param + 1 + 2 * i)
  let fin := (List.range (2 * m)).all fun i => typOf e.t != .real || F32.isFin (g.prm (e.param + 1 + i))
  fin && (List.range (m - 1)).all fun i =>
    if typOf e.t == .real then Dy.lt (F32.dy (x i)) (F32.dy (x (i + 1))) else decide ((x i).toInt < (x (i + 1)).toInt)

/-- The parameter words of a type's layout, and whether they obey its row; the words beyond the pool are another matter. -/
def paramLayout (g : Image) (e : BlkEnt) : Nat × Bool :=
  let p0 := (g.prm e.param).toNat
  let t := typOf e.t
  (layoutWords g e, match e.typ with
    | 0x22 => decide (2 ≤ p0) && decide (p0 ≤ 256) && curveOk g e p0
    | 0x23 =>
      let w := if t.two then 2 else 1
      decide (1 ≤ p0) && decide (p0 ≤ 4096) && (List.range p0).all fun i =>
        let v := g.prm (e.param + 1 + w * i)
        if t == .real then F32.isFin v else t != .bool || decide (v.toNat ≤ 1)
    | 0x25 => decide (p0 < 256) && !(bit p0 3) && !(bit p0 7)
    | 0x3C => decide (1 ≤ p0) && decide (p0 ≤ 64)
    | _ => true)

/-- What an interface block names (R134, R204): its number, whether it exists, and for an axis block its class. -/
def ifaceChk (g : Image) (k : Nat) (e : BlkEnt) : Chk :=
  let p0 := (g.prm e.param).toNat
  let bad := rej 0x04 0 cBadRecord k
  let ref := rej 0x04 0 cBadRef k p0
  let axis := fun (held : Bool) => firstOf [refuseIf (e.cls != 0) bad, refuseIf (!held) ref]
  match e.typ with
  | 0x28 => axis (g.masters.any fun p => p.1 == p0)
  | 0x29 => axis (g.slaves.any fun p => p.1 == p0)
  | 0x2A => axis (if p0 < 128 then g.slaves.any fun p => p.1 == p0 else g.masters.any fun p => p.1 + 128 == p0)
  | 0x2B => axis (decide (p0 < g.regs.length))
  | 0x2C | 0x2D | 0x2E =>
    match g.chains[p0]? with
    | none => some ref
    | some c => firstOf [refuseIf (e.cls != c.cls) bad,
        refuseIf (e.typ == 0x2D && decide (c.count ≤ (g.prm (e.param + 1)).toNat))
          (rej 0x04 0 cBadRef k (g.prm (e.param + 1)).toNat)]
  | _ => none

/-- An interface block that must be alone on its chain, axis or record (R134, R204). -/
def soleIface (t : Nat) : Bool := t == 0x28 || t == 0x29 || t == 0x2B || t == 0x2C

/-- State slots of a block: first, count. -/
def slotSpan (g : Image) (k : Nat) : Option (Nat × Nat) :=
  let e := g.blk k
  if e.ext then none
  else match g.shape e with
    | some x => if x.slots = 0 then none else some (e.state, x.slots)
    | none => none

def spansMeet (a b : Nat × Nat) : Bool := decide (a.1 < b.1 + b.2) && decide (b.1 < a.1 + a.2)

/-- Checks of a head entry. -/
def headChk (g : Image) (k : Nat) (r : Nat) : Chk :=
  let e := g.blk k
  let bad := rej 0x04 0 cBadRecord k
  let dup := fun (code detail : Nat) (f : Nat → Bool) => refuseIf ((List.range k).any f) (rej 0x04 0 code k detail)
  match g.shape e with
  | none => some bad
  | some x =>
    let n := x.ins.length
    let need := extNeed n
    let more := (List.range need).flatMap fun j => extRefs (g.blkRaw (k + 1 + j))
    let refs := e.ins ++ more
    let o1 := bit e.out1 17
    let lay := paramLayout g e
    firstOf ([
      refuseIf (bits (fld r 1 1) 6 2 != 0 || bits (fld r 2 2) 15 1 != 0 || bits (fld r 24 4) 19 13 != 0) bad,
      refuseIf (!(clsOk g e.cls)) bad,
      refuseIf (e.chain != decide (0 < need) || (List.range need).any fun j => !((g.blk (k + 1 + j)).ext)) bad,
      refuseIf (((refs.drop n).take (4 - n)).any (· != 0)) bad,
      refuseIf (!(bit e.out0 17) || e.uid == 0) bad,
      refuseIf (if x.out1.isSome then !o1 && e.out1 != 0 else e.out1 != 0) bad,
      refuseIf (if x.slots = 0 then e.state != 0 else e.state == 0 || decide (65536 < e.state + x.slots)) bad,
      refuseIf (decide (0 < lay.1) && decide (g.prmCount < e.param + lay.1)) (rej 0x04 0 cBadRef k (max g.prmCount e.param)),
      refuseIf (!lay.2) bad] ++
      (refs.zip x.ins).map (fun p => inRef g 0x04 0 k e.param p.1 p.2) ++ [
      outRef g 0x04 0 k e.out0 x.out0,
      match x.out1 with
      | some t => if o1 then firstOf [outRef g 0x04 0 k e.out1 t,
          refuseIf ((refWords (refIdx e.out0) x.out0).any ((refWords (refIdx e.out1) t).contains ·)) (rej 0x04 0 cOverlap k)] else none
      | none => none,
      ifaceChk g k e,
      dup cOverlap 0 (fun j => match slotSpan g j, slotSpan g k with
        | some a, some b => spansMeet a b
        | _, _ => false),
      dup cOverlap 0 (fun j => soleIface e.typ && !((g.blk j).ext) && (g.blk j).typ == e.typ && g.prm (g.blk j).param == g.prm e.param),
      dup cDupUid e.uid (fun j => !((g.blk j).ext) && (g.blk j).uid == e.uid)])

/-- Checks of an extension entry (R85). -/
def extChk (g : Image) (k : Nat) (r : Nat) : Chk :=
  let bad := rej 0x04 0 cBadRecord k
  match headOf g 6 k with
  | none => some bad
  | some h =>
    let e := g.blk h
    match g.shape e with
    | none => some bad
    | some x =>
      let need := extNeed x.ins.length
      let j := k - h - 1
      firstOf [
        refuseIf (!((g.blk (k - 1)).chain) || decide (need ≤ j)) bad,
        refuseIf (!(onlyBytes r 32 [(0, 2), (4, 24)]) || bits (fld r 1 1) 4 4 != 0 || bits (fld r 1 1) 0 2 != 0 || fld r 0 1 != e.typ) bad,
        refuseIf ((g.blk k).chain != decide (j + 1 < need)) bad,
        refuseIf (((extRefs r).drop (x.ins.length - 4 - 8 * j)).any (· != 0)) bad]

def checkBlocks (g : Image) : Chk :=
  eachRec g 0x04 0 fun k r => if (g.blk k).ext then extChk g k r else headChk g k r

/-! ### ORDER (R34) -/

def checkOrderRec (g : Image) : Chk :=
  eachRec g 0x05 0 fun i r =>
    let o := ordRec r
    firstOf [refuseIf (decide (1 < fld r 3 1) || decide (3 < o.cls)) (rej 0x05 0 cBadRecord i),
      refuseIf (decide (g.blkCount ≤ o.block)) (rej 0x05 0 cBadRef i o.block)]

/-! ### STEPS (R129, R134) -/

def checkChains (g : Image) : Chk :=
  let l := g.chains
  eachRec g 0x06 0 fun i r =>
    let c := chainRec r
    let bad := rej 0x06 0 cBadRecord i
    firstOf [
      refuseIf (!(onlyBytes r 16 [(0, 6), (8, 4)]) || decide (1 < fld r 5 1)) bad,
      refuseIf (decide (2 < c.cls) || !(clsOk g c.cls)) bad,
      refuseIf (decide (16383 < c.first) || c.count == 0 || decide (1024 < c.count) || c.uid == 0) bad,
      refuseIf (decide (g.steps.length < c.first + c.count)) (rej 0x06 0 cBadRef i (c.first + c.count - 1)),
      refuseIf ((l.take i).any fun d => spansMeet (d.first, d.count) (c.first, c.count)) (rej 0x06 0 cOverlap i),
      refuseIf ((l.take i).any fun d => d.uid == c.uid) (rej 0x06 0 cDupUid i c.uid)]

/-- A transition reference of a step: BOOL word or pool word. -/
def transRef (g : Image) (i r : Nat) : Chk := inRef g 0x06 1 i 0 r .bool

def checkSteps (g : Image) : Chk :=
  let steps := g.steps
  eachRec g 0x06 1 fun i r =>
    let x := stepRec r
    let bad := rej 0x06 1 cBadRecord i
    match g.chains.find? fun c => decide (c.first ≤ i) && decide (i < c.first + c.count) with
    | none => some bad
    | some c =>
      firstOf [
        refuseIf (bits (fld r 6 2) 10 6 != 0 || bits (fld r 8 2) 10 6 != 0 || decide (3 < fld r 13 1)) bad,
        refuseIf (decide (c.count ≤ x.na) || decide (c.count ≤ x.nb)) bad,
        refuseIf (x.final && (x.ta != 0 || x.tb != 0)) bad,
        refuseIf (!x.tbEn && x.tb != 0) bad,
        refuseIf (!(bit x.act 17)) bad,
        if x.final then none else transRef g i x.ta,
        if x.tbEn then transRef g i x.tb else none,
        outRef g 0x06 1 i x.act .bool,
        refuseIf ((steps.take i).any fun y => refIdx y.act == refIdx x.act) (rej 0x06 1 cOverlap i),
        refuseIf ((List.range g.blkCount).any (headWrites g (refIdx x.act))) (rej 0x06 1 cOverlap i)]

end Sys2Proof.Machine
end

