-- ==== Sys2Proof/Machine/Mig.lean ====
section
/-!
DEFINITION. The Migration Map and what becomes of each entity at a switch (R208, R210, R212, R219, R223): a plan from two images and a map.
-/
namespace Sys2Proof.Machine

/-- A Migration Map entry (Table 8.2). -/
structure MigRec where
  uid : Nat
  kind : Nat
  action : Nat
  conv : Nat
  fromUid : Nat
  oldStep : Nat
  newStep : Nat
  deriving DecidableEq, Repr

def migRec (r : Nat) : MigRec :=
  { uid := fld r 0 4, kind := fld r 4 1, action := fld r 5 1, conv := fld r 6 1, fromUid := fld r 8 4, oldStep := fld r 12 2
    newStep := fld r 14 2 }

/-- The map with the roles of the two images exchanged (R223). -/
def MigRec.back (m : MigRec) : MigRec :=
  { m with uid := if m.action = 3 then m.fromUid else m.uid, fromUid := if m.action = 3 then m.uid else 0
           oldStep := m.newStep, newStep := m.oldStep }

/-- The entities of a kind: position and UID. -/
def Image.ents (g : Image) (kind : Nat) : List (Nat × Nat) :=
  match kind with
  | 0 => ((List.range g.blkCount).filter fun k => !((g.blk k).ext)).map fun k => (k, (g.blk k).uid)
  | 1 => (numbered g.chains).map fun p => (p.1, p.2.uid)
  | 2 => g.masters.map fun p => (p.1, p.2.uid)
  | 3 => g.slaves.map fun p => (p.1, p.2.uid)
  | 4 => g.regs.map fun p => (p.1, p.2.uid)
  | 5 => g.cascades.map fun p => (p.1, p.2.uid)
  | _ => []

def Image.entPos (g : Image) (kind uid : Nat) : Option Nat := ((g.ents kind).find? fun p => p.2 == uid).map (·.1)

def isTimer (t : Nat) : Bool := decide (0x2F ≤ t) && decide (t ≤ 0x32)

/-- The identity of a block's type: type code, t, and for a timer v bit 0 (R210). -/
def BlkEnt.ident (e : BlkEnt) : Nat × Nat × Nat := (e.typ, e.t, if isTimer e.typ then e.v % 2 else 0)

/-- A conversion allows a pair of type codes (Table 8.4). -/
def convAllows (c a b : Nat) : Bool :=
  let in' := fun (l : List Nat) => l.contains a && l.contains b
  match c with
  | 1 => in' [0x2F, 0x30, 0x31, 0x32]
  | 2 => in' [0x33, 0x34, 0x35]
  | 3 => in' [0x36, 0x37]
  | 4 => in' [0x38, 0x39, 0x3A]
  | 5 => in' [0x3B, 0x3F]
  | _ => false

/-- What becomes of an entity of the new image: carried or converted from a position of the old one, or initialised; `lost` when a type
changed without a conversion (MIG_INIT). -/
inductive Fate where
  | carry (old : Nat)
  | conv (old code : Nat)
  | init (lost : Bool)
  deriving DecidableEq, Repr

/-- Table 8.3. -/
def fate (old new : Image) (m : List MigRec) (kind pos uid : Nat) : Fate :=
  let ent := fun (a : Nat) => m.find? fun r => r.kind == kind && r.uid == uid && r.action == a
  if (ent 2).isSome then .init false
  else
    let from' := match ent 3 with
      | some r => r.fromUid
      | none => uid
    match old.entPos kind from' with
    | none => .init false
    | some o =>
      if kind = 0 ∧ (old.blk o).ident ≠ (new.blk pos).ident then
        let c := match ent 1, ent 3 with
          | some r, _ => r.conv
          | none, some r => r.conv
          | none, none => 0
        if c = 0 then .init true else .conv o c
      else .carry o

/-- The fates of every entity of a kind of the new image: position, UID, fate. -/
def fates (old new : Image) (m : List MigRec) (kind : Nat) : List (Nat × Nat × Fate) :=
  (new.ents kind).map fun p => (p.1, p.2, fate old new m kind p.1 p.2)

def kinds : List Nat := [0, 1, 2, 3, 4, 5]

def Fate.src : Fate → Option Nat
  | .carry o => some o
  | .conv o _ => some o
  | .init _ => none

/-- The entities that the old image alone has: no entity of the new image has the UID, and no RENAME takes it (Table 8.3, last row). -/
def dropped (old new : Image) (m : List MigRec) (kind : Nat) : Nat :=
  ((old.ents kind).filter fun p => !((new.ents kind).any fun q => q.2 == p.2) &&
    !(m.any fun r => r.kind == kind && r.action == 3 && r.fromUid == p.2)).length

/-- State slots of a head entry. -/
def Image.slotCount (g : Image) (k : Nat) : Nat := ((g.shape (g.blk k)).map (·.slots)).getD 0

/-- The words of the new image's runs that do not lie in a run of the same type of the old one (R213). -/
def freshWords (old new : Image) : List Nat :=
  new.signals.flatMap fun r => ((List.range r.words).map (r.index + ·)).filter fun n => old.sigTyp n != some r.typ

/-- S, X, K and W of R219. -/
def moveCounts (old new : Image) (m : List MigRec) : Nat × Nat × Nat × Nat :=
  let f := fates old new m
  let slots := ((f 0).map fun p => match p.2.2.src with
    | some o => if (old.blk o).state = (new.blk p.1).state then 0 else new.slotCount p.1
    | none => 0).sum
  let moved := fun (kind : Nat) => ((f kind).filter fun p => match p.2.2.src with
    | some o => o != p.1
    | none => false).length
  let k := ((f 0).filter fun p => match p.2.2 with
    | .conv _ _ => true
    | _ => false).length
  (slots + moved 1, moved 2 + moved 3 + moved 4 + moved 5, k, (freshWords old new).length)

/-- t_SW in ns (R219). -/
def tSw (old new : Image) (m : List MigRec) : Nat :=
  let c := moveCounts old new m
  1000 + 2 * c.1 + 32 * c.2.1 + 24 * c.2.2.1 + (c.2.2.2 + 3) / 4

/-- Bytes of the migration list (R219). -/
def migListBytes (old new : Image) (m : List MigRec) : Nat :=
  let c := moveCounts old new m
  let runs := (new.signals.filter fun r => ((List.range r.words).map (r.index + ·)).any fun n => old.sigTyp n != some r.typ).length
  8 * (c.1 + c.2.1 + c.2.2.1 + runs)

end Sys2Proof.Machine
end

