-- ==== Sys2Proof/Machine/LoadUnit.lean ====
section
/-!
DEFINITION. Step 5 of Table 2.8, second half: the records of the units (R35, R172, R173, R177, R182, R194, R197, R204, R209, R242, R286 to
R288, R319, R323, R325, R361, R412).
-/
namespace Sys2Proof.Machine

def finPos (w : Word) : Bool := F32.isFin w && Dy.lt ⟨0, 0⟩ (F32.dy w)

/-! ### AXES, CAMS, CASCADES (R204) -/

/-- A limit of a master converts to a positive number (R173). -/
def limOk (w : Word) (p i : Nat) : Bool := finPos w && decide (0 < scaleLim w p i 48)

def checkMasters (g : Image) : Chk :=
  eachRec g 0x07 0 fun i r =>
    let x := masterRec r
    let p := g.period 0
    if !x.present then refuseIf (r != 0) (rej 0x07 0 cBadRecord i)
    else firstOf [
      refuseIf (!(onlyBytes r 64 [(0, 25)]) || decide (1 < fld r 24 1) || x.uid == 0) (rej 0x07 0 cBadRecord i),
      refuseIf (!(limOk x.vMax p 1 && limOk x.aMax p 2 && limOk x.jMax p 3 && limOk x.aQ p 2 && limOk x.jQ p 3)) (rej 0x07 0 cBadRecord i),
      refuseIf (g.masters.any fun q => decide (q.1 < i) && q.2.uid == x.uid) (rej 0x07 0 cDupUid i x.uid)]

/-- The payload words of a slave's polynomial: segment and first word. -/
def polyMeets (a b : SlaveRec) : Bool :=
  a.segment == b.segment && a.segment != 0xFFFF && decide (a.word < b.word + 6) && decide (b.word < a.word + 6)

def checkSlaves (g : Image) : Chk :=
  eachRec g 0x07 1 fun i r =>
    let x := slaveRec r
    let bad := rej 0x07 1 cBadRecord i
    let ref := fun d => rej 0x07 1 cBadRef i d
    if x.mode = 0 then refuseIf (r != 0) bad
    else firstOf [
      refuseIf (!(onlyBytes r 64 [(0, 3), (4, 6), (12, 12)]) || decide (2 < x.mode) || decide (7 < x.master)) bad,
      refuseIf (x.validity == 0 || decide (4 < x.validity) || x.uid == 0) bad,
      refuseIf (!(finPos x.trim) || scaleLim x.trim (g.period 0) 1 32 == 0) bad,
      refuseIf (if x.mode = 1 then x.profile != 0 || x.phi0 != 0 else decide (63 < x.profile)) bad,
      refuseIf (x.mode == 2 && decide ((g.recs 0x08 0).length ≤ x.profile)) bad,
      refuseIf (x.segment != 0xFFFF && decide (4095 < x.segment)) bad,
      refuseIf (!(g.masters.any fun q => q.1 == x.master)) (ref x.master),
      refuseIf (x.segment != 0xFFFF &&
        (decide (g.fsegs.length ≤ x.segment) || !((g.fseg x.segment).down) || decide ((g.fseg x.segment).words < x.word + 6))) (ref x.segment),
      refuseIf (x.segment != 0xFFFF && g.smtOut.any fun e =>
        e.kind == 0 && e.unit == x.segment && spansMeet (e.offset, e.cnt) (x.word, 6)) (rej 0x07 1 cOverlap i),
      refuseIf (g.slaves.any fun q => decide (q.1 < i) && polyMeets q.2 x) (rej 0x07 1 cOverlap i),
      refuseIf (g.slaves.any fun q => decide (q.1 < i) && q.2.uid == x.uid) (rej 0x07 1 cDupUid i x.uid)]

def axisHeld (g : Image) (a : Nat) : Bool :=
  if a < 128 then g.slaves.any fun q => q.1 == a else g.masters.any fun q => q.1 + 128 == a

def checkRegs (g : Image) : Chk :=
  eachRec g 0x07 2 fun i r =>
    let x := regRec r
    let bad := rej 0x07 2 cBadRecord i
    firstOf [
      refuseIf (!(onlyBytes r 32 [(0, 2), (4, 24)]) || decide (127 < x.slave) || decide (135 < x.ref)) bad,
      refuseIf (!(finPos x.gain) || Dy.lt ⟨1, 0⟩ (F32.dy x.gain) || x.limit == 0 || x.uid == 0) bad,
      refuseIf (!(axisHeld g x.slave)) (rej 0x07 2 cBadRef i x.slave),
      refuseIf (!(axisHeld g x.ref)) (rej 0x07 2 cBadRef i x.ref),
      refuseIf (g.regs.any fun q => decide (q.1 < i) && q.2.uid == x.uid) (rej 0x07 2 cDupUid i x.uid)]

def checkCams (g : Image) : Chk :=
  let span := fun (r : Nat) => (fld r 0 4, fld r 4 2)
  let pts := g.recs 0x08 1
  let x := fun (i : Nat) => fld ((pts[i]?).getD 0) 0 4
  eachRec g 0x08 0 fun i r =>
    let f := fld r 0 4
    let m := fld r 4 2
    firstOf [
      refuseIf (!(onlyBytes r 16 [(0, 7), (8, 4)]) || decide (131071 < f) || decide (m < 2) || decide (1 < fld r 6 1)) (rej 0x08 0 cBadRecord i),
      refuseIf (decide (pts.length < f + m)) (rej 0x08 0 cBadRef i (f + m - 1)),
      refuseIf (x f != 0 || (List.range (m - 1)).any fun j => decide (x (f + j + 1) ≤ x (f + j))) (rej 0x08 0 cBadRecord i),
      refuseIf (((g.recs 0x08 0).take i).any fun q => spansMeet (span q) (f, m)) (rej 0x08 0 cOverlap i)]

def checkCascades (g : Image) : Chk :=
  eachRec g 0x09 0 fun i r =>
    let x := cascRec r
    let bad := rej 0x09 0 cBadRecord i
    firstOf [
      refuseIf (decide (63 < x.first) || decide (x.count < 2) || decide (16 < x.count) || decide (1 < fld r 3 1) || x.uid == 0) bad,
      refuseIf (!(finPos x.cMin) || !(F32.isFin x.cMax) || Dy.lt (F32.dy x.cMax) (F32.dy x.cMin)) bad,
      refuseIf (decide ((g.recs 0x09 1).length < x.first + x.count)) (rej 0x09 0 cBadRef i (x.first + x.count - 1)),
      refuseIf (g.cascades.any fun q => decide (q.1 < i) && spansMeet (q.2.first, q.2.count) (x.first, x.count)) (rej 0x09 0 cOverlap i),
      refuseIf (g.cascades.any fun q => decide (q.1 < i) && q.2.uid == x.uid) (rej 0x09 0 cDupUid i x.uid)]

def checkStands (g : Image) : Chk :=
  eachRec g 0x09 1 fun i r =>
    let x := standRec r
    let bad := rej 0x09 1 cBadRecord i
    let sl := g.slave x.slave
    let mine := g.cascades.find? fun q => decide (q.2.first ≤ i) && decide (i < q.2.first + q.2.count)
    firstOf [
      refuseIf (!(onlyBytes r 32 [(0, 2), (4, 8)]) || decide (127 < x.slave) || decide (4 < x.delay)) bad,
      refuseIf (!(finPos x.kMin) || !(F32.isFin x.kMax) || Dy.lt (F32.dy x.kMax) (F32.dy x.kMin)) bad,
      refuseIf (!(axisHeld g x.slave)) (rej 0x09 1 cBadRef i x.slave),
      refuseIf (sl.mode != 1) bad,
      match mine with
      | some q => refuseIf (sl.master != (g.slave (g.stand q.2.first).slave).master) bad
      | none => none,
      refuseIf (((g.recs 0x09 1).take i).any fun q => (standRec q).slave == x.slave) (rej 0x09 1 cOverlap i)]

/-! ### PORTS (R35), FEGER (R286 to R288) -/

def checkPorts (g : Image) : Chk :=
  eachRec g 0x0A 0 fun i r =>
    firstOf [
      refuseIf (fld r 3 1 != 0 || decide (11 < fld r 0 1) || decide (3 < fld r 1 1)) (rej 0x0A 0 cBadRecord i),
      refuseIf (((g.recs 0x0A 0).take i).any fun q => fld q 0 1 == fld r 0 1) (rej 0x0A 0 cOverlap i)]

def checkFeger (g : Image) : Chk :=
  firstOf [
    eachRec g 0x0B 0 fun i r =>
      let x := staRec r
      refuseIf (!(onlyBytes r 32 [(0, 18)]) || x.addr == 0 || x.addr == 0xFFFF || decide (5 < x.ring) || x.pos == 0 || decide (128 < x.pos) ||
        decide (1538 < x.ev)) (rej 0x0B 0 cBadRecord i),
    eachRec g 0x0B 1 fun i r =>
      let x := fSeg r
      firstOf [
        refuseIf (!(onlyBytes r 16 [(0, 6)]) || decide (1 < fld r 2 1) || decide (15 < x.index) || (x.down && decide (359 < x.words))) (rej 0x0B 1 cBadRecord i),
        refuseIf (decide (g.stas.length ≤ x.sta)) (rej 0x0B 1 cBadRef i x.sta)],
    eachRec g 0x0B 2 fun i r =>
      let x := fSlot r
      firstOf [
        refuseIf (decide (5 < x.ring) || decide (3 < x.kind) || (decide (2 ≤ x.kind) && x.ref != 0) ||
          (x.kind != 0 && decide (g.period 0 ≤ x.start))) (rej 0x0B 2 cBadRecord i),
        refuseIf (x.kind == 1 && decide (g.stas.length ≤ x.ref)) (rej 0x0B 2 cBadRef i x.ref)]]

/-! ### CAN (R323, R325) -/

/-- Nominal timing obeys R323; the fields hold each value less one. -/
def nbtOk (n : Nat) : Bool :=
  decide (bits n 0 10 ≤ 511) && decide (1 ≤ bits n 10 8) && decide (bits n 25 7 ≤ bits n 18 7) &&
  decide (2000 ≤ bitHalfN n) && decide (bitHalfN n ≤ 200000)

/-- Data timing obeys R323. -/
def dbtOk (n d : Nat) : Bool :=
  bits d 18 14 == 0 && decide (bits d 14 4 ≤ bits d 10 4) && decide (250 ≤ bitHalfD d) && decide (bitHalfD d ≤ bitHalfN n)

def checkCan (g : Image) : Chk :=
  firstOf [
    eachRec g 0x0C 0 fun i r =>
      let mode := fld r 1 1
      let nbt := fld r 4 4
      let dbt := fld r 8 4
      firstOf [
        refuseIf (!(onlyBytes r 32 [(0, 16)]) || decide (15 < fld r 0 1) || decide (2 < mode) || decide (7 < fld r 2 1) || decide (127 < fld r 3 1))
          (rej 0x0C 0 cBadRecord i),
        refuseIf (mode != 0 && !(nbtOk nbt)) (rej 0x0C 0 cBadRecord i),
        refuseIf (mode == 1 && dbt != 0) (rej 0x0C 0 cBadRecord i),
        refuseIf (mode == 2 && !(dbtOk nbt dbt)) (rej 0x0C 0 cBadRecord i),
        refuseIf (((g.recs 0x0C 0).take i).any fun q => fld q 0 1 == fld r 0 1) (rej 0x0C 0 cOverlap i)],
    eachRec g 0x0C 1 fun i r =>
      let m := canMsg r
      let bad := rej 0x0C 1 cBadRecord i
      firstOf [
        refuseIf (!(onlyBytes r 16 [(0, 7), (8, 4)]) || decide (15 < m.unit) || decide (1 < fld r 5 1)) bad,
        refuseIf (!m.ide && decide (2047 < m.id)) bad,
        refuseIf (!(decide (m.len ≤ 8) || (m.fdf && [12, 16, 20, 24, 32, 48, 64].contains m.len))) bad,
        refuseIf (g.canMode m.unit == 0 || ((m.fdf || m.brs) && g.canMode m.unit == 1) || (m.brs && !m.fdf)) bad,
        refuseIf ((g.canMsgs.take i).any fun q => q.unit == m.unit && q.id == m.id && q.ide == m.ide) (rej 0x0C 1 cOverlap i)],
    eachRec g 0x0C 2 fun i r =>
      let id := fld r 4 4
      let bad := rej 0x0C 2 cBadRecord i
      firstOf [
        refuseIf (!(onlyBytes r 16 [(0, 12)]) || decide (15 < fld r 0 1) || decide (7 < fld r 1 1) || decide (2 < fld r 2 1) ||
          !(clsOk g (fld r 2 1)) || !([0, 1, 3, 7, 15, 31, 63].contains (fld r 3 1))) bad,
        refuseIf (bits id 0 3 != 0 || bits id 30 2 != 0 || (!(bit id 29) && bits id 11 18 != 0)) bad,
        refuseIf (decide (g.period (fld r 2 1) ≤ fld r 8 4) || g.canMode (fld r 0 1) == 0) bad,
        refuseIf (((g.recs 0x0C 2).take i).any fun q => fld q 0 1 == fld r 0 1) (rej 0x0C 2 cOverlap i)]]

/-! ### IO (R361), TRIG (R319) -/

def checkIo (g : Image) : Chk :=
  firstOf [
    eachRec g 0x0D 0 fun i r =>
      let c := fld r 0 1
      let f := fld r 1 1
      refuseIf (!(onlyBytes r 8 [(0, 2)]) || (if i < 32 then decide (5 < c) || f != 0 else decide (1 < c) || decide (3 < f))) (rej 0x0D 0 cBadRecord i),
    eachRec g 0x0D 1 fun i r =>
      refuseIf (!(onlyBytes r 16 [(0, 2)]) || decide (2 < fld r 0 1) || decide (3 < fld r 1 1)) (rej 0x0D 1 cBadRecord i),
    eachRec g 0x0D 2 fun i r =>
      refuseIf (!(onlyBytes r 16 [(0, 2)]) || decide (3 < fld r 0 1) || decide (1 < fld r 1 1) || (fld r 1 1 == 1 && fld r 0 1 != 2))
        (rej 0x0D 2 cBadRecord i),
    eachRec g 0x0D 3 fun i r =>
      refuseIf (!(onlyBytes r 8 [(0, 1)]) || decide ((if i < 2 then 3 else 1) < fld r 0 1)) (rej 0x0D 3 cBadRecord i)]

/-- The minimum width of a DO pulse by the channel's mode (R346). -/
def Image.minPulse (g : Image) (ch : Nat) : Nat := if bit (fld (g.io 0 (32 + ch)) 0 1) 0 then 2000 else 200000

def checkTrig (g : Image) : Chk :=
  eachRec g 0x0E 0 fun i r =>
    let x := trigRec r
    let bad := rej 0x0E 0 cBadRecord i
    firstOf [
      refuseIf (decide (15 < x.trig) || x.target == 0 || decide (3 < x.target) || decide (2 < x.cls) || !(clsOk g x.cls)) bad,
      refuseIf ([0, 1, 2].any fun k => x.trig == 13 + k && g.hasCls k) bad,
      refuseIf (x.every == 0 || decide (g.period x.cls ≤ x.phase)) bad,
      refuseIf (match x.target with
        | 1 => decide (255 < x.arg) || x.width != 0
        | 2 => decide (31 < x.arg) || decide (x.width < g.minPulse x.arg) || decide (2 ^ 31 < x.width)
        | _ => decide (15 < x.arg) || decide (2 ^ 31 < x.width)) bad,
      refuseIf ((g.trigRecs.take i).any fun q => q.trig == x.trig) (rej 0x0E 0 cOverlap i)]

/-! ### REDUND (R242), APPART (R412) -/

def checkRedund (g : Image) : Chk :=
  eachRec g 0x0F 0 fun i r =>
    let hold := fld r 4 4
    let runs := (List.range 4).map fun j => (fld r (16 + 8 * j) 4, fld r (20 + 8 * j) 4)
    firstOf [
      refuseIf (!(onlyBytes r 64 [(0, 3), (4, 8), (16, 32)]) || decide (2 < fld r 0 1) || decide (1 < fld r 1 1) || decide (1 < fld r 2 1))
        (rej 0x0F 0 cBadRecord i),
      refuseIf (!(hold == 0 || (decide (10 ≤ hold) && decide (hold ≤ 86400))) || fld r 8 4 == 0) (rej 0x0F 0 cBadRecord i),
      refuseIf (runs.any fun p => decide (131071 < p.1) || decide (131072 < p.2)) (rej 0x0F 0 cBadRecord i),
      match (runs.flatMap fun p => (List.range p.2).map (p.1 + ·)).find? fun n => (g.sigTyp n).isNone with
      | some n => some (rej 0x0F 0 cBadRef i n)
      | none => none]

def checkAppart (g : Image) : Chk :=
  eachRec g 0x10 0 fun i r =>
    let base := fld r 0 4
    let size := fld r 4 4
    let ms := fld r 8 4
    let at' := fld r 12 4
    let meets := fun (a n : Nat) => spansMeet (base, size) (a, n)
    refuseIf (!(onlyBits at' 4 [(31, 1), (8, 1), (4, 3), (0, 3)]) || !(bit at' 31) || decide (7 < ms) || bit at' 4 || bit at' 5 ||
      size == 0 || decide (2 ^ 32 < base + size) || meets 0 0x60000 || meets 0x08000000 0x1000000) (rej 0x10 0 cBadRecord i)

/-! ### MIGRATE (R209) -/

def migKey (m : MigRec) : Nat := (m.kind * 2 ^ 32 + m.uid) * 2 ^ 16 + m.oldStep

/-- Steps of a chain by uid. -/
def Image.chainCount (g : Image) (uid : Nat) : Nat := ((g.chains.find? fun c => c.uid == uid).map (·.count)).getD 0

def checkMigrate (old new : Image) (recs : List Nat) : Chk :=
  let l := recs.map migRec
  firstOf (recs.zipIdx.map fun p =>
    let r := p.1
    let i := p.2
    let m := migRec r
    let bad := rej 0x11 0 cBadRecord i
    let ref := fun d => rej 0x11 0 cBadRef i d
    let dup := rej 0x11 0 cDupUid i m.uid
    let newB := (new.entPos m.kind m.uid).map new.blk
    let oldB := fun u => (old.entPos m.kind u).map old.blk
    let differ := fun u => match newB, oldB u with
      | some a, some b => a.ident != b.ident
      | _, _ => false
    let allow := fun u => match newB, oldB u with
      | some a, some b => convAllows m.conv b.typ a.typ
      | _, _ => true
    firstOf [
      refuseIf (fld r 7 1 != 0 || decide (5 < m.kind) || m.action == 0 || decide (4 < m.action) || decide (5 < m.conv)) bad,
      refuseIf (m.kind != 0 && (m.action == 1 || m.conv != 0)) bad,
      refuseIf (m.action == 4 && m.kind != 1) bad,
      refuseIf ((m.action != 3 && m.fromUid != 0) || (m.action != 4 && (m.oldStep != 0 || m.newStep != 0)) ||
        ((m.action == 2 || m.action == 4) && m.conv != 0)) bad,
      refuseIf (i != 0 && decide (migKey m < migKey ((l[i - 1]?).getD m))) bad,
      refuseIf ((new.entPos m.kind m.uid).isNone) (ref m.uid),
      refuseIf (m.action == 3 && (old.entPos m.kind m.fromUid).isNone) (ref m.fromUid),
      refuseIf ((m.action == 1 || m.action == 4) && (old.entPos m.kind m.uid).isNone) (ref m.uid),
      refuseIf (m.action == 1 && !(allow m.uid)) bad,
      refuseIf (m.action == 3 && m.kind == 0 && differ m.fromUid && (m.conv == 0 || !(allow m.fromUid))) bad,
      refuseIf (m.action == 4 && (decide (new.chainCount m.uid ≤ m.newStep) || decide (old.chainCount m.uid ≤ m.oldStep))) bad,
      refuseIf ((l.take i).any fun q => q.kind == m.kind && q.uid == m.uid && !(q.action == 4 && m.action == 4 && q.oldStep != m.oldStep)) dup,
      refuseIf (m.action == 3 && (l.take i).any fun q => q.action == 3 && q.kind == m.kind && q.fromUid == m.fromUid) dup,
      refuseIf (m.action == 3 && (old.entPos m.kind m.uid).isSome) dup])

/-! ### The whole of step 5 -/

/-- The parts in directory order. -/
def checkRecords (g : Image) : Chk :=
  firstOf [checkClassRec g, checkSignals g, checkSmap g, checkBlocks g, checkOrderRec g, checkChains g, checkSteps g, checkMasters g,
    checkSlaves g, checkRegs g, checkCams g, checkCascades g, checkStands g, checkPorts g, checkFeger g, checkCan g, checkIo g, checkTrig g,
    checkRedund g, checkAppart g]

/-- Patch records themselves: target bits 30:24 are 0, a removal has a body of zeros and names a record (R37). -/
def checkPatch (typ partByte : Nat) (start : Nat) (recs : List Nat) : Chk :=
  let step := fun (a : Nat × Chk) (p : Nat × Nat) =>
    let t := fld p.1 0 4
    let rem := bit t 31
    let pos := bits t 0 24
    let bad := bits t 24 7 != 0 || (rem && (p.1 / 2 ^ 32 != 0 || decide (a.1 ≤ pos)))
    let n := if rem then a.1 - 1 else max a.1 (pos + 1)
    (n, match a.2 with
      | some x => some x
      | none => refuseIf bad (rej typ partByte cBadRecord p.2))
  (recs.zipIdx.foldl step (start, none)).2

/-- A refusal in a patch part names the patch record that the record came from, and the part with its patch bit (R41). PARALLEL_PP and ART_OVERLAP
name a channel and a rule, not a record. -/
def renumber (np : List NewPart) (r : LoadRes) : LoadRes :=
  match np.find? fun p => p.patch && p.typ == r.typ && p.part == r.part with
  | none => r
  | some p => { r with part := r.part + 128, index := if r.code = 0x1C ∨ r.code = 0x1D then r.index else match p.recs[r.index]? with
      | some (_, some k) => k
      | _ => r.index }

end Sys2Proof.Machine
end

