-- ==== Sys2Proof/Machine/LoadNet.lean ====
section
/-!
DEFINITION. Steps 6 to 9 of Table 2.8: classes and evaluation order (R32, R34, R69, R90), hardware rules (R35, R289, R295, R313, R329, R353, R405),
worst-case evaluation time (R42, R133, R201, R220) and class C admission (R43).
-/
namespace Sys2Proof.Machine

/-! ### Step 6: classes and order -/

/-- The range of n of a class (Table 3.1). -/
def nRange (k : Nat) : Nat × Nat := match k with
  | 0 => (2, 256)
  | 1 => (4, 1024)
  | _ => (8, 2048)

def clsRuleOk (g : Image) (k : Nat) : Bool :=
  let mine := (g.recs 0x01 0).filter fun r => fld r 0 1 == k
  match mine with
  | [] => k != 0
  | [_] =>
    let n := g.ticks k
    if k = 3 then n == 0 && g.relofs 3 == 0
    else
      let base := if k = 2 && g.hasCls 1 then g.ticks 1 else g.ticks 0
      decide ((nRange k).1 ≤ n) && decide (n ≤ (nRange k).2) && (k == 0 || (base != 0 && n % base == 0)) &&
        decide (g.relofs k + 8000 ≤ g.period k)
  | _ => false

def checkClasses (g : Image) : Chk :=
  firstOf ([0, 1, 2, 3].map fun k => refuseIf (!(clsRuleOk g k)) { code := 0x1B, step := 6, typ := 0x01, index := k })

/-- What the checks of the order remember: class of the record before, blocks named, reads and writes of the present wave, writers. -/
structure OrdAcc where
  cls : Option Nat := none
  seen : List Nat := []
  reads : List Nat := []
  writes : List Nat := []
  owner : List (Nat × Nat) := []
  deriving DecidableEq, Repr

def ordStep (g : Image) (a : OrdAcc) (o : OrdRec) : Option OrdAcc :=
  let e := g.blk o.block
  let first := a.cls != some o.cls
  let asc := match a.cls with
    | some c => decide (c ≤ o.cls)
    | none => true
  let rd := g.blkReads o.block
  let wr := g.blkWrites o.block
  let reads := if o.start then [] else a.reads
  let writes := if o.start then [] else a.writes
  if e.ext || e.cls != o.cls || a.seen.contains o.block || !asc || (first && !o.start) ||
      rd.any (writes.contains ·) || wr.any (fun n => reads.contains n || writes.contains n) ||
      wr.any (fun n => a.owner.any fun p => p.1 == n && p.2 != o.cls) then none
  else some { cls := some o.cls, seen := o.block :: a.seen, reads := rd ++ reads, writes := wr ++ writes
              owner := wr.map (fun n => (n, o.cls)) ++ a.owner }

def checkOrderFrom (g : Image) : Nat → OrdAcc → List OrdRec → Chk
  | i, a, [] =>
    match (List.range g.blkCount).find? fun k => !((g.blk k).ext) && !(a.seen.contains k) with
    | some k => some { code := 0x1A, step := 6, typ := 0x05, index := i, detail := k }
    | none => none
  | i, a, o :: l =>
    match ordStep g a o with
    | some b => checkOrderFrom g (i + 1) b l
    | none => some { code := 0x1A, step := 6, typ := 0x05, index := i }

def checkOrder (g : Image) : Chk := checkOrderFrom g 0 {} g.order

/-! ### Step 7: I/O, access rules, port roles -/

def checkParallel (g : Image) : Chk :=
  firstOf ((g.recs 0x0D 0).zipIdx.map fun p =>
    refuseIf (decide (32 ≤ p.2) && bit (fld p.1 0 1) 0 && bit (fld p.1 1 1) 0) { code := 0x1C, step := 7, typ := 0x0D, index := p.2 })

/-- An access rule: base, size, masters, attributes. -/
structure ArtRule where
  base : Nat
  size : Nat
  ms : Nat
  attr : Nat
  deriving DecidableEq, Repr

def ArtRule.on (r : ArtRule) : Bool := bit r.attr 31

/-- Two enabled rules overlap (R405). -/
def artOverlap (a b : ArtRule) : Bool :=
  a.on && b.on && spansMeet (a.base, a.size) (b.base, b.size) &&
  (List.range 17).any fun m => bit a.ms m && bit b.ms m && (decide (2 ≤ m) || [4, 5, 6].any fun i => bit a.attr i && bit b.attr i)

def Image.appRules (g : Image) : List (Nat × ArtRule) :=
  (numbered (g.recs 0x10 0)).map fun p => (128 + p.1, ⟨fld p.2 0 4, fld p.2 4 4, fld p.2 8 4, fld p.2 12 4⟩)

/-- The firmware rules in force. -/
def fwRules (s : State) : List (Nat × ArtRule) :=
  (List.range 128).map fun i => (i, ⟨(getR s (Reg.ART_BASE i)).toNat, (getR s (Reg.ART_SIZE i)).toNat, (getR s (Reg.ART_MASTERS i)).toNat,
    (getR s (Reg.ART_ATTR i)).toNat⟩)

/-- The first overlapping pair of a list of rules: lower number first. -/
def artPair : List (Nat × ArtRule) → Option (Nat × Nat)
  | [] => none
  | p :: l => match l.find? fun q => artOverlap p.2 q.2 with
    | some q => some (p.1, q.1)
    | none => artPair l

def checkArt (s : State) (g : Image) : Chk :=
  match artPair (((fwRules s).filter fun p => p.2.on) ++ g.appRules) with
  | some p => some { code := 0x1D, step := 7, typ := 0x10, index := p.1, detail := p.2 }
  | none => none

/-- The ptp byte of a port obeys R313. -/
def ptpOk (g : Image) (p : Nat) : Bool :=
  let b := g.ptp p
  let c := b % 8
  let role := g.role p
  let one := bit b 3
  let udp := bit b 4
  let ring := bit b 5
  let other := if p % 2 = 0 then p + 1 else p - 1
  decide (c ≤ 4) && decide (b < 64) && !(role == 1 && (c == 1 || c == 2)) && !(role != 1 && decide (3 ≤ c)) && !(role == 0 && b != 0) &&
  !(role == 2 && b == 0) && !(role == 1 && g.ptp other != b) && !(udp && (one || role == 1)) && !(ring && c != 3 && c != 4)

def checkPortRoles (g : Image) : Chk :=
  firstOf ((List.range 12).map fun p =>
    let other := if p % 2 = 0 then p + 1 else p - 1
    refuseIf ((g.role p == 1 && g.role other != 1) || !(ptpOk g p)) { code := 0x1E, step := 7, typ := 0x0A, index := p })

/-! ### Step 7: the Feger schedule (R289, R295) -/

/-- A frame of the schedule's model: slot record, kind, node that starts it, instant after T0, wire time, and the time the link is occupied. -/
structure Sched where
  recNo : Nat
  kind : Nat
  node : Nat
  start : Nat
  wire : Nat
  occ : Nat
  deriving DecidableEq, Repr

/-- DOWNLINK starts count from D = OC + 6 µs, 2 µs before the next T0 (R288). -/
def dlStart (g : Image) (start : Nat) : Nat := g.period 0 - 2000 + start

/-- Body bytes of a downlink frame. -/
def dlFrameBody (segs : List (Nat × FSeg)) : Nat := 32 + (segs.map fun p => p.2.dlBytes).sum

/-- The frame of a slot record of an image, with the downlink sent by a node. -/
def slotFrame (g : Image) (k owner n : Nat) (q : Nat × FSlot) : Option Sched :=
  let x := q.2
  let mk := fun (node start body ev : Nat) =>
    { recNo := q.1, kind := x.kind, node := node, start := start, wire := 8 * fgrWire body, occ := 8 * (fgrWire body + ev) : Sched }
  match x.kind with
  | 0 => ((g.dlFrames k)[x.ref]?).map fun segs => mk owner (dlStart g x.start) (dlFrameBody segs) 0
  | 1 => some (mk (g.sta x.ref).pos x.start (g.upBody x.ref) (g.sta x.ref).ev)
  | 2 => some (mk 0 x.start 12 0)
  | _ => some (mk (n + 1) x.start 12 0)

/-- The frames of a ring's schedule. -/
def ringSched (g : Image) (k owner : Nat) : List Sched :=
  (g.fslots.filter fun q => q.2.ring == k).filterMap (slotFrame g k owner (g.stasOn k).length)

/-- Hops from node a to node b in a direction on a ring of m nodes. -/
def hops (m a b : Nat) (up : Bool) : Nat := if up then (b + m - a % m) % m else (a + m - b % m) % m

/-- Two half-open spans that recur with a period meet. -/
def recurMeet (p s1 w1 s2 w2 : Nat) : Bool :=
  let d := (s2 + p - s1 % p) % p
  decide (d < w1) || decide (p < d + w2) || decide (p ≤ w1) || decide (p ≤ w2)

/-- Two frames occupy one link direction at once. -/
def schedMeet (p m : Nat) (a b : Sched) : Bool :=
  [true, false].any fun up => (List.range m).any fun x =>
    recurMeet p (a.start + 1200 * hops m a.node x up) a.occ (b.start + 1200 * hops m b.node x up) b.occ

/-- The first frame that meets an earlier one. -/
def schedClash (p m : Nat) : List Sched → List Sched → Option Nat
  | _, [] => none
  | prev, f :: l => if prev.any fun e => schedMeet p m e f then some f.recNo else schedClash p m (f :: prev) l

def badSched (part index code : Nat) : LoadRes := { code := 0x1F, step := 7, typ := 0x0B, part := part, index := index, detail := code }

/-- When the copies of a frame end at a node, ns after T0: in both directions; at its own node after the whole loop. -/
def copyEnds (m : Nat) (f : Sched) (node : Nat) : List Nat :=
  [true, false].map fun up => let h := hops m f.node node up; f.start + 1200 * (if h = 0 then m else h) + f.wire

/-- Release offset of a segment's class; BACKGROUND goes out at the FAST OR. -/
def Image.segOfs (g : Image) (i : Nat) : Nat := let k := g.segCls i; if k = 3 then g.relofs 0 else g.relofs k

/-- Code 2: a copy of a downlink frame ends at a station it carries a segment for later than 2 µs before the release. -/
def lateDownlink (g : Image) (k m : Nat) (f : Sched) (ref : Nat) : Bool :=
  f.kind == 0 && ((g.dlFrames k)[ref]?).any fun segs => segs.any fun s =>
    (copyEnds m f (g.sta s.2.sta).pos).any fun e => decide (g.period 0 + g.segOfs s.1 < e + 2000)

/-- Station rules of a ring (codes 5, 6, 8, 9). -/
def checkStations (g : Image) (k : Nat) : Chk :=
  let l := g.stasOn k
  let n := l.length
  firstOf (l.map fun p =>
    let i := p.1
    let x := p.2
    let segs := g.fsegs.filter fun q => q.2.sta == i
    firstOf [
      refuseIf (!(g.ringUsed k)) (badSched 0 i 6),
      refuseIf (decide (128 < n) || decide (n < x.pos) || l.any fun q => decide (q.1 < i) && (q.2.pos == x.pos || q.2.addr == x.addr))
        (badSched 0 i 5),
      refuseIf (!(segs.any fun q => q.2.down && q.2.index == 0) || decide (1480 < g.upBody i)) (badSched 0 i 8),
      match segs.find? fun q => segs.any fun r => decide (r.1 < q.1) && r.2.down == q.2.down && r.2.index == q.2.index with
      | some q => some (badSched 1 q.1 8)
      | none => none,
      refuseIf ((g.fslots.filter fun q => q.2.kind == 1 && q.2.ref == i && q.2.ring == k).length != 1) (badSched 0 i 9)])

/-- Slots of a ring: one DOWNLINK slot per packed frame, one CRICKET slot of each module, none on a ring that is not used (code 7). -/
def checkSlots (g : Image) (k : Nat) : Chk :=
  let l := g.fslots.filter fun q => q.2.ring == k
  let frames := (g.dlFrames k).length
  let used := g.ringUsed k
  let no := fun (kind ref : Nat) => (l.filter fun q => q.2.kind == kind && q.2.ref == ref).length
  let missing := used && ((List.range frames).any (fun f => no 0 f == 0) || no 2 0 == 0 || no 3 0 == 0)
  firstOf (l.map (fun q =>
    refuseIf (!used || (q.2.kind == 0 && decide (frames ≤ q.2.ref)) || (q.2.kind != 1 && l.any fun r =>
      decide (r.1 < q.1) && r.2.kind == q.2.kind && r.2.ref == q.2.ref) || (q.2.kind == 1 && (g.sta q.2.ref).ring != k)) (badSched 2 q.1 7)) ++
    [refuseIf missing (badSched 2 g.fslots.length 7)])

/-- The timing of a ring with the downlink sent by a node (codes 1 to 4). -/
def checkRingTime (g : Image) (k owner : Nat) : Chk :=
  let n := (g.stasOn k).length
  let m := n + 2
  let p := g.period 0
  let l := ringSched g k owner
  firstOf ([match schedClash p m [] l with
      | some r => some (badSched 2 r 1)
      | none => none] ++
    l.map fun f =>
      let ref := ((g.fslots.find? fun q => q.1 == f.recNo).map (·.2.ref)).getD 0
      firstOf [
        refuseIf (lateDownlink g k m f ref) (badSched 2 f.recNo 2),
        refuseIf (f.kind != 0 && [0, n + 1].any fun e => (copyEnds m f e).any fun x => decide (p ≤ x)) (badSched 2 f.recNo 3),
        refuseIf (f.kind == 0 && (List.range m).any fun e => (copyEnds m f e).any fun x => decide (p + p - 8000 ≤ x)) (badSched 2 f.recNo 4)])

/-- A delta also passes the model with the old uplink slots and the new downlink slots (R295). -/
def checkMixed (old new : Image) (k owner : Nat) : Chk :=
  let n := (new.stasOn k).length
  let ups := (old.fslots.filter fun q => q.2.ring == k && q.2.kind == 1).filterMap (slotFrame old k owner n)
  let rest := (new.fslots.filter fun q => q.2.ring == k && q.2.kind != 1).filterMap (slotFrame new k owner n)
  match schedClash (new.period 0) (n + 2) [] (ups ++ rest) with
  | some r => some (badSched 2 r 1)
  | none => none

def checkFegerSched (old : Option Image) (g : Image) : Chk :=
  firstOf ((List.range 6).map fun k =>
    let n := (g.stasOn k).length
    firstOf [checkStations g k, checkSlots g k, checkRingTime g k 0, checkRingTime g k (n + 1),
      match old with
      | some o => firstOf [checkMixed o g k 0, checkMixed o g k (n + 1)]
      | none => none])

/-! ### Step 7: the CAN schedule (R329) -/

/-- A class C span on a channel: part and record, phase after T0 of its class, length, period, the release offset it counts from. -/
structure CanSpan where
  part : Nat
  recNo : Nat
  start : Nat
  len : Nat
  period : Nat
  deriving DecidableEq, Repr

/-- The class of a transmit message, BACKGROUND taken as FAST. -/
def Image.msgClass (g : Image) (i : Nat) : Nat :=
  let k := match g.smtOut.find? fun e => e.kind == 2 && e.unit == i with
    | some e => g.entCls e
    | none => 0
  if k = 3 then 0 else k

/-- Spans of a channel: messages from OR + time, the reference message from T0 + offset. -/
def Image.canSpans (g : Image) (u : Nat) : List CanSpan :=
  let r := (g.canRec u).getD 0
  let nbt := fld r 4 4
  let dbt := fld r 8 4
  ((g.canTx u).map fun p =>
    let k := g.msgClass p.1
    { part := 1, recNo := p.1, start := g.period k + g.relofs k + p.2.time, len := frameNs nbt dbt p.2.ide p.2.fdf p.2.brs p.2.len
      period := g.period k }) ++
  (match g.canRef u with
   | some x => [{ part := 2, recNo := ((g.recs 0x0C 2).findIdx? fun r => fld r 0 1 == u).getD 0, start := x.offset
                  len := frameNs nbt dbt x.ide false false 1, period := g.period x.cls }]
   | none => [])

/-- Closed spans that recur meet; of two periods one is a multiple of the other. -/
def canMeet (a b : CanSpan) : Bool :=
  let p := max 1 (min a.period b.period)
  let d := (b.start + p - a.start % p) % p
  decide (d ≤ a.len) || decide (p ≤ d + b.len)

def canClash : List CanSpan → List CanSpan → Option CanSpan
  | _, [] => none
  | prev, f :: l => if prev.any fun e => canMeet e f then some f else canClash (f :: prev) l

def checkCanSched (g : Image) : Chk :=
  let bad := fun (part index code : Nat) => { code := 0x1F, step := 7, typ := 0x0C, part := part, index := index, detail := code : LoadRes }
  firstOf ((List.range 16).map fun u =>
    let l := g.canSpans u
    let tx := g.canTx u
    firstOf [
      match canClash [] l with
      | some f => some (bad f.part f.recNo 16)
      | none => none,
      match l.find? fun f => f.part == 1 && decide (2 * f.period < f.start + f.len + 8000) with
      | some f => some (bad 1 f.recNo 17)
      | none => none,
      match tx[24]? with
      | some p => some (bad 1 p.1 18)
      | none => none])

def checkHardware (s : State) (old : Option Image) (g : Image) : Chk :=
  firstOf [checkParallel g, checkArt s g, checkPortRoles g, checkFegerSched old g, checkCanSched g]

/-! ### Step 8: worst-case evaluation time (R42) -/

/-- W of a wave: the busiest unit's sum. -/
def waveMax (g : Image) (u : Nat) (w : List Nat) : Nat :=
  ((List.range u).map fun i => ((w.zipIdx.filter fun p => p.2 % u == i).map fun p => g.cost p.1).sum).foldl max 0

/-- Step Sequencer cost of a class in CORE clocks (R133). -/
def Image.seqCost (g : Image) (k : Nat) : Nat :=
  ((g.clsChains k).map fun p => 8 + 2 * (if (List.range p.2.count).any fun i => (g.step p.2 i).tbEn then 2 else 1)).sum

/-- F_j in ns. -/
def Image.fDemand (g : Image) (j : Nat) : Nat :=
  let u := if g.split then 16 else 8
  2 * (((g.waves j).map fun w => waveMax g u w + 4).sum + g.seqCost j) + 6000 + (if j = 0 then tLse g else 0)

/-- D_k in ns. -/
def Image.demand (g : Image) (k : Nat) : Nat :=
  ((List.range (k + 1)).map fun j => if g.hasCls j then g.period k / max 1 (g.period j) * g.fDemand j else 0).sum

/-- TIMING of a class. The fields that R41 does not name are the model's (notes/assumptions/99.md). -/
def timing (k d p : Nat) : LoadRes := { code := 0x20, step := 8, typ := 0x01, index := k, detail := d, limit := p * 4 / 5 }

def checkTiming (g : Image) : Chk :=
  firstOf ([0, 1, 2].map fun k => refuseIf (g.hasCls k && decide (4 * g.period k < 5 * g.demand k)) (timing k (g.demand k) (g.period k)))

/-- R220: the switch and the switch back. -/
def checkSwitchTime (old new : Image) (m : List MigRec) : Chk :=
  let a := tSw old new m
  let b := tSw new old (m.map MigRec.back)
  firstOf ([0, 1, 2].map fun k =>
    let d := max (new.demand k + a) (old.demand k + b)
    refuseIf (new.hasCls k && decide (4 * new.period k < 5 * d)) (timing k d (new.period k)))

/-! ### Step 9: class C admission (R43, Table 2.10) -/

def Image.raw (g : Image) : List (Nat × Nat × List Nat) := g.parts.map fun p => (p.typ, p.part, p.recs)

/-- Wire bytes that pass a ring port in one FAST period: each frame of the schedule once (R279). -/
def Image.ringBytes (g : Image) (k : Nat) : Nat := ((ringSched g k 0).map fun f => f.wire / 8).sum

/-- The CAN time of the worst FAST period: the lengths of the spans that start in it. -/
def Image.canWorst (g : Image) (u : Nat) : Nat :=
  let p := max 1 (g.period 0)
  let l := g.canSpans u
  let longest := ([0, 1, 2].map g.period).foldl max p
  ((List.range (longest / p)).map fun j =>
    ((l.filter fun f => (f.start % max 1 f.period) / p == j % max 1 (f.period / p)).map (·.len)).sum).foldl max 0

/-- Input words that a class's snapshot assembles (R151). -/
def Image.inWords (g : Image) (k : Nat) : Nat :=
  (((g.smtIn.flatMap fun e => (List.range e.words).map (e.sig + ·)).eraseDups).filter fun n => g.clsReads k n).length

/-- Output words that a cycle of a class commits. -/
def Image.outWords (g : Image) (k : Nat) : Nat := ((g.smtOut.filter fun e => g.entCls e == k).map (·.words)).sum

/-- Admission (step 9). The fields that R41 does not name are the model's (notes/assumptions/99.md). -/
def checkAdmission (s : State) (g : Image) : Chk :=
  let p := g.period 0
  let bad := fun (code unit d lim : Nat) => refuseIf (decide (lim < d)) { code := code, step := 9, index := unit, detail := d, limit := lim }
  let ports := fun code => (List.range 12).map fun i => if g.role i = 1 then bad code i (g.ringBytes (i / 2)) (p / 10) else none
  let cls := [0, 1, 2, 3].filter g.hasCls
  firstOf (ports 0x21 ++ ports 0x22 ++
    (List.range 16).map (fun u => bad 0x23 u (g.canWorst u) (p * 4 / 5)) ++
    (cls.filter (· != 3)).map (fun k => bad 0x24 k (Config.classCDemand g.raw 0x24 k) (g.period k * 512 / 5)) ++
    cls.map (fun k => bad 0x25 k (g.inWords k) 24000) ++
    cls.map (fun k => bad 0x26 k (g.outWords k) 32000) ++
    [bad 0x27 0 (Config.classCDemand g.raw 0x27 0) 4096] ++
    (List.range 128).map (fun q => bad 0x28 q (Config.classCDemand g.raw 0x28 q) (2 ^ getF s (Reg.QUE_CFG q) Reg.QUE_CFG_size_log2)))

end Sys2Proof.Machine
end

