-- ==== Sys2Proof/Machine/Loader.lean ====
section
/-!
DEFINITION. The loader (R39 to R44): the ten steps of Table 2.8 over a container in the Central Store, and what a verification leaves.
-/
namespace Sys2Proof.Machine

/-! ### Security state and image keys (R39, R413, R416) -/

/-- A key slot that may be used for a purpose: valid and not revoked. -/
def keyUsable (s : State) (i purpose : Nat) : Bool :=
  flag s (Reg.SEC_KEY_CTL i) Reg.SEC_KEY_CTL_valid && !(flag s (Reg.SEC_KEY_CTL i) Reg.SEC_KEY_CTL_revoked) &&
  getF s (Reg.SEC_KEY_CTL i) Reg.SEC_KEY_CTL_purpose == purpose

/-- The public key of a slot. -/
def keyPub (s : State) (i : Nat) : List Byte := (List.range 8).flatMap fun j => leBytes 4 (getR s (Reg.SEC_KEY_PUB i j)).toNat

/-- The installed image key with a key_id. -/
def imageKey (s : State) (id : Nat) : Option (List Byte) :=
  ((List.range 8).find? fun i => keyUsable s i 0 && (getR s (Reg.SEC_KEY_ID i)).toNat == id).map (keyPub s)

/-- Step 2: the signature. -/
def checkSignature (s : State) (rd : Rd) : Chk :=
  let h := header rd
  let o := h.total - 72
  let id := rd.num o 4
  if h.signed then
    match imageKey s id with
    | none => some { code := 0x0A, step := 2, detail := id }
    | some k => refuseIf (rd.num (o + 4) 4 != 0 || !(ed25519 k (rd 0 o) (rd (o + 8) 64))) { code := 0x08, step := 2, detail := id }
  else refuseIf (secState s == 1) { code := 0x09, step := 2 }

/-! ### Steps 3, 4 and 10 -/

/-- The module states in which an image may be verified (Table 2.12). -/
def verifyState (m : Mode) (delta : Bool) : Bool :=
  match m with
  | .boot => false
  | .hold | .detached | .safe | .service => !delta
  | .standby => true
  | .active | .solo => delta

/-- Step 3 (R31, R36 to R38, R207); at boot the module state is not looked at (R437). -/
def checkApplies (s : State) (boot : Bool) (rd : Rd) : Chk :=
  let h := header rd
  let d := dirEnts rd
  let has := fun t p => d.any fun e => e.typ == t && e.part == p
  let at' := fun (code : Nat) (t p : Nat) => { code := code, step := 3, typ := t, part := p : LoadRes }
  firstOf ([
    refuseIf (!boot && (!(verifyState s.mode h.delta) || (h.delta && s.xch.st != .none)))
      { code := 0x0C, step := 3, detail := s.mode.code },
    refuseIf (h.delta && h.base != s.img.id) { code := 0x0D, step := 3, detail := s.img.id % 2 ^ 32 },
    refuseIf (decide (s.upd.version.toNat < h.minFw)) { code := 0x0E, step := 3, detail := h.minFw, limit := s.upd.version.toNat }] ++
    (if h.delta then
      (d.filter fun e => [0x01, 0x0A, 0x0F].contains e.typ).map (fun e => some (at' 0x0F e.typ e.partByte)) ++
      [refuseIf (!(has 0x11 0)) (at' 0x10 0x11 0)]
    else
      [refuseIf (has 0x11 0) (at' 0x0F 0x11 0)] ++
      (partRows.filter (·.req)).map fun r =>
        refuseIf (!(has r.typ r.part) || (r.typ == 0x0F && d.any fun e => e.typ == 0x0F && e.count == 0)) (at' 0x10 r.typ r.part)))

/-- Step 4: record counts of the entries and of the parts that result, and the size of the retentive set (R135). -/
def checkCounts (rd : Rd) (np : List NewPart) (g : Image) : Chk :=
  firstOf ((dirEnts rd).map (fun d =>
      match partRow d.typ d.part with
      | some r => firstOf [refuseIf (decide (r.max < d.count)) { code := 0x14, step := 4, typ := d.typ, part := d.partByte, detail := d.count, limit := r.max},
          match np.find? fun p => p.typ == d.typ && p.part == d.part with
          | some p => refuseIf (decide (r.max < p.recs.length))
              { code := 0x14, step := 4, typ := d.typ, part := d.partByte, detail := p.recs.length, limit := r.max }
          | none => none]
      | none => none) ++
    [refuseIf (decide (1048576 < g.retSize)) { code := 0x14, step := 4, typ := 0x02, detail := g.retSize, limit := 1048576 }])

/-- Bytes of a part. -/
def Image.partBytes (g : Image) (typ part : Nat) : Nat := ((partRow typ part).map fun r => r.size * (g.recs typ part).length).getD 0

/-- Staging space of a delta (R44, R219): new and replaced content of the parts it changes, and the migration list. -/
def stagingBytes (old new : Image) (np : List NewPart) (m : List MigRec) : Nat :=
  ((np.filter fun p => p.typ != 0x11).map fun p => new.partBytes p.typ p.part + old.partBytes p.typ p.part).sum + migListBytes old new m

/-- Step 10, with the staging bytes as Detail (notes/assumptions/99.md). -/
def checkSpace (rd : Rd) (old new : Image) (np : List NewPart) (m : List MigRec) : Chk :=
  let h := header rd
  let need := stagingBytes old new np m
  let room := maxContainer - h.total
  refuseIf (h.delta && decide (room < need)) { code := 0x30, step := 10, detail := need, limit := room }

/-! ### The verification -/

/-- What a verification finds: the report, and on success the image, whether it is a delta, its Migration Map and t_SW. -/
structure Verified where
  res : LoadRes
  image : Option Image := none
  delta : Bool := false
  map : List Nat := []
  tsw : Nat := 0
  tBack : Nat := 0
  deriving DecidableEq, Repr

/-- Patch records of the parts (R37), and the Migration Map. -/
def checkParts (s : State) (rd : Rd) : Chk :=
  firstOf ((dirEnts rd).map fun d => if d.patch then checkPatch d.typ d.partByte (s.img.recs d.typ d.part).length (d.recs rd) else none)

/-- The loader's run over a container (R40): the steps in order, stopping at the first failure. -/
def loadVerify (s : State) (boot : Bool) (rd : Rd) (len : Nat) : Verified :=
  match checkContainer rd len <|> checkSignature s rd <|> checkApplies s boot rd with
  | some r => { res := r }
  | none =>
    let h := header rd
    let np := (dirEnts rd).map (newPart s.img rd)
    let g := newImage s.img h np
    let mig := ((np.find? fun p => p.typ == 0x11).map fun p => p.recs.map (·.1)).getD []
    let ms := mig.map migRec
    match checkCounts rd np g <|> checkParts s rd <|> (checkRecords g).map (renumber np) <|>
        (if h.delta then checkMigrate s.img g mig else none).map (renumber np) <|>
        (checkClasses g <|> checkOrder g <|> checkHardware s (if h.delta then some s.img else none) g).map (renumber np) <|>
        checkTiming g <|> (if h.delta then checkSwitchTime s.img g ms else none) <|> checkAdmission s g <|> checkSpace rd s.img g np ms with
    | some r => { res := r }
    | none => { res := {}, image := some g, delta := h.delta, map := mig, tsw := if h.delta then tSw s.img g ms else 0
                tBack := if h.delta then tSw g s.img (ms.map MigRec.back) else 0 }

/-- The report registers (R41). -/
def loadReport (r : LoadRes) (s : State) : State :=
  let s := setR s Reg.CTU_LOAD_RESULT (Reg.CTU_LOAD_RESULT_step.mk' r.step ||| Reg.CTU_LOAD_RESULT_part.mk' r.part |||
    Reg.CTU_LOAD_RESULT_type.mk' r.typ ||| Reg.CTU_LOAD_RESULT_code.mk' r.code)
  let s := setR s Reg.CTU_LOAD_INDEX (BitVec.ofNat 32 r.index)
  let s := setR s Reg.CTU_LOAD_DETAIL (BitVec.ofNat 32 r.detail)
  setR s Reg.CTU_LOAD_LIMIT (BitVec.ofNat 32 r.limit)

/-- A container in the Central Store. -/
def storeRd (s : State) (base : Nat) : Rd := fun o n => ldBytes s.store (base + o) n

/-- A container as a byte string. -/
def listRd (l : List Byte) : Rd := fun o n => let x := slice l o n; x ++ List.replicate (n - x.length) 0

/-- The words that the REC_H_CFG registers name: the recorder roots (R394). -/
def recRootsNow (s : State) : List Nat :=
  (histsOf s 0x80).map fun h => getF s (Reg.REC_H_CFG h) Reg.REC_H_CFG_sig

end Sys2Proof.Machine
end

