-- ==== Sys2Proof/Machine/ImgCommit.lean ====
section
/-!
DEFINITION. What the commit of an image sets (R28 and the image records of every chapter): the registers that the loader writes from the
records (R242, R316 to R319, R324, R327, R360, R404), the gates (R376), the station and message states, and at a full image the program's
memory (R116, R130, R146, R202), overrides, triggers and histograms.
-/
namespace Sys2Proof.Machine

/-! ### Registers set from records -/

/-- DIO_CH_CFG of a channel (Table 14.7). -/
def Image.dioCfg (g : Image) (c : Nat) : Word :=
  let r := g.io 0 c
  if c < 32 then Reg.DIO_CH_CFG_filter.mk' (fld r 0 1)
  else Reg.DIO_CH_CFG_mode.mk' (fld r 0 1) ||| Reg.DIO_CH_CFG_paralleled.mk' (b2n (bit (fld r 1 1) 0)) |||
    Reg.DIO_CH_CFG_ow_en.mk' (b2n (bit (fld r 1 1) 1))

/-- DIO_GRP_CFG of a group. -/
def Image.grpCfg (g : Image) (k : Nat) : Word :=
  let f := fld (g.io 3 k) 0 1
  if k < 2 then Reg.DIO_GRP_CFG_type.mk' f else Reg.DIO_GRP_CFG_policy.mk' f

/-- AO_CFG of a unit. -/
def Image.aoCfg (g : Image) (u : Nat) : Word :=
  let r := g.io 1 u
  Reg.AO_CFG_range.mk' (fld r 0 1) ||| Reg.AO_CFG_paralleled.mk' (b2n (bit (fld r 1 1) 0)) ||| Reg.AO_CFG_ol_en.mk' (b2n (bit (fld r 1 1) 1))

/-- AI_CFG of a unit. -/
def Image.aiCfg (g : Image) (u : Nat) : Word :=
  let r := g.io 2 u
  Reg.AI_CFG_range.mk' (fld r 0 1) ||| Reg.AI_CFG_ow_en.mk' (b2n (bit (fld r 1 1) 0))

/-- The I/O configuration that an image sets (R360). -/
def Image.ioRegs (g : Image) : List (Nat × Word) :=
  ((List.range 64).map fun c => (Reg.DIO_CH_CFG c, g.dioCfg c)) ++ ((List.range 4).map fun k => (Reg.DIO_GRP_CFG k, g.grpCfg k)) ++
  ((List.range 8).map fun u => (Reg.AO_CFG u, g.aoCfg u)) ++ (List.range 8).map fun u => (Reg.AI_CFG u, g.aiCfg u)

/-- The CAN configuration that an image sets (R325). -/
def Image.canRegs (g : Image) : List (Nat × Word) :=
  (List.range 16).flatMap fun u =>
    let r := (g.canRec u).getD 0
    let f := fld r 2 1
    [(Reg.CAN_CFG u, Reg.CAN_CFG_tdco.mk' (fld r 3 1) ||| Reg.CAN_CFG_loopback.mk' (b2n (bit f 2)) ||| Reg.CAN_CFG_tdc_en.mk' (b2n (bit f 1)) |||
        Reg.CAN_CFG_auto_recover.mk' (b2n (bit f 0)) ||| Reg.CAN_CFG_mode.mk' (fld r 1 1)),
     (Reg.CAN_NBT u, BitVec.ofNat 32 (fld r 4 4)), (Reg.CAN_DBT u, BitVec.ofNat 32 (fld r 8 4)), (Reg.CAN_B_TIME u, BitVec.ofNat 32 (fld r 12 4))]

/-- The image owns a trigger: a trigger of R318, or one that a TRIG record names (R319). -/
def Image.ownsTrig (g : Image) (i : Nat) : Bool := (decide (13 ≤ i) && g.hasCls (i - 13)) || g.trigRecs.any fun r => r.trig == i

/-- The registers of one trigger: control, start, period, argument, width. -/
def trigWords (i : Nat) (ctl lo arg width : Word) : List (Nat × Word) :=
  [(Reg.TTRG_CTL i, ctl), (Reg.TTRG_START_LO i, lo), (Reg.TTRG_START_HI i, 0), (Reg.TTRG_PERIOD i, 0), (Reg.TTRG_ARG i, arg),
   (Reg.TTRG_WIDTH i, width)]

/-- The trigger registers that an image sets (R318, R319). -/
def Image.trigRegs (g : Image) : List (Nat × Word) :=
  (List.range 16).flatMap fun i =>
    let ctl := fun (every target cls : Nat) => Reg.TTRG_CTL_image.mk' 1 ||| Reg.TTRG_CTL_every.mk' every ||| Reg.TTRG_CTL_target.mk' target |||
      Reg.TTRG_CTL_class.mk' cls ||| Reg.TTRG_CTL_timing.mk' 3
    if decide (13 ≤ i) && g.hasCls (i - 13) then trigWords i (ctl 1 4 (i - 13)) 0 0 0
    else match g.trigRecs.find? fun r => r.trig == i with
      | some r => trigWords i (ctl r.every r.target r.cls) (BitVec.ofNat 32 r.phase) (BitVec.ofNat 32 r.arg) (BitVec.ofNat 32 r.width)
      | none => []

/-- The registers of the REDUND section (R242). -/
def Image.redRegs (s : State) (g : Image) : List (Nat × Word) :=
  let r := ((g.recs 0x0F 0)[0]?).getD 0
  [(Reg.RED_CFG, Reg.RED_CFG_desig.mk' (fld r 0 1) ||| Reg.RED_CFG_ring_handover.mk' (b2n (bit (fld r 2 1) 0))),
   (Reg.RED_HOLDOFF, BitVec.ofNat 32 (fld r 4 4)), (Reg.RED_PAIR_ID, BitVec.ofNat 32 (fld r 8 4)),
   (Reg.LANE_CFG, Reg.LANE_CFG_solo_policy.put (getR s Reg.LANE_CFG) (fld r 1 1))]

/-- The application rules that an image sets; rules that it does not carry are disabled (R404, R412). -/
def Image.artRegs (s : State) (g : Image) : List (Nat × Word) :=
  (List.range 128).flatMap fun k =>
    let i := 128 + k
    match (g.recs 0x10 0)[k]? with
    | some r => [(Reg.ART_BASE i, BitVec.ofNat 32 (fld r 0 4)), (Reg.ART_SIZE i, BitVec.ofNat 32 (fld r 4 4)),
        (Reg.ART_MASTERS i, BitVec.ofNat 32 (fld r 8 4)), (Reg.ART_ATTR i, BitVec.ofNat 32 (fld r 12 4))]
    | none => [(Reg.ART_ATTR i, Reg.ART_ATTR_enable.put (getR s (Reg.ART_ATTR i)) 0)]

/-- The RO registers that describe the image. -/
def Image.infoRegs (s : State) (g : Image) : List (Nat × Word) :=
  ((List.range 4).flatMap fun k =>
    [(Reg.ENG_CLS_CFG k, Reg.ENG_CLS_CFG_present.mk' (b2n (g.hasCls k)) ||| Reg.ENG_CLS_CFG_n.mk' (if k = 3 then 0 else g.ticks k)),
     (Reg.ENG_CLS_RELOFS k, BitVec.ofNat 32 (if k = 3 then 0 else g.relofs k))]) ++
  [(Reg.IMG_SMT_CNT, Reg.IMG_SMT_CNT_outputs.mk' g.smtOut.length ||| Reg.IMG_SMT_CNT_inputs.mk' g.smtIn.length),
   (Reg.CTU_RUN_ID_LO, BitVec.ofNat 32 g.id), (Reg.CTU_RUN_ID_HI, BitVec.ofNat 32 (g.id / 2 ^ 32)),
   (Reg.QUE_POOL, Reg.QUE_POOL_reserved_c.put (getR s Reg.QUE_POOL) (if g.id = 0 then 0 else Config.classCDemand g.raw 0x27 0))]

/-- Write a list of registers. -/
def setRegs (l : List (Nat × Word)) (s : State) : State := l.foldl (fun (s : State) p => setR s p.1 p.2) s

/-- Every register that an image sets. -/
def Image.allRegs (s : State) (g : Image) : List (Nat × Word) :=
  g.infoRegs s ++ g.ioRegs ++ g.canRegs ++ g.trigRegs ++ g.redRegs s ++ g.artRegs s

/-- Triggers that the replaced image owned and the new one does not are off, and with a full image every software trigger is
(R319); CLASS_START stays with the triggers of R318 only. -/
def trigsOff (full : Bool) (old : Image) (s : State) : State :=
  (List.range 16).foldl (fun (s : State) i =>
    if s.img.ownsTrig i then s
    else if full || old.ownsTrig i then
      let s := if getF s (Reg.TTRG_CTL i) Reg.TTRG_CTL_target = 4 then setF s (Reg.TTRG_CTL i) Reg.TTRG_CTL_target 0 else s
      setB (setF s (Reg.TTRG_CTL i) Reg.TTRG_CTL_timing 0) (Reg.TTRG_CTL i) Reg.TTRG_CTL_image false
    else s) s

/-- A full image turns every histogram of an image word off (R394). -/
def histsOff (s : State) : State := (histsOf s 0x80).foldl (fun (s : State) h => setF s (Reg.REC_H_CFG h) Reg.REC_H_CFG_src 0) s

/-- The registers as they stand after an image's commit, and the image in force. -/
def imageRegs (full : Bool) (g : Image) (s : State) : State :=
  let old := s.img
  let s := setRegs (g.allRegs s) { s with img := g }
  let s := trigsOff full old s
  if full then ovrRecord s (ovrDisable (histsOff s)) else s

/-! ### The commit -/

/-- The trigger's registers differ. -/
def trigMoved (a b : State) (i : Nat) : Bool :=
  [Reg.TTRG_CTL i, Reg.TTRG_START_LO i, Reg.TTRG_START_HI i, Reg.TTRG_PERIOD i, Reg.TTRG_ARG i, Reg.TTRG_WIDTH i].any fun r => getR a r != getR b r

/-- The mode or bit timing of a CAN channel differs (R324). -/
def canMoved (a b : State) (u : Nat) : Bool :=
  getF a (Reg.CAN_CFG u) Reg.CAN_CFG_mode != getF b (Reg.CAN_CFG u) Reg.CAN_CFG_mode || getR a (Reg.CAN_NBT u) != getR b (Reg.CAN_NBT u) ||
  getR a (Reg.CAN_DBT u) != getR b (Reg.CAN_DBT u)

/-- The 256 rules. -/
def artRules (s : State) : List (Nat × ArtRule) :=
  (List.range 256).map fun i => (i, ⟨(getR s (Reg.ART_BASE i)).toNat, (getR s (Reg.ART_SIZE i)).toNat, (getR s (Reg.ART_MASTERS i)).toNat,
    (getR s (Reg.ART_ATTR i)).toNat⟩)

/-- A new rule epoch where any rule has changed (R411). -/
def artEpoch (before : State) (s : State) : State :=
  if artRules before == artRules s then s else { s with art := { s.art with draining := true } }

/-- The period of a CLASS trigger's class differs (R316, R319). -/
def trigClsMoved (a b : State) (i : Nat) : Bool :=
  getF b (Reg.TTRG_CTL i) Reg.TTRG_CTL_timing == 3 &&
    (a.img.hasCls (trigCls b i) != b.img.hasCls (trigCls b i) || a.img.period (trigCls b i) != b.img.period (trigCls b i))

/-- Triggers whose registers or whose class have changed are scheduled anew (R319, R321). -/
def trigsStart (before : State) (s : State) : State :=
  (List.finRange 16).foldl (fun (s : State) (i : Fin 16) => if trigMoved before s i || trigClsMoved before s i then trigArm i s else s) s

/-- What changed registers start: CAN channels off the bus (R324), triggers scheduled anew (R319, R321), a divider ramp (R372). -/
def regsStart (before : State) (s : State) : State :=
  let s := (List.finRange 16).foldl (fun (s : State) (u : Fin 16) => if canMoved before s u then canReconfig u s else s) s
  let s := trigsStart before s
  if divSettled s s.clk then s else { s with clk := { s.clk with ramping := true } }

/-- Stations, downlink segments, CAN receive states and the edge counts of DI at a full image: all start anew (R213, R292, R344). -/
def fieldFull (s : State) : State :=
  let s := stasReset s
  let di := s.io.di.map fun x => ({ x with wait := [], fzRises := 0, fzFalls := 0, fzRise := none, fzFall := none } : DiCh)
  let s := { s with io := { s.io with di := di } }
  let s := setFgr { s with canRx := [] } { s.fgr with segs := [], haveSet := false, sent := [], oldSet := none, oldSlots := none }
  (List.range 64).foldl (fun (s : State) c => setR (setR s (Reg.DIO_CH_RISE c) 0) (Reg.DIO_CH_FALL c) 0) s

/-- Stations, downlink segments and CAN receive states at a delta: what the delta does not change goes on (R213); uplinks are received in the old
slots until T0_sw + 2P, and changed stations count from there (R295). -/
def fieldDelta (old : Image) (t0 : Int) (s : State) : State :=
  let g := s.img
  let till := t0 + 2 * fastP s
  let sta := g.stas.map fun p => (p.1, if (old.recs 0x0B 0)[p.1]? == (g.recs 0x0B 0)[p.1]? then staOf s p.1
    else ({ holdFrom := some till } : Station))
  let segs := s.fgr.segs.filter fun p => (old.recs 0x0B 1)[p.1]? == (g.recs 0x0B 1)[p.1]?
  let rx := s.canRx.filter fun p => (old.recs 0x0C 1)[p.1]? == (g.recs 0x0C 1)[p.1]?
  let sent := s.fgr.oldSet.getD (old, s.fgr.segs)
  recordLost s.fgr.sta (setFgr { s with canRx := rx } { s.fgr with
    sta := sta, segs := segs, oldSlots := some (till, old), oldSet := some sent, before := none })

/-- The lanes' mode at an image commit (R238). -/
def laneForImage (full : Bool) (s : State) : State :=
  if s.img.split then setSplit s true else if full then setSplit s false else s

/-- A full image is committed: container, recorder roots, registers, field states, the program's memory, gates; an exchange that is not PENDING
ends (R207). -/
def commitFull (g : Image) (cont : List Byte) (roots : List Nat) (s : State) : State :=
  let before := s
  let s := imageRegs true g { s with container := cont, recRoots := roots }
  let s := (List.finRange 16).foldl (fun (s : State) (u : Fin 16) => canOwners u s) (regsStart before s)
  let s := laneForImage true (fieldFull s)
  let s := progStart false (progClear { s with retain := { s.retain with t0s := PerCls.all none, baseT0s := PerCls.all none } })
  let s := gatesForImage (artEpoch before s)
  setRed { s with xch := { deferrals := s.xch.deferrals } } { s.red with base := SMap.empty, fullNext := true, ckAt := none, ckImage := 0, ckLast := [] }

/-- The registers and field states of a delta at its switch. -/
def commitDelta (g : Image) (t0 : Int) (s : State) : State :=
  let before := s
  let old := s.img
  let s := imageRegs false g s
  let s := (List.finRange 16).foldl (fun (s : State) (u : Fin 16) => canOwners u s) (regsStart before s)
  gatesForImage (artEpoch before (laneForImage false (fieldDelta old t0 s)))

end Sys2Proof.Machine
end

