-- ==== Sys2Proof/Machine/Ctu.lean ====
section
/-!
DEFINITION. The Configuration Transaction Unit (R45 to R54, R405, R406, R411, R443, R444): staging, locks, commands, the checks of a commit,
and a commit at its boundary.
-/
namespace Sys2Proof.Machine

/-! ### Staging and locks (R46 to R48, R406) -/

def isImageReg (a : Nat) : Bool := a == Reg.CTU_IMAGE_BASE || a == Reg.CTU_IMAGE_LEN

/-- A register of firmware rules 0 to 127. -/
def isRuleReg (a : Nat) : Bool := decide (Reg.ART_BASE 0 ≤ a) && decide (a < Reg.ART_BASE 128)

/-- The transaction holds the rule set: it has staged a rule register or an image register (R406). -/
def Txn.holdsRules (x : Txn) : Bool := x.image || x.staged.any fun p => isRuleReg p.1

/-- The transaction locks a register against every other master. A first image register also takes the rule set
(notes/assumptions/27.md). -/
def Txn.locks (x : Txn) (a : Nat) : Bool :=
  x.st != .idle && ((Tab.get? x.staged a).isSome || (isImageReg a && (x.image || x.holdsRules)) || (isRuleReg a && x.holdsRules))

/-- The other master whose transaction locks a register. -/
def lockHolder (s : State) (m : Master) (a : Nat) : Option Master := masters.find? fun n => n != m && (s.txn.get n).locks a

/-- The largest number of registers that a transaction stages (R47). -/
def stagedMax : Nat := 4096

/-- A write to a staging register finds no transaction that stages (R3, R48). -/
def stagingClosed (s : State) (m : Master) : Bool :=
  let x := s.txn.get m
  x.st == .idle || x.st == .verifying || x.st == .pending

/-- R47: the first register that clashes is recorded with its holder. -/
def recordConflict (m holder : Master) (a : Nat) (s : State) : State :=
  setR s (pm m Reg.CTU_CONFLICT) (Reg.CTU_CONFLICT_holder.mk' holder.code ||| Reg.CTU_CONFLICT_addr.mk' (a / 4))

/-- The conflict flag, with the first register that clashed. -/
def stagingClash (m holder : Master) (a : Nat) (s : State) : State :=
  let x := s.txn.get m
  let s := if x.conflict then s else recordConflict m holder a s
  setTxn s m { x with conflict := true, lastC := s.time.c }

/-- Staged values replace or add (R46); a VERIFIED or FAILED transaction is OPEN again (R48). -/
def stagePut (m : Master) (l : List (Nat × Word)) (s : State) : State :=
  let x := s.txn.get m
  setTxn s m { x with
    st := .opened, staged := l.foldl (fun t p => Tab.put t p.1 p.2) x.staged, image := x.image || l.any fun p => isImageReg p.1
    cand := if x.st == .opened then x.cand else none, lastC := s.time.c }

/-- Stage writes by a master, all or none (R46, R47, R57): the answer tells whether they were staged. -/
def stageAll (m : Master) (l : List (Nat × Word)) (s : State) : State × Bool :=
  if stagingClosed s m then (s, false)
  else
    let x := s.txn.get m
    let fresh := l.filter fun p => (Tab.get? x.staged p.1).isNone
    match l.findSome? fun p => (lockHolder s m p.1).map fun h => (p.1, h) with
    | some c => (stagingClash m c.2 c.1 s, false)
    | none =>
      if stagedMax < x.staged.length + fresh.length then (setTxn s m { x with overflow := true, lastC := s.time.c }, false)
      else (stagePut m l s, true)

/-! ### The checks of a commit (R22, R319, R353, R361, R371, R394, R405, R416, R444) -/

/-- The staged values over the registers. -/
def stagedRegs (x : Txn) (s : State) : State :=
  x.staged.foldl (fun (s : State) p =>
    let mask := BitVec.ofNat 32 (((Reg.desc? p.1).map (·.rwt)).getD 0)
    setR s p.1 ((getR s p.1 &&& ~~~mask) ||| (p.2 &&& mask))) s

/-- A full image that waits for its boundary; it stands at every boundary that a later `COMMIT` can take. -/
def imageComing (s : State) : Option (Image × List Nat) :=
  (masters.map fun m => s.txn.get m).findSome? fun y => if y.st == .pending && !y.delta then y.cand.map fun g => (g, y.roots) else none

/-- The registers and the image that will stand at the boundary without the staged values (R444). -/
def imageStands (x : Txn) (s : State) : State :=
  match x.cand with
  | some g => imageRegs (!x.delta) g { s with recRoots := x.roots }
  | none =>
    match imageComing s with
    | some p => imageRegs true p.1 { s with recRoots := p.2 }
    | none => s

/-- An enabled rule with size 0 or beyond 2^32 (R405). -/
def badRange (r : ArtRule) : Bool := r.on && (r.size == 0 || decide (2 ^ 32 < r.base + r.size))

/-- The rule faults of a set of rules: number named, reason, rule_a, rule_b. -/
def artFaults (l : List (Nat × ArtRule)) : List (Nat × Nat × Nat × Nat) :=
  (l.filter fun p => badRange p.2).map (fun p => (p.1, 2, p.1, p.1)) ++
  l.flatMap fun p => (l.filter fun q => decide (p.1 < q.1) && artOverlap p.2 q.2).map fun q => (q.1, 1, p.1, q.1)

/-- The fault of the lowest rule named. -/
def artFault (s : State) : Option (Nat × Nat × Nat × Nat) :=
  (artFaults ((artRules s).filter fun p => p.2.on)).foldl (fun a f => match a with
    | some b => if f.1 < b.1 then some f else a
    | none => some f) none

def etypeBad (v : Nat) : Bool := decide (v < 0x0600) || [0x0800, 0x0806, 0x8100, 0x86DD, 0x88B6, 0x88F7].contains v

/-- A register that a rule refuses: `was` is what will stand without the staged values, `s` with them. -/
def regRefused (was s : State) (a : Nat) : Bool :=
  let v := getR s a
  let changed := getR was a != v
  if Reg.inRow a (Reg.QUE_CFG 0) 0x40 128 then
    let z := Reg.QUE_CFG_size_log2.get v
    Reg.QUE_CFG_enable.get v == 1 && (decide (z < 4) || decide (12 < z))
  else if a == Reg.FGR_ETYPE then etypeBad (Reg.FGR_ETYPE_etype.get v)
  else if a == Reg.CLK_DIV then changed && s.mode != .hold && s.mode != .service
  else if decide (Reg.TTRG_CTL 0 ≤ a) && decide (a < Reg.TTRG_CTL 16) then changed && s.img.ownsTrig ((a - Reg.TTRG_CTL 0) / 0x40)
  else if decide (Reg.SEC_KEY_ID 0 ≤ a) && decide (a < Reg.SEC_KEY_ID 8) then changed && secState s != 0
  else if Reg.inRow a (Reg.DIO_CH_CFG 0) 0x100 32 then decide (5 < Reg.DIO_CH_CFG_filter.get v)
  else if Reg.inRow a (Reg.DIO_CH_CFG 32) 0x100 32 then Reg.DIO_CH_CFG_mode.get v == 1 && Reg.DIO_CH_CFG_paralleled.get v == 1
  else if Reg.inRow a (Reg.AO_CFG 0) 0x100 8 then decide (2 < Reg.AO_CFG_range.get v)
  else if Reg.inRow a (Reg.AI_CFG 0) 0x100 8 then
    decide (3 < Reg.AI_CFG_range.get v) || (Reg.AI_CFG_ow_en.get v == 1 && Reg.AI_CFG_range.get v != 2)
  else if Reg.inRow a (Reg.REC_H_CFG 0) 0x10 256 then
    let n := Reg.REC_H_CFG_sig.get v
    Reg.REC_H_CFG_src.get v == 0x80 && ((match s.img.sigTyp n with
      | some t => decide (5 ≤ t)
      | none => true) || !obsWord s n)
  else false

/-- What R444 finds of a transaction: the lowest register refused, and a rule fault. -/
def commitFault (m : Master) (s : State) : Option (Nat × Option (Nat × Nat × Nat × Nat)) :=
  let x := s.txn.get m
  let was := imageStands x s
  let s' := stagedRegs x was
  let regs := (x.staged.map (·.1)).find? (regRefused was s')
  let art := if x.holdsRules then artFault s' else none
  match regs, art with
  | some a, some f => some (min a (Reg.ART_ATTR f.1), some f)
  | some a, none => some (a, none)
  | none, some f => some (Reg.ART_ATTR f.1, some f)
  | none, none => none

/-! ### Commands (R49, R50, R53, R443) -/

/-- A command's outcome in the master's CTU_STATUS. -/
def ctuDone (m : Master) (status : Nat) (s : State) : State :=
  let s := setF s (pm m Reg.CTU_STATUS) Reg.CTU_STATUS_cmd_status status
  let x := s.txn.get m
  if x.st == .idle then s else setTxn s m { x with lastC := s.time.c }

/-- REFUSED_STATE: the state is recorded, and the recorder counts (R49). -/
def ctuRefuse (m : Master) (s : State) : State :=
  let s := setF (ctuDone m 1 s) (pm m Reg.CTU_STATUS) Reg.CTU_STATUS_refused_state s.mode.code
  recEvent s 0x0001 (Reg.CTU_CMD % 2 ^ 24) 0

/-- The delta flag of the container that a transaction names. -/
def containerDelta (s : State) (x : Txn) : Bool := (header (storeRd s (txnRange s x).1)).delta

/-- The transaction names an image (R443). -/
def Txn.named (x : Txn) : Bool := (Tab.get? x.staged Reg.CTU_IMAGE_BASE).isSome && (Tab.get? x.staged Reg.CTU_IMAGE_LEN).isSome

/-- The transaction names a full image: the one that was verified, else the one in its container (Table 2.12). -/
def namesFull (s : State) (x : Txn) : Bool := if x.cand.isSome then !x.delta else x.st != .idle && x.named && !containerDelta s x

/-- `BEGIN`. -/
def ctuBegin (m : Master) (s : State) : State :=
  if s.mode == .boot then ctuRefuse m s
  else if (s.txn.get m).st == .idle then
    ctuDone m 0 (setTxn s m { ({} : Txn) with st := .opened, lastC := s.time.c })
  else ctuDone m 3 s

/-- `VERIFY`. -/
def ctuVerify (m : Master) (s : State) : State :=
  let x := s.txn.get m
  let refused : Bool := if x.st != .idle && x.named then !(verifyState s.mode (containerDelta s x)) else s.mode == .boot
  if refused then ctuRefuse m s
  else match x.st with
    | .idle => ctuDone m 2 s
    | .verifying | .pending => ctuDone m 9 s
    | .opened | .verified | .failed =>
      if x.named then ctuDone m 0 (setTxn s m { x with st := .verifying, cand := none, ran := true }) else ctuDone m 4 s

/-- The bodies of IMAGE frames that carry a container (Table 10.3). -/
def imageBodies (kind : Nat) (l : List Byte) : List (List Byte) :=
  (List.range ((l.length + 4095) / 4096)).map fun i =>
    BitVec.ofNat 8 kind :: (beBytes 4 l.length ++ beBytes 4 (4096 * i) ++ slice l (4096 * i) 4096)

/-- Send a container to the partner in IMAGE frames, on lane 0 while it is up, otherwise on lane 1 (R244). -/
def sendImage (kind : Nat) (l : List Byte) (s : State) : State :=
  let lane : Fin 2 := if s.red.lanes[0].up then 0 else 1
  (imageBodies kind l).foldl (fun (s : State) b => tetherSend lane 10 (fastNo s) b s) s

/-- The transaction is PENDING from now; a delta's exchange too, and an executing module sends it to its partner (R50, R206, R244). -/
def txnPend (m : Master) (boundary : Nat) (s : State) : State :=
  let x := s.txn.get m
  let s := setTxn s m { x with st := .pending, boundary := boundary, latch := now s }
  if x.image && x.delta then
    let s := { s with xch := { s.xch with st := .pending, deferrals := 0 } }
    let s := setR s Reg.XCH_T_BOUND (BitVec.ofNat 32 x.tsw)
    let r := txnRange s x
    if executing s && pairStands s then sendImage 1 (ldBytes s.store r.1 r.2) s else s
  else s

/-- The record of a refused rule commit (R405). -/
def recordArtFault (f : Nat × Nat × Nat × Nat) (s : State) : State :=
  setR s Reg.ART_COMMIT_FAULT (Reg.ART_COMMIT_FAULT_valid.mk' 1 ||| Reg.ART_COMMIT_FAULT_reason.mk' f.2.1 |||
    Reg.ART_COMMIT_FAULT_rule_b.mk' f.2.2.2 ||| Reg.ART_COMMIT_FAULT_rule_a.mk' f.2.2.1)

/-- A `COMMIT` that Table 2.16 allows: conflict, overflow and R444 stand before it (R443). -/
def commitAllowed (m : Master) (boundary : Nat) (s : State) : State :=
  let x := s.txn.get m
  if x.conflict then ctuDone m 5 s
  else if x.overflow then ctuDone m 6 s
  else match commitFault m s with
    | some f =>
      let s := recordConflict m m f.1 s
      ctuDone m 5 (match f.2 with
        | some a => recordArtFault a s
        | none => s)
    | none => ctuDone m 0 (txnPend m boundary s)

/-- `COMMIT`. -/
def ctuCommit (m : Master) (boundary : Nat) (s : State) : State :=
  let x := s.txn.get m
  if boundary = 3 then ctuDone m 8 s
  else if s.mode == .boot || (executing s && namesFull s x) then ctuRefuse m s
  else match x.st with
    | .idle => ctuDone m 2 s
    | .opened => if x.image then ctuDone m 4 s else commitAllowed m boundary s
    | .verifying | .failed => ctuDone m 4 s
    | .verified => commitAllowed m boundary s
    | .pending => ctuDone m 9 s

/-- `ROLLBACK`. -/
def ctuRollback (m : Master) (s : State) : State :=
  let x := s.txn.get m
  if s.mode == .boot then ctuRefuse m s
  else match x.st with
    | .idle => ctuDone m 2 s
    | .pending => if s.art.waiting.contains m || latchPassed s x then ctuDone m 7 s else ctuDone m 0 (txnIdle m false s)
    | _ => ctuDone m 0 (txnIdle m false s)

/-- A write of CTU_CMD. -/
def ctuCmd (m : Master) (v : Word) (s : State) : State :=
  match Reg.CTU_CMD_cmd.get v with
  | 1 => ctuBegin m s
  | 2 => ctuVerify m s
  | 3 => ctuCommit m (Reg.CTU_CMD_boundary.get v) s
  | 4 => ctuRollback m s
  | _ => ctuDone m 8 s

/-- CTU_STATUS of a master. -/
def ctuStatus (s : State) (m : Master) : Word :=
  let x := s.txn.get m
  getR s (pm m Reg.CTU_STATUS) ||| Reg.CTU_STATUS_staged.mk' x.staged.length ||| Reg.CTU_STATUS_overflow.mk' (b2n x.overflow) |||
  Reg.CTU_STATUS_conflict.mk' (b2n x.conflict) ||| Reg.CTU_STATUS_image.mk' (b2n x.image) ||| Reg.CTU_STATUS_aborted.mk' (b2n x.aborted) |||
  Reg.CTU_STATUS_txn_state.mk' x.st.code

/-! ### The loader's end (R40, R41) -/

/-- The master whose transaction is being verified. -/
def verifier (s : State) : Option Master := masters.find? fun m => (s.txn.get m).st == .verifying

/-- LOADER_VERIFY_DONE: the report, and VERIFIED or FAILED. The Tether's image goes on to PENDING by itself (R244). -/
def loaderVerifyDone (s : State) : State :=
  match verifier s with
  | none => s
  | some m =>
    let x := s.txn.get m
    let r := txnRange s x
    let v := loadVerify s false (storeRd s r.1) r.2
    let s := loadReport v.res s
    match v.image with
    | none => setTxn s m { x with st := .failed, lastC := s.time.c }
    | some g =>
      let s := setTxn s m { x with
        st := .verified, cand := some g, delta := v.delta, map := v.map, tsw := v.tsw, tBack := v.tBack, roots := recRootsNow s, lastC := s.time.c }
      if m == .tether then (if (commitFault m s).isSome then s else txnPend m 0 s) else s

/-! ### The boundary (R50 to R52, R54, R411) -/

/-- The commit is done: CTU_COMMITS counts, and the transaction returns to IDLE. -/
def txnFinish (m : Master) (s : State) : State := wrapAdd (txnIdle m false s) Reg.CTU_COMMITS ⟨0, 32⟩ 1

/-- A committed change of the override table (R162, R165, R166). -/
def ovrCommit (x : Txn) (s : State) : State :=
  if x.staged.any fun p => decide (Reg.IMG_OVR_CTL 0 ≤ p.1) && decide (p.1 < Reg.IMG_OVR_CTL 256) then
    ovrWindow (ovrCheck false s)
  else s

/-- The staged values take effect at one edge (R52), with what they start. -/
def applyStaged (x : Txn) (s : State) : State :=
  let before := s
  ovrRecord before (ovrCommit x (artEpoch before (regsStart before (stagedRegs x s))))

/-- The transaction ends, or waits until no access of the old rule epoch is in flight (R411). -/
def txnEnd (m : Master) (before : State) (s : State) : State :=
  if artRules before == artRules s then txnFinish m s
  else { s with art := { s.art with draining := true, waiting := s.art.waiting ++ [m] } }

/-- Apply a PENDING transaction that is register-only or carries a full image: image content first, staged values after it (R52); the checks of
R444 once more (R54). -/
def applyTxn (m : Master) (s : State) : State :=
  if (commitFault m s).isSome then txnAbort m s
  else
    let x := s.txn.get m
    let before := s
    let s := match x.cand with
      | some g =>
        let r := txnRange s x
        commitFull g (ldBytes s.store r.1 r.2) x.roots s
      | none => s
    let s := txnEnd m before (applyStaged x s)
    if m == .tether && x.cand.isSome then resyncReq 3 s else s

/-- A class's cycle starts at a T0: it has started there, or no earlier one runs on (R73), none at or after it has started (R62), and the first
cycle after a claim or START lies no later (R50, R138). -/
def clsStarts (s : State) (k : Nat) (t0 : Int) : Bool :=
  let c := if k = 0 then s.cls.fast else if k = 1 then s.cls.mid else s.cls.slow
  c.lastT0 == some t0 || (!c.running && c.lastT0.all (fun x => decide (x < t0)) && s.red.firstT0.all (fun x => decide (x ≤ t0)) &&
    !s.retain.startWaits)

/-- The transaction's boundary is now (Table 2.13). A delta has boundaries of its own. -/
def boundaryNow (s : State) (m : Master) : Bool :=
  let x := s.txn.get m
  let p := txnGrid s x
  let b := now s / (p : Int) * (p : Int)
  x.st == .pending && !(x.image && x.delta) && !s.art.waiting.contains m && edgeAt s b && decide (x.latch + 5000 ≤ b) &&
  (!executing s || clsStarts s (s.img.standIn x.boundary) b)

/-- CTU_BOUNDARY_APPLY: every transaction whose boundary is now, an image before registers of others, which are judged against it (R444). A
frozen module's switch machinery stands still (R419). -/
def ctuBoundaryApply (s : State) : State :=
  if s.dbg.frozen then s
  else
    let l := masters.filter (boundaryNow s)
    let img := fun (m : Master) => (s.txn.get m).cand.isSome
    (l.filter img ++ l.filter fun m => !img m).foldl (fun (s : State) m => applyTxn m s) s

/-- ART_EPOCH_DRAINED (R411). -/
def artEpochDrained (s : State) : State :=
  if s.art.draining then
    let w := s.art.waiting
    w.foldl (fun (s : State) m => txnFinish m s) { s with art := { s.art with epoch := (s.art.epoch + 1) % 65536, draining := false, waiting := [] } }
  else s

/-- CTU_IDLE_TIMEOUT: 5 s in OPEN, VERIFIED or FAILED (R54 case 1). -/
def ctuIdleTimeout (s : State) : State :=
  masters.foldl (fun (s : State) m =>
    let x := s.txn.get m
    if (x.st == .opened || x.st == .verified || x.st == .failed) && decide (x.lastC + secT 5 ≤ s.time.c) then txnAbort m s else s) s

/-- A master is reset: its transaction is rolled back (R54 case 2), but for one that waits for the old rule epoch to drain; its receive window locks
are released (R334). -/
def masterReset (m : Master) (s : State) : State :=
  let s := rxwHolderReset m s
  if (s.txn.get m).st == .idle || s.art.waiting.contains m then s else txnAbort m s

end Sys2Proof.Machine
end

