-- ==== Sys2Proof/Machine/Xch.lean ====
section
/-!
DEFINITION. The online exchange (R206 to R225): state carried and converted between two images, the switch and the switch back, `CONFIRM` and
`REVERT`.
-/
namespace Sys2Proof.Machine

/-! ### Block state (R210 to R212, Table 8.4) -/

/-- The state slots of block k in a store of slots, the first with its marks (R115). -/
def blkSlots (g : Image) (k : Nat) (m : SMap 8) (marks : Tab Nat) : List Nat :=
  let b := (g.blk k).state
  match (List.range (g.slotCount k)).map fun i => ld m (16 * (b + i)) 16 with
  | [] => []
  | x :: l => (x + ((Tab.get? marks b).getD 0) * 2 ^ 123) :: l

def modeOne (e : BlkEnt) : Bool := e.v % 2 == 1

/-- A first slot that a switch leaves: live, with a low field and flag bits 120 on. -/
def swSlot (lo flags : Nat) : Nat := mkSlot lo 0 flags

/-- E of a timer (R212). -/
def timerElapsed (t0 : Int) (e : BlkEnt) (l : List Nat) : Int :=
  let a := l.getD 0 0
  let m := bit a 120
  let since := max (t0 - sgn 64 (fld a 0 8)) 0
  if !modeOne e then sgn 64 (fld a 0 8)
  else if e.typ = 0x32 then sgn 64 (fld (l.getD 1 0) 0 8) + (if m then since else 0)
  else if m || bit a 121 then since else 0

/-- TIMER. -/
def convTimer (t0 : Int) (a : BlkEnt) (l : List Nat) (b : BlkEnt) : List Nat :=
  let m := bit (l.getD 0 0) 120
  let el := timerElapsed t0 a l
  let start := unsgn 64 (t0 - el)
  if !modeOne b then [swSlot (unsgn 64 (min (max el 0) (2 ^ 63 - 1))) (b2n m)]
  else if b.typ = 0x32 then (if m then [swSlot start 1, 0] else [swSlot 0 0, unsgn 64 el])
  else [swSlot start (b2n m)]

/-- The edge memories of a counter: up and down (Table 5.1). -/
def counterMem (e : BlkEnt) (a : Nat) : Option Bool × Option Bool :=
  match e.typ with
  | 0x33 => (some (bit a 120), none)
  | 0x34 => (none, some (bit a 120))
  | _ => (some (bit a 120), some (bit a 121))

/-- A memory at place k: carried, or left for the next evaluation to set. -/
def memFlags (k : Nat) : Option Bool → Nat
  | some b => b2n b * 2 ^ k
  | none => 2 ^ (3 + k)

/-- COUNT. -/
def convCount (a : BlkEnt) (l : List Nat) (b : BlkEnt) : List Nat :=
  let x := l.getD 0 0
  let t := typOf b.t
  let cv := rawOf t (fit b.wrap t (ival (typOf a.t) (fld x 0 8)))
  let m := counterMem a x
  let flags := match b.typ with
    | 0x33 => memFlags 0 m.1
    | 0x34 => memFlags 0 m.2
    | _ => memFlags 0 m.1 + memFlags 1 m.2
  [swSlot cv flags]

/-- The slots of a converted block. -/
def convSlots (c : Nat) (t0 : Int) (a : BlkEnt) (l : List Nat) (b : BlkEnt) : List Nat :=
  let x := l.getD 0 0
  if !bit x 127 then []
  else match c with
    | 1 => convTimer t0 a l b
    | 2 => convCount a l b
    | 3 => [swSlot 0 (b2n (bit x 120))]
    | 4 => [swSlot 0 (2 * b2n (bit x 121))]
    | 5 => [swSlot (fld x 0 4) 0]
    | _ => []

/-- The slots of a carried block: an AVG of another window is empty, and a PID of another variant takes prev anew (R211). -/
def carrySlots (a : BlkEnt) (wa : Nat) (l : List Nat) (b : BlkEnt) (wb : Nat) : List Nat :=
  match l with
  | [] => []
  | x :: r =>
    if b.typ = 0x3C ∧ wa ≠ wb then [if bit x 127 then swSlot 0 0 else 0]
    else if b.typ = 0x3D ∧ a.v % 2 ≠ b.v % 2 ∧ bit x 127 then (x ||| 2 ^ 125) :: r
    else x :: r

/-- The state slots that a switch leaves to each block of the new image: the first slot of the block with its slots, the first with its marks. -/
def migLeft (old new : Image) (map : List MigRec) (t0 : Int) (m : SMap 8) (marks : Tab Nat) : List (Nat × List Nat) :=
  (fates old new map 0).map fun p =>
    let b := new.blk p.1
    let w := fun (g : Image) (e : BlkEnt) => (g.prm e.param).toNat
    let l := match p.2.2 with
      | .carry o => carrySlots (old.blk o) (w old (old.blk o)) (blkSlots old o m marks) b (w new b)
      | .conv o c => convSlots c t0 (old.blk o) (blkSlots old o m marks) b
      | .init _ => []
    (b.state, l.take (new.slotCount p.1))

/-- The store of state slots of the new image, and the marks of its blocks. -/
def migSlots (old new : Image) (map : List MigRec) (t0 : Int) (m : SMap 8) (marks : Tab Nat) : SMap 8 × Tab Nat :=
  (migLeft old new map t0 m marks).foldl (fun (n : SMap 8 × Tab Nat) p =>
    match p.2 with
    | [] => n
    | x :: l =>
      let y := splitMarks x
      ((y.1 :: l).zipIdx.foldl (fun n q => st n (16 * (p.1 + q.2)) 16 q.1) n.1, if y.2 = 0 then n.2 else Tab.put n.2 p.1 y.2)) (SMap.empty, [])

/-! ### Chains (R215) -/

/-- A chain's state after the switch, and whether its active step was lost. -/
def migChain (new : Image) (map : List MigRec) (t : Tab ChainSt) (p : Nat × Nat × Fate) : ChainSt × Bool :=
  let rec' := chainRec (((new.recs 0x06 0)[p.1]?).getD 0)
  let into := fun (x : ChainSt) (n : Nat) => { x with active := n, cis := 0, entered := true, final := (new.step rec' n).final }
  match p.2.2.src with
  | none => (into {} 0, false)
  | some o =>
    let x := (Tab.get? t o).getD {}
    let x : ChainSt := { active := x.active, cis := x.cis, moves := x.moves }
    let move := { x with moves := (x.moves + 1) % 2 ^ 32 }
    match map.find? fun r => r.kind == 1 && r.action == 4 && r.uid == p.2.1 && r.oldStep == x.active with
    | some r => (into move r.newStep, false)
    | none => if rec'.count ≤ x.active then (into move 0, true) else (x, false)

/-! ### The Line-Shaft Engine (R216) -/

/-- A slave at its new place: what changed of its record acts (Table 8.5). -/
def migSlave (a b : SlaveRec) (x : LseSlave) : LseSlave :=
  let x := if a.mode = 1 ∧ b.mode = 2 then { x with phi := BitVec.ofNat 64 b.phi0 } else if a.mode = 2 ∧ b.mode = 1 then { x with phi := 0 } else x
  if a.segment ≠ b.segment ∨ a.word ≠ b.word then { x with fresh := true } else x

/-- The schedule of a stand of the new image: kept where its slave was a stand of the matched cascade. -/
def migStands (old new : Image) (map : List MigRec) (t : Tab LseStand) : Tab LseStand :=
  (fates old new map 5).flatMap fun p =>
    let mine := (cascRec (((new.recs 0x09 0)[p.1]?).getD 0)).stands
    let theirs := match p.2.2.src with
      | some o => (cascRec (((old.recs 0x09 0)[o]?).getD 0)).stands
      | none => []
    mine.map fun i =>
      let uid := (new.slave (new.stand i).slave).uid
      (i, match theirs.find? fun j => (old.slave (old.stand j).slave).uid == uid with
        | some j => (Tab.get? t j).getD {}
        | none => {})

/-- A slave that stays a stand of a matched cascade (Table 8.5). -/
def standStays (old new : Image) (map : List MigRec) (i : Nat) : Bool :=
  (fates old new map 5).any fun p =>
    match p.2.2.src with
    | some o =>
      ((cascRec (((new.recs 0x09 0)[p.1]?).getD 0)).stands.any fun j => (new.stand j).slave == i) &&
        ((cascRec (((old.recs 0x09 0)[o]?).getD 0)).stands.any fun j => (old.slave (old.stand j).slave).uid == (new.slave i).uid)
    | none => false

/-- An entity's state at its new place. -/
def migAt {α : Type} (t : Tab α) (x : α) (p : Nat × Nat × Fate) : α :=
  match p.2.2.src with
  | some o => (Tab.get? t o).getD x
  | none => x

def migLse (old new : Image) (map : List MigRec) (l : Lse) : Lse :=
  { masters := (fates old new map 2).map fun p => (p.1, migAt l.masters {} p)
    slaves := (fates old new map 3).map fun p => (p.1, match p.2.2.src with
      | some o =>
        let x := migSlave (old.slave o) (new.slave p.1) ((Tab.get? l.slaves o).getD {})
        if standStays old new map p.1 then x else { x with f := 0 }
      | none => { phi := BitVec.ofNat 64 (new.slave p.1).phi0 })
    regs := (fates old new map 4).map fun p => (p.1, migAt l.regs {} p)
    stands := migStands old new map l.stands }

/-! ### Signals (R213) -/

/-- Declared words of an image. -/
def Image.words (g : Image) : List Nat := g.signals.flatMap fun r => (List.range r.words).map (r.index + ·)

/-- Words of new runs at their safe values and words of no run at 0, both with quality 0. -/
def migView (old new : Image) (v : ImgView) : ImgView :=
  let gone := old.words.filter fun n => (new.sigTyp n).isNone
  let v := gone.foldl (fun (v : ImgView) n => { w := v.w.put n 0, q := v.q.put n 0 }) v
  (freshWords old new).foldl (fun (v : ImgView) n => { w := v.w.put n (new.safeWord n), q := v.q.put n 0 }) v

/-- A class's own view after the switch: the words that it wrote before and still writes stay as its last cycle left them. -/
def migClsView (old new : Image) (p : Prog) (k : Cls) : ImgView :=
  migView old new (copyWords ((new.clsWrites k.code).filter (old.clsWrites k.code).contains) (p.view.get k) p.pub)

/-! ### The switch (R217 to R220) -/

/-- Entities by what the switch did with them: carried, converted, initialised, dropped. -/
def swCounts (old new : Image) (map : List MigRec) : Nat × Nat × Nat × Nat :=
  let all := (kinds.flatMap (fates old new map)).map (·.2.2)
  let n := fun (f : Fate → Bool) => (all.filter f).length
  (n fun f => match f with | .carry _ => true | .conv _ _ => false | .init _ => false,
   n fun f => match f with | .carry _ => false | .conv _ _ => true | .init _ => false,
   n fun f => match f with | .carry _ => false | .conv _ _ => false | .init _ => true,
   (kinds.map (dropped old new map)).sum)

/-- The events of a switch: MIG_INIT and MIG_STEP (Table 16.3). -/
def swEvents (old new : Image) (map : List MigRec) (p : Prog) (s : State) : State :=
  let s := (fates old new map 0).foldl (fun (s : State) f => match f.2.2 with
    | .init true => recEvent s 0x000C f.2.1 1
    | _ => s) s
  (fates old new map 1).foldl (fun (s : State) f => if (migChain new map p.chain f).2 then recEvent s 0x000D f.2.1 1 else s) s

/-- The registers of the last switch (Table 8.7). -/
def swRegs (old new : Image) (map : List MigRec) (t0 : Int) (ns : Word) (s : State) : State :=
  let c := swCounts old new map
  setRegs [(Reg.XCH_SW_CYCLE, BitVec.ofNat 32 (cycleNo s .fast t0)), (Reg.XCH_T_LAST, ns), (Reg.XCH_CNT_CARRY, BitVec.ofNat 32 c.1),
    (Reg.XCH_CNT_CONV, BitVec.ofNat 32 c.2.1), (Reg.XCH_CNT_INIT, BitVec.ofNat 32 c.2.2.1), (Reg.XCH_CNT_DROP, BitVec.ofNat 32 c.2.2.2)] s

/-- The program's memory at a switch, as it is after it. -/
def migProg (old new : Image) (map : List MigRec) (t0 : Int) (p : Prog) : Prog :=
  let slots := migSlots old new map t0 p.slots p.unset
  let chain := (fates old new map 1).map fun f => (f.1, (migChain new map p.chain f).1)
  let view := fun (k : Cls) => migClsView old new p k
  { p with pub := migView old new p.pub, view := ⟨view .fast, view .mid, view .slow, view .background⟩, slots := slots.1
           cslots := slots.1, unset := slots.2, chain := chain, cchain := chain, latch := [], ocPub := none }

/-- The machine goes from its image to another at T0 (R213 to R218): entities by the map, registers and field states, action words, overrides. -/
def switchTo (new : Image) (map : List MigRec) (t0 : Int) (ns : Word) (s : State) : State :=
  let s := abandonBackground s
  let old := s.img
  let p := s.prog
  let l := s.lse
  let s := swEvents old new map p (commitDelta new t0 s)
  let lse := migLse old new map l
  let s := setProg { s with lse := lse, cLse := lse } (migProg old new map t0 p)
  let s := ovrRecord s (ovrWindow (ovrCheck true (showActs (startChains (fun _ => true) s))))
  pubAdd 2 (swRegs old new map t0 ns s)

/-- The mark of a switch, `CONFIRM` or `REVERT` in the next checkpoint delta's flags (Table 10.3). -/
def markStream (b : Nat) (s : State) : State := setRed s { s.red with markSwitch := s.red.markSwitch ||| b }

/-- The switch to the delta of a master's transaction: the exchange is UNCONFIRMED. -/
def deltaSwitch (m : Master) (t0 : Int) (ns : Word) (s : State) : State :=
  let x := s.txn.get m
  match x.cand with
  | none => s
  | some g =>
    if (commitFault m s).isSome then txnAbort m { s with xch := { deferrals := s.xch.deferrals } }
    else
      let before := s
      let s := switchTo g (x.map.map migRec) t0 ns { s with recRoots := x.roots }
      let xch : Xch :=
        { st := .unconfirmed, base := before.img, map := x.map, cont := before.container, keepBase := before.img.id, deferrals := s.xch.deferrals
          tBack := x.tBack }
      let s := applyStaged x { s with container := [], xch := xch }
      txnEnd m before s

/-- The switch back to the replaced content (R223): the exchange is NONE, and XCH_T_BOUND shows this switch's bound (Table 8.7). -/
def revertTo (t0 : Int) (ns : Word) (s : State) : State :=
  let x := s.xch
  let s := switchTo x.base ((x.map.map migRec).map MigRec.back) t0 ns (setR s Reg.XCH_T_BOUND (BitVec.ofNat 32 x.tBack))
  { s with container := x.cont, xch := { deferrals := x.deferrals }, recRoots := recRootsNow s }

/-- The PENDING delta whose latch deadline lies before a T0. -/
def deltaDue (s : State) (t0 : Int) : Option Master := masters.find? fun m =>
  let x := s.txn.get m
  x.st == .pending && x.image && x.delta && decide (x.latch + 5000 ≤ t0)

/-- A switch is possible at this edge: the engine executes, and no FAST, MID or SLOW cycle is running (R217). -/
def switchEdge (s : State) (t0 : Int) : Bool := executing s && edgeAt s t0 && clsIdle s

/-- What an executing module adds to a switch: the capture of the set after migration, and the mark in the checkpoint stream (R214, R224). -/
def switched (mark : Nat) (s : State) : State := markStream mark (retSwitch s)

/-- EXCHANGE_SWITCH: `ns` is its measured duration. -/
def exchangeSwitch (ns : Word) (s : State) : State :=
  let t0 := t0Of s (slowPeriod s.img)
  match deltaDue s t0 with
  | some m =>
    if switchEdge s t0 then
      let s := deltaSwitch m t0 ns s
      if s.xch.st == .unconfirmed then switched 2 s else s
    else s
  | none => s

/-- The replaced content is here. A module that has inherited the exchange without having run the replaced image does not hold it
(notes/assumptions/91.md). -/
def holdsBase (s : State) : Bool := !s.xch.base.parts.isEmpty

/-- REVERT_SWITCH: at the SLOW T0, unless a lane fault that will cancel the command waits for its OC (R236). -/
def revertSwitch (ns : Word) (s : State) : State :=
  let t0 := t0Of s (slowPeriod s.img)
  match s.xch.revert with
  | some p =>
    if decide (p.2 + 5000 ≤ t0) && switchEdge s t0 && s.lane.fault.isNone then
      if holdsBase s then revertDone p.1 0 (switched 8 (revertTo t0 ns s)) else revertCancel s
    else s
  | none => s

/-! ### CONFIRM and REVERT (R221 to R223) -/

/-- The status of a command in a wrong exchange state. -/
def xchWrong (s : State) : Nat := if s.xch.st == .none then 3 else 4

/-- `CONFIRM`: the replaced content is discarded, and the running image goes to the Archive (R222). -/
def xchConfirm (m : Master) (s : State) : State :=
  if s.mode == .boot || s.mode == .standby || s.mode == .detached then cmdRefused s m Reg.XCH_CMD Reg.XCH_CMD_STATUS 1
  else if s.xch.st != .unconfirmed then cmdDone s m Reg.XCH_CMD_STATUS 1 (xchWrong s)
  else
    let x : Xch := { st := .archiving, keepBase := s.xch.keepBase, deferrals := s.xch.deferrals }
    cmdDone (markStream 4 { s with xch := x }) m Reg.XCH_CMD_STATUS 1 0

/-- `REVERT`: deferred to the next SLOW T0 (R223). -/
def xchRevert (m : Master) (s : State) : State :=
  if !executing s then cmdRefused s m Reg.XCH_CMD Reg.XCH_CMD_STATUS 2
  else if s.xch.st != .unconfirmed then cmdDone s m Reg.XCH_CMD_STATUS 2 (xchWrong s)
  else if !holdsBase s then cmdDone s m Reg.XCH_CMD_STATUS 2 6
  else
    let s := setR { s with xch := { s.xch with st := .reverting, revert := some (some m, now s), deferrals := 0 } } Reg.XCH_T_BOUND
      (BitVec.ofNat 32 s.xch.tBack)
    cmdDone s m Reg.XCH_CMD_STATUS 2 2

/-- A write of XCH_CMD. -/
def xchCmd (m : Master) (v : Word) (s : State) : State :=
  match Reg.XCH_CMD_cmd.get v with
  | 1 => xchConfirm m s
  | 2 => xchRevert m s
  | c => cmdDone s m Reg.XCH_CMD_STATUS c 5

/-- XCH_STATUS. -/
def xchStatus (s : State) : Word :=
  (Reg.XCH_STATUS_deferrals.put (getR s Reg.XCH_STATUS) s.xch.deferrals) ||| Reg.XCH_STATUS_state.mk' s.xch.st.code

/-- The image that XCH_BASE names: none in NONE, the running image in PENDING, else the replaced one. -/
def xchBase (s : State) : Nat :=
  match s.xch.st with
  | .none => 0
  | .pending => s.img.id
  | .unconfirmed | .reverting => s.xch.base.id
  | .archiving => s.xch.keepBase

end Sys2Proof.Machine
end

