-- ==== Sys2Proof/Machine/CkptRx.lean ====
section
/-!
DEFINITION. The standby's side of the checkpoint stream (R244, R257 to R260, R274): frames in staging, the apply of a complete delta, and images
from the partner.
-/
namespace Sys2Proof.Machine

/-! ### Planned handover on the standby (R274) -/

/-- The T0 of FAST cycle N + 1, while it is the present FAST cycle. -/
def handT0 (s : State) : Option Int :=
  let t0 := t0Of s (fastP s)
  if cycleNo s .fast t0 == (s.red.hand.n + 1) % 2 ^ 32 then some t0 else none

/-- Every class of the image starts its cycle at T0(N + 1) with an elapsed count of 1 (R274 step 2). -/
def handStart (t0 : Int) (s : State) : State :=
  let before := fun (k : Cls) => ({ lastNo := some (unsgn 32 ((cycleNo s k t0 : Int) - 1)) } : ClassRun)
  let pass := s.red.ckLast.getD 3 0
  let s := { s with cls := ⟨before .fast, before .mid, before .slow, { lastNo := some pass }⟩ }
  startBackground t0 ([Cls.fast, .mid, .slow].foldl (startDue t0) s)

/-- GO: the standby has delta N and evaluates cycle N + 1 from now on. -/
def handGo (t0 : Int) (s : State) : State :=
  let h := s.red.hand
  let s := tetherBoth 9 (fastNo s) (2 :: beBytes 4 h.n) s
  handStart t0 (setHand s { h with st := .go, taking := true, goSent := true })

/-- GO as soon as delta N is applied and T0(N + 1) has come, while the module is takeover-ready: its loss cancels a handover (R275). -/
def handTryGo (s : State) : State :=
  if s.mode == .standby && s.red.hand.st == .proposed && s.red.ckAt == some s.red.hand.n && standbyReady s then
    match handT0 s with
    | some t0 => handGo t0 s
    | none => s
  else s

/-! ### A delta in staging (R257, R258) -/

/-- The words of one frame's records: word numbers and values. -/
def ckParse : Nat → List Byte → List (Nat × Word)
  | 0, _ => []
  | _, [] => []
  | n + 1, l =>
    let h := beNat (slice l 0 4)
    let js := (List.range 8).filter fun j => bit h (24 + j)
    js.zipIdx.map (fun p => (8 * (h % 2 ^ 20) + p.1, BitVec.ofNat 32 (beNat (slice l (4 + 4 * p.2) 4)))) ++
      ckParse n (l.drop (4 + 4 * js.length))

/-- The record bytes that have arrived, in index order. -/
def DeltaIn.records (d : DeltaIn) : List (List Byte) := (List.range d.nFrames).map fun i => (Tab.get? d.frames i).getD []

/-- Indices still missing. -/
def DeltaIn.missing (d : DeltaIn) : List Nat := (List.range d.nFrames).filter fun i => (Tab.get? d.frames i).isNone

/-- The delta is complete (R258). -/
def DeltaIn.complete (d : DeltaIn) : Bool :=
  d.ended && d.missing.isEmpty && (d.records.map (·.length)).sum == d.nBytes && crc32c d.records.flatten == d.crc

/-- CKPT_ACK on a lane that is up (R258). -/
def ckAck (k status first count : Nat) (s : State) : State :=
  tetherSend (if s.red.lanes[0].up then 0 else 1) 5 k (beBytes 4 k ++ [BitVec.ofNat 8 status] ++ beBytes 2 first ++ beBytes 2 count) s

/-- The module is a standby, or a detached one that resynchronises (R260). -/
def standsBy (s : State) : Bool := s.mode == .standby || (s.mode == .detached && s.red.resyncLeft != 0)

/-- The standby takes checkpoints: not while frozen (R419) or while the march test of the Store runs (R441). -/
def takesCkpt (s : State) : Bool :=
  standsBy s && !s.dbg.frozen && !s.red.hand.taking && (match s.bist with
    | some b => b.test != 2
    | none => true)

/-- Delta k is complete before the OC that follows its own (R259). -/
def ckTimely (s : State) (k : Nat) : Bool := decide (unsgn 32 ((now s + 8000) / (fastP s : Int) - k) ≤ 1)

/-- The marks of the delta: the standby follows its partner's switch, `CONFIRM` and `REVERT` (R224), and runs the same image after them. The answer
is false where the image of a switch is not here. -/
def ckMarks (flags : Nat) (s : State) : State × Bool :=
  let t0 := t0Of s (slowPeriod s.img)
  let r : State × Bool :=
    if !bit flags 1 then (s, true)
    else if (s.txn.get .tether).st == .pending && (s.txn.get .tether).delta then
      let s := deltaSwitch .tether t0 0 s
      (s, s.xch.st == .unconfirmed)
    else (s, false)
  let s := r.1
  let s := if bit flags 2 && s.xch.st == .unconfirmed then { s with xch := { st := .archiving, keepBase := s.xch.keepBase } } else s
  let s := if bit flags 3 && s.xch.st == .unconfirmed then revertTo t0 0 s else s
  (if flags / 2 % 8 = 0 then s else setRed s { s.red with partner := { s.red.partner with image := s.img.id } }, r.2)

/-- The T0 of a class's last committed cycle, by its number. -/
def ckT0 (s : State) (last : List Nat) (k : Cls) : Option Int :=
  let p := (max 1 (s.img.period k.code) : Nat)
  let n := now s / (p : Int)
  last[k.code]?.map fun c => (n - unsgn 32 (n - c)) * p

/-- The tables as a takeover would start from them; a capture holds the T0 of the classes' last committed cycles (Table 5.8). -/
def ckSettle (last : List Nat) (s : State) : State :=
  let p := s.prog
  let l := ovrNow s
  let t0s : PerCls (Option Int) := ⟨ckT0 s last .fast, ckT0 s last .mid, ckT0 s last .slow, none⟩
  setProg { s with lse := s.cLse, retain := { s.retain with t0s := PerCls.all none, baseT0s := t0s } }
    { p with slots := p.cslots, ocPub := none, chain := p.cchain, view := PerCls.all p.pub, ovr := PerCls.all l, winOvr := l, latch := [] }

/-- The blocks of a class that has committed a further cycle on the active have set the memories that a switch left to them. -/
def ckUnset (last : List Nat) (s : State) : State :=
  [Cls.fast, .mid, .slow, .background].foldl (fun (s : State) k =>
    if last.getD k.code 0 = s.red.ckLast.getD k.code 0 then s
    else (s.img.clsBlocks k.code).foldl (fun (s : State) b => setProg s { s.prog with unset := Tab.erase s.prog.unset (s.img.blk b).state }) s) s

/-- Apply a complete delta in one step (R258 to R260); a detached module that is resynchronised by it is a standby again (R78). -/
def ckApply (d : DeltaIn) (s : State) : State :=
  match ckMarks d.flags s with
  | (s, false) => resyncReq 3 (setRed s { s.red with ckAt := none, ckImage := 0 })
  | (s, true) =>
    let ws := d.records.flatMap fun r => ckParse r.length r
    let s := ckSettle d.last (ws.foldl (fun (s : State) p => ckPut p.1 p.2 s) (ckUnset d.last s))
    let left := if bit d.flags 0 then (if s.red.resyncLeft = 0 then 0 else 1) else if s.red.resyncLeft = 1 then 0 else s.red.resyncLeft
    let lagging := if left ≠ 0 then true else if ckTimely s d.k then false else s.red.lagging
    let base := ws.foldl (fun m p => m.put p.1 p.2) s.red.base
    let s := setRed s { s.red with
      ckAt := some d.k, ckImage := s.red.partner.image, ckLast := d.last, resyncLeft := left, lagging := lagging
      lag := if lagging then s.red.lag else 0, base := base }
    let s := setR s Reg.RED_CKPT (BitVec.ofNat 32 d.k)
    let s := setF s Reg.RED_CKPT_SIZE Reg.RED_CKPT_SIZE_bytes d.nBytes
    let s := if s.mode == .detached && left == 0 then enter .standby .tether s else s
    handTryGo (readyUpdate (ckAck d.k 0 0 0 s))

/-- The delta that is applied next, with those after it in staging: the oldest, when it is complete, or a complete full one, which stands for those
before it (notes/assumptions/92.md). -/
def ckNext : List DeltaIn → Option (DeltaIn × List DeltaIn)
  | [] => none
  | d :: l =>
    if d.complete then some (d, l)
    else match (d :: l).dropWhile fun x => !(x.complete && bit x.flags 0) with
      | x :: r => some (x, r)
      | [] => none

/-- Staging, oldest first. -/
def staging (s : State) : List DeltaIn :=
  s.red.inOld ++ match s.red.inDelta with
    | some d => [d]
    | none => []

def setStaging (l : List DeltaIn) (s : State) : State := setRed s { s.red with inOld := l.dropLast, inDelta := l.getLast? }

/-- Apply the deltas in staging that can be applied. -/
def ckDrain : Nat → State → State
  | 0, s => s
  | n + 1, s =>
    if !takesCkpt s then s
    else match ckNext (staging s) with
      | some p => ckDrain n (ckApply p.1 (setStaging p.2 s))
      | none => s

def ckTry (s : State) : State := ckDrain (staging s).length s

/-- A frame of delta k came: that delta, changed, is in staging; a new one is the newest. -/
def stageDelta (k : Nat) (f : DeltaIn → DeltaIn) (s : State) : State :=
  let l := staging s
  if l.any fun d => d.k == k then setStaging (l.map fun d => if d.k = k then f d else d) s else setStaging (l ++ [f { k := k }]) s

/-- A frame of delta k is of use: k is not the last one applied. -/
def wantsDelta (s : State) (k : Nat) : Bool := s.red.ckAt != some k || (staging s).any fun d => d.k == k

/-- CKPT_DATA_RECEIVE: the frame goes to staging. -/
def ckptDataReceive (l : Fin 2) (fcsOk : Bool) (frame : List Byte) (s : State) : State :=
  match rxTether l fcsOk frame s with
  | (s, some f) =>
    let k := beNat (slice f.body 0 4)
    if f.typ != 2 || !standsBy s || !wantsDelta s k then s
    else ckTry (stageDelta k (fun d => { d with frames := Tab.put d.frames (beNat (slice f.body 4 2)) (f.body.drop 8) }) s)
  | (s, none) => s

/-- CKPT_END_RECEIVE: the fields that completeness is judged by. The second copy of the END of an applied delta says nothing. -/
def ckptEndReceive (l : Fin 2) (fcsOk : Bool) (frame : List Byte) (s : State) : State :=
  match rxTether l fcsOk frame s with
  | (s, some f) =>
    let n := fun (o : Nat) => beNat (slice f.body o 4)
    if f.typ != 3 || !standsBy s || !wantsDelta s (n 0) then s
    else ckTry (stageDelta (n 0) (fun d => { d with
      ended := true, nFrames := n 4, nBytes := n 8, crc := BitVec.ofNat 32 (n 12), last := [n 16, n 20, n 24, n 28]
      flags := beNat (slice f.body 32 1) }) s)
  | (s, none) => s

/-- How many of a rising list follow one another from its head. -/
def runLen : List Nat → Nat
  | a :: b :: l => if b = a + 1 then runLen (b :: l) + 1 else 1
  | [_] => 1
  | [] => 0

/-- CKPT_MISSING_TIMEOUT: frames are missing 20 µs after CKPT_END; the first missing range of the oldest such delta is asked for. -/
def ckptMissingTimeout (s : State) : State :=
  match (staging s).find? fun d => d.ended && !d.missing.isEmpty with
  | some d => if standsBy s then ckAck d.k 1 (d.missing.headD 0) (runLen d.missing) s else s
  | none => s

/-- LAG_TIMEOUT (R259). -/
def lagTimeout (s : State) : State :=
  if s.mode == .standby && s.red.lagging && decide (64 ≤ s.red.lag) then redAlarm Reg.RED_ALARM_lag_timeout (detach s) else s

/-! ### Images from the partner (R244) -/

/-- Where the Tether master stages a container: at the end of the Store's free space (notes/assumptions/30.md). -/
def imgPlace (n : Nat) : Nat := (storeSize - n) / 32 * 32

/-- A whole container has arrived: an image transaction of the Tether master, with its verification begun. One that names the running image is
of no use (notes/assumptions/29.md); another replaces a transaction of the Tether master in progress (notes/assumptions/100.md). -/
def imgArrived (kind : Nat) (l : List Byte) (s : State) : State :=
  let at' := imgPlace l.length
  let h := header (listRd l)
  let s := if kind = 0 then setRed s { s.red with partner := { s.red.partner with image := h.id } } else s
  let taken := (lockHolder s .tether Reg.CTU_IMAGE_BASE).isSome || storeLocked { s with txn := s.txn.set .tether {} } at' l.length
  if (kind = 0 ∧ h.id = s.img.id) ∨ taken ∨ storeSize - freeBase < l.length ∨ s.art.waiting.contains .tether then s
  else
    let st := Tab.put (Tab.put [] Reg.CTU_IMAGE_BASE (BitVec.ofNat 32 at')) Reg.CTU_IMAGE_LEN (BitVec.ofNat 32 l.length)
    let x : Txn := { st := .verifying, staged := st, image := true, ran := true, lastC := s.time.c }
    setTxn { s with store := stBytes s.store at' l } .tether x

/-- IMAGE_FRAME_RECEIVE: the standby's Tether master assembles the container in order; a gap discards it. -/
def imageFrameReceive (l : Fin 2) (fcsOk : Bool) (frame : List Byte) (s : State) : State :=
  match rxTether l fcsOk frame s with
  | (s, some f) =>
    if f.typ != 10 || (s.mode != .standby && s.mode != .detached && s.mode != .hold) then s
    else
      let kind := beNat (slice f.body 0 1)
      let total := beNat (slice f.body 1 4)
      let off := beNat (slice f.body 5 4)
      let data := f.body.drop 9
      let got : Option (SMap 8) :=
        if off = 0 then some SMap.empty
        else match s.red.imgRx with
          | some (k, t, m, n) => if k = kind ∧ t = total ∧ n = off then some m else none
          | none => none
      match got with
      | none => setRed s { s.red with imgRx := none }
      | some m =>
        let m := stBytes m off data
        let n := off + data.length
        if n < total then setRed s { s.red with imgRx := some (kind, total, m, n) }
        else imgArrived kind (ldBytes m 0 total) (setRed s { s.red with imgRx := none })
  | (s, none) => s

end Sys2Proof.Machine
end

