-- ==== Sys2Proof/Machine/RedRows.lean ====
section
/-!
DEFINITION. The redundant pair's own steps (R242 to R277): Crickets, the end of a FAST interval, claims, isolation, `START`'s listening, and the
planned handover.
-/
namespace Sys2Proof.Machine

/-! ### CRICKET_RECEIVE (R244, R246, R252, R253, R275) -/

/-- The image_id that the partner runs, which no frame carries: a free value where the module has not had it told (notes/assumptions/23.md). -/
def learnImage (s : State) : State :=
  takeFree (setRed s { s.red with partner := { s.red.partner with image := (Config.partnerImage s.freeCtr).toNat } })

/-- What forms with a pair: where the running image_ids differ, the executing module's image goes to its partner, and a standby asks for a full
delta (R244, R260). -/
def pairForms (s : State) : State :=
  if s.red.paired || !pairStands s then s
  else
    let s := learnImage (setRed s { s.red with paired := true, markSwitch := 0 })
    if executing s then
      if s.red.partner.image = s.img.id then s
      else sendImage 0 (if s.container.isEmpty then s.img.container else s.container) s
    else if s.mode == .standby then resyncReq 1 s
    else s

/-- The old active went on after a GO of this module (R275). -/
def goWasLost (f : TFrm) (s : State) : State :=
  let h := s.red.hand
  if !(h.goSent && executing s && s.red.partner.exec) then
    if s.red.partner.exec then s else setHand s { h with goSent := false }
  else if f.cycle != (h.n + 1) % 2 ^ 32 && f.cycle != h.n then redAlarm Reg.RED_ALARM_go_lost (setHand s { h with goSent := false })
  else s

/-- CRICKET_RECEIVE on a Tether lane. A partner that begins to execute may run another image than before. -/
def cricketReceive (l : Fin 2) (fcsOk : Bool) (frame : List Byte) (s : State) : State :=
  match rxTether l fcsOk frame s with
  | (s, some f) =>
    if f.typ != 1 then s
    else
      let p := crkPartner s f
      let began := s.red.partner.exec
      let s := setTLane (setRed s { s.red with partner := p }) l { s.red.lanes[l] with partnerRx := f.rxOk }
      let s := signOfLife false (p.ready && !p.leaving) s
      let s := if p.leaving then redAlarm Reg.RED_ALARM_leaving_seen s else s
      let s := if p.exec then sawExec s else s
      let s := if p.exec && !began && s.red.paired then learnImage s else s
      readyUpdate (pairForms (goWasLost f s))
  | (s, none) => s

/-! ### The claim (R261, R264 to R268) -/

/-- The classes begin anew, each with the last cycle number that its first elapsed count is taken from (R266, R267). -/
def clsFrom (last : List Nat) : PerCls ClassRun :=
  let c := fun (k : Nat) => ({ lastNo := last[k]? } : ClassRun)
  ⟨c 0, c 1, c 2, c 3⟩

/-- A delta of the partner that was not switched in is given up (R224). -/
def dropDeltas (s : State) : State :=
  let s := masters.foldl (fun (s : State) m =>
    let x := s.txn.get m
    if x.st != .idle && x.image && x.delta then txnAbort m s else s) s
  if s.xch.st == .pending then { s with xch := { deferrals := s.xch.deferrals } } else s

/-- FAST releases that no owner made before the first cycle: those after the last complete checkpoint's. -/
def missedReleases (s : State) (first : Nat) : Nat :=
  match s.red.ckAt with
  | some k => min 255 (unsgn 32 ((first : Int) - k - 1))
  | none => 0

/-- The consecutive overrun counts return to 0 when the engine starts executing (ENG_OVR_STATUS). -/
def clearConsec (s : State) : State := three.foldl (fun (s : State) k => setF s Reg.ENG_OVR_STATUS (consecFld k) 0) s

/-- A claim with its trigger: epoch, CLAIM on the Tether and on every ring, SOLO, and the first FAST cycle (R266). After a takeover the words of
the checkpoint are those captured last (R255); the claim of `START`, trigger 4, has made every one of them new. -/
def claimNow (trigger : Nat) (cause : Cause) (last : List Nat) (missed : Nat → Nat) (s : State) : State :=
  let s := dropDeltas (takeEpoch s)
  let t0 := gridUp (fastP s) (now s + 31250)
  let first := cycleNo s .fast t0
  let s := tetherBoth 7 first (beBytes 4 first) s
  let s := sendRings 3 (ownId s) s.red.epoch first [] s
  let s := enter .solo cause { s with cls := clsFrom last, untilOr := false }
  let s := setRed s { s.red with
    firstT0 := some t0, listen := none, listenAt := none, silence := 0, isolation := 0, hand := {}, outDelta := none, unacked := []
    inDelta := none, inOld := [], fullNext := s.red.fullNext || trigger == 4, resyncLeft := 0, requested := false
    ready := false, readySince := none, markSwitch := 0, lagging := false, lag := 0, sawExec := false }
  let s := setR s Reg.RED_LAST_TAKEOVER (Reg.RED_LAST_TAKEOVER_trigger.mk' trigger ||| Reg.RED_LAST_TAKEOVER_missed.mk' (missed first))
  let s := recEvent (satAdd s Reg.RED_EVENTS Reg.RED_EVENTS_claims 1) 0x0012 trigger 2
  ovrWindow (ovrCheck true (clearConsec s))

/-- A takeover from the last complete checkpoint. -/
def takeover (trigger : Nat) (s : State) : State := inheritXch (claimNow trigger .claim s.red.ckLast (missedReleases s) s)

/-- A standby with a trigger claims when it is takeover-ready; otherwise, and when DETACHED, it raises no_claim (R265). -/
def tryClaim (trigger : Nat) (s : State) : State :=
  if s.mode == .standby && standbyReady s then takeover trigger s
  else if s.mode == .standby || s.mode == .detached then redAlarm Reg.RED_ALARM_no_claim s
  else s

/-- The trigger that the silence of the partner gives: 3 after a Cricket with leaving and a whole silent interval, 2 after three (R265). -/
def silenceTrigger (s : State) : Option Nat :=
  if s.red.partner.leaving && decide (1 ≤ s.red.silence) then some 3
  else if 3 ≤ s.red.silence then some 2
  else none

/-- CLAIM_BY_SILENCE. -/
def claimBySilence (s : State) : State :=
  match silenceTrigger s with
  | some t => tryClaim t s
  | none => s

/-- CLAIM: the claim of a takeover-ready standby whose trigger stands. -/
def claim (s : State) : State :=
  match silenceTrigger s with
  | some t => if s.mode == .standby && standbyReady s then takeover t s else s
  | none => s

/-- RELEASE_RECEIVE (R265). -/
def releaseReceive (fromRing : Bool) (p : Fin 12) (fcsOk : Bool) (frame : List Byte) (s : State) : State :=
  if fromRing then
    match rxFgr p fcsOk frame s with
    | (s, some f) =>
      if f.typ != 4 then s
      else match rxModule p f s with
        | (s, true) => tryClaim 1 s
        | (s, false) => s
    | (s, none) => s
  else
    match rxTether (if p.val % 2 = 0 then 0 else 1) fcsOk frame s with
    | (s, some f) => if f.typ = 8 then tryClaim 1 s else s
    | (s, none) => s

/-- CLAIM_RECEIVE (R254, R262, R263, R271). -/
def claimReceive (fromRing : Bool) (p : Fin 12) (fcsOk : Bool) (frame : List Byte) (s : State) : State :=
  if fromRing then
    match rxFgr p fcsOk frame s with
    | (s, some f) =>
      if f.typ != 3 then s
      else match rxModule p f s with
        | (s, true) => sawExec (signOfLife true s.red.partner.ready s)
        | (s, false) => s
    | (s, none) => s
  else
    match rxTether (if p.val % 2 = 0 then 0 else 1) fcsOk frame s with
    | (s, some f) => if f.typ = 7 then sawExec s else s
    | (s, none) => s

/-! ### The end of a FAST interval (R254, R259, R265, R269, R277) -/

/-- One of the last signs of life of the partner lies in the FAST interval that ends at a T0, which is no part of it (R254). -/
def seenIn (s : State) (t0 : Int) (last before : Option Int) : Bool :=
  let inside := fun (x : Option Int) => match x with
    | some c => decide (t0 - fastP s ≤ c) && decide (c < t0)
    | none => false
  inside last || inside before

/-- Silent intervals: for a claim and for `START` (R254), and for isolation those that the last sign of life lies before (R269). -/
def countSilence (t0 : Int) (s : State) : State :=
  let r := s.red
  let silent := !seenIn s t0 r.lifeAt r.lifeBefore
  let waits := s.mode == .standby || s.mode == .detached || r.listen.isSome
  let alone := r.lifeAt.all fun x => decide (x < t0 - fastP s)
  setRed s { r with
    silence := if !waits || !silent then 0 else min 6 (r.silence + 1)
    isolation := if executing s && alone && r.lifeReady then min 4 (r.isolation + 1) else 0 }

/-- LAGGING is marked, and its cycles are counted (R259). A detached module counts the cycles of its resynchronisation too: after 64 it asks anew
(notes/assumptions/93.md). -/
def countLag (s : State) : State :=
  if s.mode == .standby then
    let lagging := lagNow s
    setRed s { s.red with lagging := lagging, lag := if lagging then min 64 (s.red.lag + 1) else 0 }
  else if s.mode == .detached && s.red.resyncLeft != 0 then
    if 64 ≤ s.red.lag + 1 then setRed s { s.red with lag := 0, resyncLeft := 0 } else setRed s { s.red with lag := s.red.lag + 1 }
  else s

/-- A standby goes DETACHED after a whole interval with the Tether down and the active seen on a ring; a DETACHED module whose Tether
is back asks for a full resynchronisation, which makes it a standby again (R78, R260, R277). -/
def followTether (t0 : Int) (s : State) : State :=
  let downAll := s.red.downAt.all fun x => decide (x ≤ t0 - fastP s)
  if s.mode == .standby && tetherDown s && downAll && seenIn s t0 s.red.ringAt s.red.ringBefore then detach s
  else if s.mode == .detached && pairStands s && s.red.partner.exec && s.red.resyncLeft == 0 then resyncReq 2 (setRed s { s.red with lag := 0 })
  else s

/-- Rings of a mask. -/
def ringCount (m : Nat) : Nat := ((List.range 6).filter fun k => bit m k).length

/-- Intervals in which the partner reports more rings with a good uplink (R270). -/
def countRings (s : State) : State :=
  setRed s { s.red with ringWorse := if s.mode == .active && decide (ringCount s.fgr.rings < ringCount s.red.partner.rings) then min 3 (s.red.ringWorse + 1) else 0 }

/-- The field side of an interval's end in a module that does not execute; an executing one does it at CYCLE_START. -/
def idleInterval (t0 : Int) (s : State) : State := if executing s then s else freezeInputs t0 (ringsInterval t0 s)

/-- STANDBY_INTERVAL_END: a FAST T0, once. -/
def standbyIntervalEnd (s : State) : State :=
  let t0 := t0Of s (fastP s)
  if !loaded s || s.mode == .boot || !edgeAt s t0 || s.red.endT0 == some t0 then s
  else
    let s := followTether t0 (countRings (countLag (countSilence t0 (idleInterval t0 s))))
    handTryGo (readyUpdate (setRed s { s.red with endT0 := some t0 }))

/-- ISOLATION (R269). -/
def isolation (s : State) : State :=
  if executing s && !s.isolated && decide (4 ≤ s.red.isolation) then redAlarm Reg.RED_ALARM_isolated { s with isolated := true } else s

/-! ### START's listening (R271) -/

/-- `START` has listened for its time. -/
def listenOver (s : State) : Bool :=
  match s.red.listen, s.red.listenAt with
  | some n, some x => decide (x + n ≤ now s)
  | _, _ => false

/-- START_LISTEN_END: STANDBY behind a partner that executes, otherwise the claim. -/
def startListenEnd (s : State) : State :=
  if s.mode == .hold && listenOver s then
    if s.red.sawExec then
      resyncReq 1 (enter .standby .command (setRed s { s.red with
        listen := none, listenAt := none, silence := 0, ckAt := none, lag := 0, readySince := none, requested := false }))
    else claimNow 4 .command [] (fun _ => 0) s
  else s

/-! ### Planned handover (R270, R273 to R276) -/

/-- A handover that no command asked for (R270, R276). -/
def handAsk (s : State) : State :=
  if s.sysPend.isNone && s.mode == .active then
    setHand { s with sysPend := some { cmd := .handover, masters := [] } } { s.red.hand with attempts := 0 }
  else s

/-- RING_HANDOVER_TRIGGER (R270). -/
def ringHandover (s : State) : State :=
  if flag s Reg.RED_CFG Reg.RED_CFG_ring_handover && decide (3 ≤ s.red.ringWorse) && s.mode == .active then
    handAsk (setRed s { s.red with ringWorse := 0 })
  else s

/-- HANDOVER_PROPOSE: at a FAST boundary, after a switch that is pending (R224, R273). One that is not ACTIVE any more, or whose partner is not
takeover-ready, cancels. -/
def handoverPropose (s : State) : State :=
  let p := fastP s
  let t0 := t0Of s p
  let h := s.red.hand
  if !edgeAt s t0 || !handWaits s || h.st == .proposed || h.st == .streaming || h.st == .go || s.xch.st == .pending ||
      s.xch.st == .reverting then s
  else if s.mode != .active || !partnerReady s then handCancel s
  else
    let n := unsgn 32 ((cycleNo s .fast (gridUp (slowPeriod s.img) (t0 + 2 * p)) : Int) - 1)
    tetherBoth 9 (fastNo s) (1 :: beBytes 4 n) (setHand s { h with st := .proposed, n := n, undo := none, taking := false })

/-- GO at the active, in time: it stops evaluating and holds the state of delta N again (R274 step 3). -/
def handGoRx (n : Nat) (s : State) : State :=
  let h := s.red.hand
  if h.st == .streaming && h.n == n then
    match handT0 s with
    | some t0 =>
      if now s < t0 + fastP s - 10000 then
        let s := match h.undo with
          | some u => { s with prog := u.prog, lse := u.lse, cls := u.cls }
          | none => s
        setHand s { h with st := .go, undo := none }
      else s
    | none => s
  else s

/-- NOGO at the active (R275). -/
def handNogoRx (n : Nat) (s : State) : State :=
  let h := s.red.hand
  if h.n == n && (h.st == .proposed || h.st == .streaming) then
    let a := h.attempts + 1
    if 16 ≤ a then
      redAlarm Reg.RED_ALARM_handover_failed (setHand (sysFinish 6 s) { h with st := .cancelled, undo := none, attempts := a })
    else setHand s { h with st := .idle, undo := none, attempts := a }
  else s

/-- HANDOVER_FRAME_RECEIVE. -/
def handoverFrame (l : Fin 2) (fcsOk : Bool) (frame : List Byte) (s : State) : State :=
  match rxTether l fcsOk frame s with
  | (s, some f) =>
    if f.typ != 9 then s
    else
      let n := beNat (slice f.body 1 4)
      match beNat (slice f.body 0 1) with
      | 1 => if s.mode == .standby && !s.red.hand.taking then setHand s { st := .proposed, n := n, attempts := s.red.hand.attempts } else s
      | 2 => if s.mode == .active then handGoRx n s else s
      | 3 => if s.mode == .active then handNogoRx n s else s
      | 4 => if secondary s then handAsk s else s
      | _ => s
  | (s, none) => s

/-- t_go after T0(N + 1): P − 8 µs − (D_FAST − 6 µs) − 2 µs (R274 step 2). -/
def goDeadline (s : State) : Int := (fastP s : Int) - 4000 - s.img.demand 0

/-- NOGO at the standby; the 16th cancels the handover at the active, which restarts the hold-off (R275, R276). -/
def handNogo (s : State) : State :=
  let h := s.red.hand
  let s := tetherBoth 9 (fastNo s) (3 :: beBytes 4 h.n) s
  if 16 ≤ h.attempts + 1 then
    setRed s { s.red with hand := { h with st := .idle, attempts := 0 }, requested := false, readySince := s.red.readySince.map fun _ => s.time.c }
  else setHand s { h with st := .idle, attempts := h.attempts + 1 }

/-- HANDOVER_GO_DEADLINE: GO if delta N is applied and the module is takeover-ready, otherwise NOGO. -/
def handGoDeadline (s : State) : State :=
  let h := s.red.hand
  if s.mode == .standby && h.st == .proposed then
    match handT0 s with
    | some t0 =>
      if now s < t0 + goDeadline s then s
      else if s.red.ckAt == some h.n && standbyReady s then handGo t0 s
      else handNogo s
    | none => s
  else s

end Sys2Proof.Machine
end

