-- ==== Sys2Proof/Machine/Sys.lean ====
section
/-!
DEFINITION. The module commands `START`, `STOP`, `SAFE`, `SERVICE` and `HANDOVER` (R79 to R82, R271, R371).
-/
namespace Sys2Proof.Machine

def sysDone (m : Master) (cmd status : Nat) (s : State) : State := cmdDone s m Reg.SYS_CMD_STATUS cmd status

def sysRefused (m : Master) (cmd : Nat) (s : State) : State := cmdRefused s m Reg.SYS_CMD Reg.SYS_CMD_STATUS cmd

/-- Every divider returns to its nominal value, by a ramp (R371). -/
def divNominal (s : State) : State :=
  let s := setR s Reg.CLK_DIV (Reg.resetValue Reg.CLK_DIV)
  if divSettled s s.clk then s else { s with clk := { s.clk with ramping := true } }

/-- What `START` makes new: lane B, LATENT history, DIO latches, outputs, stations, the program's memory with the retentive set, and the
class counts (R61, R66, R116, R130, R138, R146, R202, R233, R235, R351, R354); the pass count of BACKGROUND is one of them
(notes/assumptions/81.md). -/
def startFresh (s : State) : State :=
  let s := setLane s { s.lane with bOff := false, hist := [], fault := none, lost := PerCls.all none, inject := none }
  let s := { s with io := { s.io with grp := s.io.grp.map fun x => { x with latched := false } } }
  let s := stasReset (outputsNew s)
  let s := progRestart { s with cls := PerCls.all {}, lastOc := none, retain := { s.retain with t0s := PerCls.all none, baseT0s := PerCls.all none } }
  clearConsec s

/-- The time for which `START` listens: 3 FAST intervals as PRIMARY, 6 as SECONDARY (R271). -/
def listenNs (s : State) : Nat := (if secondary s then 6 else 3) * fastP s

/-- `START` begins; its listening begins when no divider ramps (R271, R371). -/
def sysStartNow (s : State) : State :=
  let s := startFresh (divNominal s)
  setRed s { s.red with
    listen := some (listenNs s), listenAt := if s.clk.ramping then none else some (now s), silence := 0, sawExec := false, firstT0 := none, hand := {} }

/-- `START`. -/
def sysStart (m : Master) (s : State) : State :=
  if s.mode != .hold then sysRefused m 1 s
  else if !loaded s then sysDone m 1 3 s
  else if s.dbg.frozen then sysDone m 1 4 s
  else if s.red.listen.isSome then sysDone m 1 0 s
  else sysDone m 1 0 (sysStartNow s)

/-- A standby, detached or listening module leaves its part in the pair. -/
def leavePair (s : State) : State :=
  let s := if s.red.hand.taking then haltEngine s else s
  setRed s { s.red with listen := none, listenAt := none, hand := {}, inDelta := none, inOld := [], requested := false, silence := 0, lagging := false, lag := 0, resyncLeft := 0, ckAt := none }

/-- A deferred command is accepted (R81). -/
def sysDefer (m : Master) (cmd : Nat) (c : SysCmd) (s : State) : State :=
  sysDone m cmd 2 { s with sysPend := some { cmd := c, masters := [m] } }

/-- `STOP`. -/
def sysStop (m : Master) (s : State) : State :=
  if s.mode == .solo then (if s.sysPend.isSome then sysDone m 2 4 s else sysDefer m 2 .stop s)
  else if s.mode == .standby || s.mode == .detached || s.mode == .safe || s.mode == .service then
    let s := enter .hold .command (leavePair { s with owner := false })
    sysDone m 2 0 (setB s Reg.ENG_OVR_STATUS Reg.ENG_OVR_STATUS_wd_trip false)
  else sysRefused m 2 s

/-- `SAFE`. -/
def sysSafe (m : Master) (s : State) : State :=
  if executing s then
    match s.sysPend with
    | some p =>
      if p.cmd == .safe then sysDone m 3 2 { s with sysPend := some { p with masters := p.masters ++ [m] } }
      else sysDefer m 3 .safe (sysFinish 6 (handCancel s))
    | none => sysDefer m 3 .safe s
  else if s.mode == .hold || s.mode == .standby || s.mode == .detached then sysDone m 3 0 (readyUpdate (safeNow (leavePair s)))
  else sysRefused m 3 s

/-- `SERVICE`. -/
def sysService (m : Master) (s : State) : State :=
  if s.mode == .hold || s.mode == .safe then sysDone m 4 0 (enter .service .command (leavePair { s with owner := false, untilOr := false }))
  else sysRefused m 4 s

/-- `HANDOVER`. -/
def sysHandover (m : Master) (s : State) : State :=
  if s.mode != .active then sysRefused m 5 s
  else if s.sysPend.isSome then sysDone m 5 4 s
  else setHand (sysDefer m 5 .handover s) { s.red.hand with attempts := 0 }

/-- A write of SYS_CMD. -/
def sysCmd (m : Master) (v : Word) (s : State) : State :=
  match Reg.SYS_CMD_cmd.get v with
  | 1 => sysStart m s
  | 2 => sysStop m s
  | 3 => sysSafe m s
  | 4 => sysService m s
  | 5 => sysHandover m s
  | n => sysDone m n 5 s

/-- SYS_STATE. -/
def sysState (s : State) : Word :=
  Reg.SYS_STATE_designation.mk' (b2n (secondary s)) ||| Reg.SYS_STATE_cause.mk' s.cause.code ||| Reg.SYS_STATE_prev.mk' s.prev.code |||
  Reg.SYS_STATE_state.mk' s.mode.code

end Sys2Proof.Machine
end

