-- ==== Sys2Proof/Machine/BootRec.lean ====
section
/-!
DEFINITION. The boot record in Ballast (R432), Archive slots and packages (R430, R431), and the ends of a service session and of a debug
session (R418, R427, R428).
-/
namespace Sys2Proof.Machine

/-! ### The boot record (R432, Table 18.8) -/

def lrbp : List Byte := [0x4C, 0x52, 0x42, 0x50]
def bootCopy0 : Nat := 0x404000
def bootCopy1 : Nat := 0x404040

/-- The boot record. Its values without a valid copy are those of a new module, with its first firmware in FW-A
(notes/assumptions/31.md). -/
structure BootRecord where
  seq : Nat := 0
  fwBoot : Nat := 0
  siBoot : Nat := 0
  prevFw : Nat := 0
  prevSi : Nat := 0
  states : Nat := 5
  attempts : Nat := 0
  confirmMin : Nat := 10
  autostart : Bool := false
  selfConf : Bool := false
  unconfS : Nat := 0
  deriving DecidableEq, Repr

/-- A copy is valid: magic and crc. -/
def bootValid (l : List Byte) : Bool := l.take 4 == lrbp && leNat (slice l 60 4) == (crc32c (l.take 60)).toNat

def bootDecode (l : List Byte) : BootRecord :=
  let n := fun (o k : Nat) => leNat (slice l o k)
  { seq := n 4 4, fwBoot := bits (n 8 1) 0 1, siBoot := bits (n 8 1) 1 1, prevFw := bits (n 9 1) 0 1, prevSi := bits (n 9 1) 1 1
    states := n 10 2, attempts := n 12 1, confirmMin := n 13 1, autostart := bit (n 14 1) 0, selfConf := bit (n 14 1) 1, unconfS := n 16 4 }

def bootEncode (r : BootRecord) : List Byte :=
  let b := lrbp ++ leBytes 4 r.seq ++ leBytes 1 (r.fwBoot + 2 * r.siBoot) ++ leBytes 1 (r.prevFw + 2 * r.prevSi) ++ leBytes 2 r.states ++
    leBytes 1 r.attempts ++ leBytes 1 r.confirmMin ++ leBytes 1 (b2n r.autostart + 2 * b2n r.selfConf) ++ [0] ++ leBytes 4 r.unconfS ++
    List.replicate 40 0
  b ++ leBytes 4 (crc32c b).toNat

/-- The place of the valid copy with the higher seq. -/
def bootPlace (m : SMap 8) : Option Nat :=
  let a := ldBytes m bootCopy0 64
  let b := ldBytes m bootCopy1 64
  match bootValid a, bootValid b with
  | true, true => some (if (bootDecode a).seq < (bootDecode b).seq then bootCopy1 else bootCopy0)
  | true, false => some bootCopy0
  | false, true => some bootCopy1
  | false, false => none

/-- The boot record in force. -/
def bootRec (s : State) : BootRecord :=
  match bootPlace s.ballast with
  | some a => bootDecode (ldBytes s.ballast a 64)
  | none => {}

/-- Write the boot record: into the copy that does not hold the record in force, with seq + 1. -/
def bootWrite (r : BootRecord) (s : State) : State :=
  let at' := if bootPlace s.ballast == some bootCopy0 then bootCopy1 else bootCopy0
  { s with ballast := stBytes s.ballast at' (bootEncode { r with seq := ((bootRec s).seq + 1) % 2 ^ 32 }) }

/-- Change the boot record. -/
def bootMod (f : BootRecord → BootRecord) (s : State) : State := bootWrite (f (bootRec s)) s

/-! ### Slot states (Table 18.7): slots 0 FW-A, 1 FW-B, 2 SI-A, 3 SI-B -/

def BootRecord.slotState (r : BootRecord) (i : Nat) : Nat := bits r.states (4 * i) 4

def BootRecord.putSlot (i v : Nat) (r : BootRecord) : BootRecord :=
  { r with states := r.states - r.slotState i * 2 ^ (4 * i) + v * 2 ^ (4 * i) }

/-- The boot slot of a kind, and the other one. -/
def BootRecord.bootSlot (r : BootRecord) (image : Bool) : Fin 4 :=
  if image then (if r.siBoot = 0 then 2 else 3) else if r.fwBoot = 0 then 0 else 1

def BootRecord.otherSlot (r : BootRecord) (image : Bool) : Fin 4 :=
  if image then (if r.siBoot = 0 then 3 else 2) else if r.fwBoot = 0 then 1 else 0

/-- The boot firmware is UNCONFIRMED. -/
def BootRecord.unconfirmed (r : BootRecord) : Bool := r.slotState r.fwBoot == 4

/-- Operating seconds (R392). -/
def opTotal (s : State) : Nat := s.rtc.opH.toNat * 3600 + s.rtc.opS

/-- unconf_s now: what the record holds and the operating seconds since (R436). -/
def unconfNow (s : State) : Nat :=
  let r := bootRec s
  if r.unconfirmed then r.unconfS + (opTotal s - s.upd.unconfS) else r.unconfS

/-- unconf_s goes to the boot record with the flushes of R392 (R436). -/
def unconfFlush (s : State) : State :=
  if (bootRec s).unconfirmed then
    let n := unconfNow s
    bootMod (fun r => { r with unconfS := n }) { s with upd := { s.upd with unconfS := opTotal s } }
  else s

/-- confirm_min as it acts: 0 acts as 1, above 60 as 60. -/
def confirmMin (s : State) : Nat := max 1 (min 60 (s.regs.get Reg.UPD_CFG ^^^ Reg.resetValue Reg.UPD_CFG).toNat)

/-- The fallback of R438 is due (R436). -/
def fallbackDue (s : State) : Bool :=
  let r := bootRec s
  r.unconfirmed && ((decide (3 ≤ r.attempts) && !r.selfConf) || decide (60 * confirmMin s ≤ unconfNow s))

/-! ### Packages (R430) -/

def lrup : List Byte := [0x4C, 0x52, 0x55, 0x50]

/-- A field of a manifest. -/
def manNum (l : List Byte) (o n : Nat) : Nat := leNat (slice l o n)
def manKind (l : List Byte) : Nat := manNum l 6 1
def manLen (l : List Byte) : Nat := manNum l 8 4
def manBlocks (l : List Byte) : Nat := manNum l 12 4
def manKey (l : List Byte) : Nat := manNum l 28 4

/-- The checks of a manifest at its arrival (R433): 0 good, 4 MANIFEST, 5 HW_REV. -/
def manifestFault (s : State) (image : Bool) (l : List Byte) : Nat :=
  let n := manLen l
  let span := if image then decide (64 ≤ n) && decide (n ≤ 7340032) else decide (1 ≤ n) && decide (n ≤ 67108864)
  let good := l.take 4 == lrup && manNum l 4 2 == 1 && manNum l 124 4 == (crc32c (l.take 124)).toNat && manKind l == b2n image && span &&
    manBlocks l == (n + 65535) / 65536
  if !good then 4
  else if Reg.SYS_ID_rev.get (getR s Reg.SYS_ID) < manNum l 7 1 then 5
  else 0

/-- A block with its CRC is good. -/
def blockGood (b : List Byte) : Bool := b.length == 65540 && leNat (slice b 65536 4) == (crc32c (b.take 65536)).toNat

/-- Every block of a slot, in order. -/
def ArchSlot.inOrder (x : ArchSlot) : List (List Byte) := (List.range (manBlocks x.manifest)).map fun i => (Tab.get? x.blocks i).getD []

def ArchSlot.whole (x : ArchSlot) : Bool := !x.manifest.isEmpty && x.inOrder.all fun b => !b.isEmpty

/-- The payload of a package. -/
def ArchSlot.payload (x : ArchSlot) : List Byte := (x.inOrder.flatMap fun b => b.take 65536).take (manLen x.manifest)

/-- The signed bytes of a package. -/
def ArchSlot.signed (x : ArchSlot) : List Byte := x.manifest ++ x.inOrder.flatten

/-- A firmware key in ROM by its key_id (R430). -/
def firmwareKey (id : Nat) : Option (List Byte) :=
  if id = 0xDA000001 ∨ id = 0xDA000002 then some (Config.romKey (BitVec.ofNat 32 id)) else none

/-- The signature of a package (R39, R430): 0 good, 2 SIGNATURE, 3 UNKNOWN_KEY. An image package without a trailer, or with key_id 0, is
unsigned (notes/assumptions/32.md). -/
def packageFault (s : State) (x : ArchSlot) : Nat :=
  let image := manKind x.manifest == 1
  let id := manKey x.manifest
  if image && (x.trailer.isEmpty || id == 0) then (if secState s = 1 then 2 else 0)
  else match (if image then imageKey s id else firmwareKey id) with
    | none => 3
    | some k =>
      if manNum x.trailer 0 4 == id && manNum x.trailer 4 4 == 0 && ed25519 k x.signed (slice x.trailer 8 64) then 0 else 2

def setSlot (s : State) (i : Fin 4) (x : ArchSlot) : State := { s with upd := { s.upd with slots := s.upd.slots.set i x } }

/-! ### The ends of sessions (R54, R418, R419, R427, R428) -/

/-- Rules 2 to 4 of Table 18.4 are enabled with a proven session and disabled at its end, by a commit (R428). -/
def serviceRules (on : Bool) (s : State) : State :=
  let before := s
  let s := [2, 3, 4].foldl (fun (s : State) r => setB s (Reg.ART_ATTR r) Reg.ART_ATTR_enable on) s
  if artRules before == artRules s then s else wrapAdd (artEpoch before s) Reg.CTU_COMMITS ⟨0, 32⟩ 1

/-- A service session ends: the service client is reset (R427). -/
def svcEnd (s : State) : State :=
  if s.svc.session.isNone then s
  else masterReset .service (serviceRules false { s with svc := { s.svc with session := none } })

/-- The debug state becomes CLOSED (R418). -/
def dbgEnd (s : State) : State :=
  if s.dbg.st = 0 then s
  else masterReset .debug { s with dbg := { s.dbg with st := 0, openedBy := 0, nonceAt := none, verifying := false } }

/-- A frozen engine thaws, halted cores resume (R420, R421). -/
def dbgRelease (s : State) : State := { s with dbg := { s.dbg with frozen := false, mc0 := false, mc1 := false } }

end Sys2Proof.Machine
end

