-- ==== Sys2Proof/Machine/Pwr.lean ====
section
/-!
DEFINITION. Power states and stops (R369, R377 to R380), and what power-up and rack reset leave (R6, R382).
-/
namespace Sys2Proof.Machine

/-! ### What a reset leaves (R6, R385, R416) -/

/-- The key slot registers, which hold their values across reset. -/
def keyAddrs : List Nat :=
  (List.range 8).flatMap fun i => Reg.SEC_KEY_ID i :: Reg.SEC_KEY_CTL i :: (List.range 8).map fun j => Reg.SEC_KEY_PUB i j

/-- The module after power-up or rack reset, held in reset: what keeps its values is the key slots and fuses, the RTC domain, Ballast, the
Archive, and the strap; the rack lanes are outside. The raw counter starts at 0 (R300). -/
def freshReset (s : State) : State :=
  { ({} : State) with
    pending := s.pending, out := s.out, freeCtr := s.freeCtr, strap := s.strap, bal := { s.bal with xchLost := s.bal.xchLost || s.xch.st != .none }
    ballast := s.ballast, rtc := { s.rtc with secC := 0 }
    regs := keyAddrs.foldl (fun m a => m.put a (s.regs.get a)) SMap.empty
    rcd := { archives := s.rcd.archives }, art := { fuse0 := s.art.fuse0, fuse1 := s.art.fuse1 }
    upd := { slots := s.upd.slots } }

/-- An exchange that a reset has ended is shown and recorded at boot, whatever its state was (R225). -/
def xchLost (s : State) : State :=
  if s.bal.xchLost then recEvent (setB { s with bal := { s.bal with xchLost := false } } Reg.XCH_STATUS Reg.XCH_STATUS_lost true) 0x000E 0 2 else s

/-! ### HOLDUP (R378 to R380, R420, R427, R442) -/

/-- HOLDUP_ENTRY: the third consecutive sample below 18.0 V. -/
def holdupEntry (s : State) : State :=
  if s.pwr.st != .main || decide (s.pwr.low < 3) then s
  else
    let s := { s with pwr := { s.pwr with st := .holdup, entryC := s.time.c, stopped := false } }
    let s := setRed s { s.red with leaving := true }
    let s := retFlush (unconfFlush (opFlush s))
    let s := scarabEnd (svcEnd (dbgRelease (dbgEnd s)))
    let s := satAdd (setB s Reg.PWR_ALARM Reg.PWR_ALARM_holdup true) Reg.PWR_EVENTS Reg.PWR_EVENTS_holdups 1
    recEvent s 0x0014 0 1

/-- RETAIN_WRITE_COMPLETE: in HOLDUP the recorder flush begins when the last retentive write has ended (R379). -/
def retainWriteComplete (s : State) : State :=
  let t := retDone s
  if s.pwr.st == .holdup && s.retain.writing.isSome && t.retain.writing.isNone then startFlush 1 t else t

/-- SUPPLY_RETURN before t_s: the module is in MAIN again (R380). -/
def supplyBack (s : State) : State :=
  let s := archiveNext <| setRed { s with pwr := { s.pwr with st := .main } } { s.red with leaving := false }
  let s := setR s Reg.PWR_LAST_HOLDUP (BitVec.ofNat 32 ((s.time.c - s.pwr.entryC) / 250))
  satAdd (setB s Reg.PWR_ALARM Reg.PWR_ALARM_returned true) Reg.PWR_EVENTS Reg.PWR_EVENTS_returns 1

/-! ### Stops (R369, R379, R382) -/

/-- The reset record: the earlier stop's cause, and the later one's beside it (R382). -/
def noteStop (cause : Nat) (s : State) : State :=
  let b := s.bal
  let b := if b.cause = 0 then { b with cause := cause } else if b.cause ≠ cause ∧ b.also = 0 then { b with also := cause } else b
  { s with bal := if cause = 2 then { b with stops := min 255 (b.stops + 1) } else { b with clockStops := min 255 (b.clockStops + 1) } }

/-- Steps 1 to 3 of R369 with what follows them: the engine has stopped, releases are cancelled, outputs are off, no frame starts, and the module
is in reset. Power, lanes and clocks stand as they are. -/
def stopModule (s : State) : State :=
  { freshReset s with time := s.time, pwr := s.pwr, clk := { s.clk with req := none }
                      regs := (freshReset s).regs.put Reg.PWR_BANK (s.regs.get Reg.PWR_BANK) }

/-- The Cricket with leaving set, on each lane that is up (R369). -/
def leavingCricket (s : State) : State :=
  let s := setRed s { s.red with leaving := true }
  let r := s.red
  let flags := b2n r.ready + 2 * b2n (lagNow s) + 4 + 8 * b2n (executing s)
  let body := [BitVec.ofNat 8 s.mode.code, BitVec.ofNat 8 flags, BitVec.ofNat 8 s.xch.st.code, BitVec.ofNat 8 s.fgr.rings] ++
    beBytes 4 (getF s Reg.RED_CKPT Reg.RED_CKPT_value) ++ beBytes 8 (unsgn 64 (now s))
  let s := if s.red.lanes[0].up then tetherSend 0 1 (fastNo s) body s else s
  if s.red.lanes[1].up then tetherSend 1 1 (fastNo s) body s else s

/-- CLOCK_LOSS_STOP: after 20 µs of holdover (R369). After a power-fail stop it is only noted. -/
def clockLossStop (s : State) : State :=
  let due : Bool := match s.clk.holdAt with
    | some c => decide (c + usT 20 ≤ s.time.c)
    | none => false
  if !due then s
  else if s.held then (if s.bal.cause == 3 || s.bal.also == 3 then s else noteStop 3 s)
  else stopModule (noteStop 3 (leavingCricket s))

/-- The gates after t_s: every gate off but gate 7 and those that cannot be turned off (R379, Table 15.3). -/
def stopGates : BitVec 64 := 0x8F

/-- RIDE_THROUGH_STOP: at entry + ride_us (R379). After a clock-loss stop it is only noted. -/
def rideThroughStop (s : State) : State :=
  if s.pwr.st != .holdup || s.pwr.stopped || decide (s.time.c < s.pwr.entryC + usT (rideUs s)) then s
  else
    let s := noteStop 2 { s with pwr := { s.pwr with stopped := true } }
    if s.held then s
    else
      let s := stopModule s
      { s with clk := { s.clk with gates := stopGates } }

/-- BACKUP_ENTRY: the bank has reached 12.0 V, and the logic goes off (R377, R380). -/
def backupEntry (s : State) : State :=
  if s.pwr.st == .holdup && decide (getF s Reg.PWR_BANK Reg.PWR_BANK_bank ≤ 12000) then
    { freshReset s with pwr := { st := .backup } }
  else s

/-- The supply has been at or above 19.0 V for 1 ms. -/
def supplyGood (s : State) : Bool := sinceAtLeast s s.pwr.goodSince (msT 1)

end Sys2Proof.Machine
end

