-- ==== Sys2Proof/Machine/Boot.lean ====
section
/-!
DEFINITION. Reset, boot and firmware restart (R78, R82, R225, R382, R393, R428, R436 to R438).
-/
namespace Sys2Proof.Machine

/-! ### Into BOOT (R78, R382, R436) -/

/-- At every boot into an UNCONFIRMED firmware the ROM counts an attempt unless it is self-confirmed (R436). -/
def bootAttempt (s : State) : State :=
  let r := bootRec s
  let s := { s with upd := { s.upd with unconfS := opTotal s, checksOk := false } }
  if r.unconfirmed && !r.selfConf then bootMod (fun r => { r with attempts := min 3 (r.attempts + 1) }) s else s

/-- The reset record goes into PWR_RESET, the stop counts into PWR_EVENTS, and a power cycle is counted (R382, R392). -/
def resetRecord (s : State) : State :=
  let b := s.bal
  let s := if b.cause = 0 then s else setR s Reg.PWR_RESET (Reg.PWR_RESET_also.mk' b.also ||| Reg.PWR_RESET_cause.mk' b.cause)
  let c := getF s Reg.PWR_RESET Reg.PWR_RESET_cause
  let s := setF (setF s Reg.PWR_EVENTS Reg.PWR_EVENTS_stops b.stops) Reg.PWR_EVENTS Reg.PWR_EVENTS_clock_stops b.clockStops
  { s with bal := { b with cause := 0, also := 0, pcycles := if c = 0 ∨ c = 2 then b.pcycles + 1 else b.pcycles } }

/-- The lane that REF takes: the preferred one when it is GOOD, otherwise the other (R382). -/
def refSelect (k : Clocks) (p : Bool) : Bool := if (refLane k p).st == .good then p else !p

/-- The hold ends when a lane is GOOD: REF, PLL0 and PLL1 lock, and the module is in BOOT, with the recorder's region restored (R398). -/
def leaveHold (s : State) : State :=
  if s.held && s.pwr.st == .main && (s.clk.a.st == .good || s.clk.b.st == .good) then
    let k := { ({} : Clocks) with a := s.clk.a, b := s.clk.b, selB := refSelect s.clk ((prefLane s).getD false), pll0 := true, pll1 := true }
    let s := resetRecord { s with held := false, clk := k, time := {}, mode := .boot, prev := .boot, cause := .powerUp }
    bootAttempt (xchLost (recRestore (rtcPowerUp s)))
  else s

/-- A lane that is GOOD by the row's own account, after 3 passing windows. -/
def goodLane (good : Bool) : RefLane := if good then { st := .good, run := 3 } else {}

/-- POWER_UP (R382). -/
def powerUp (strap aGood bGood : Bool) (s : State) : State :=
  leaveHold { freshReset s with strap := strap, clk := { a := goodLane aGood, b := goodLane bGood } }

/-- RACK_RESET (R382): the cause is the rack's. -/
def rackReset (aGood bGood : Bool) (s : State) : State :=
  let t := freshReset s
  let t := setR { t with bal := { t.bal with cause := 0, also := 0 } } Reg.PWR_RESET (Reg.PWR_RESET_cause.mk' 1)
  leaveHold { t with clk := { a := goodLane aGood, b := goodLane bGood } }

/-- SUPPLY_RETURN: before t_s back to MAIN. From t_s on the module's own power-on reset finds the supply, and it boots when a lane is GOOD (R380). -/
def supplyReturn (s : State) : State :=
  if s.pwr.st != .holdup || !supplyGood s then s
  else if s.pwr.stopped || s.held then leaveHold { s with pwr := {}, clk := if s.pwr.stopped then {} else s.clk }
  else supplyBack s

/-- FW_RESTART: the cores restart, the engine is not loaded, sessions and commands of firmware end (R54, R78, R439). -/
def fwRestart (s : State) : State :=
  let before := s
  let s := svcEnd (sysFinish 6 (haltEngine s))
  let s := masterReset .mc1 (masterReset .mc0 s)
  let s := enter .boot .fwRestart (leavePair { s with owner := false, untilOr := false })
  let s := xchLost (recRestore { s with
    xch := {}, img := {}, container := [], recRoots := [], upd := { s.upd with dl := none, verifying := none, total := 0, done := 0 }
    bal := { s.bal with xchLost := s.bal.xchLost || s.xch.st != .none } })
  let s := trigsStart before (trigsOff false before.img (setRegs (s.img.infoRegs s) s))
  let s := setR s Reg.PWR_RESET (Reg.PWR_RESET_cause.mk' 4)
  bootAttempt { s with dbg := { s.dbg with mc0 := false, mc1 := false } }

/-- UPD_FALLBACK (R438). -/
def updFallback (s : State) : State :=
  if !fallbackDue s then s
  else
    let bad := (bootRec s).fwBoot
    let s := bootMod (fun r => ({ r with fwBoot := r.prevFw, siBoot := r.prevSi }).putSlot bad 6) s
    let s := fwRestart s
    recEvent { s with upd := { s.upd with fail := 8 } } 0x0015 bad 2

/-! ### BOOT_DONE (R78, R82, R393, R398, R428, R436, R437) -/

/-- The ROM's check of a firmware slot. The firmware that the module was delivered with has no package in the Archive
(notes/assumptions/31.md). -/
def romCheck (s : State) (i : Fin 4) : Bool :=
  let x := s.upd.slots[i]
  if x.manifest.isEmpty then (bootRec s).slotState i == 5 || (bootRec s).slotState i == 4
  else x.whole && x.inOrder.all blockGood && packageFault s x == 0

/-- The firmware slot that the ROM boots, with a slot that failed marked FAILED. -/
def romBoot (s : State) : State × Option (Fin 4) :=
  let i := (bootRec s).bootSlot false
  if romCheck s i then (s, some i)
  else
    let s := bootMod (fun r => r.putSlot i 6) s
    let j := (bootRec s).otherSlot false
    if (bootRec s).slotState j != 5 then (s, none)
    else if romCheck s j then (s, some j)
    else (bootMod (fun r => r.putSlot j 6) s, none)

/-- The firmware rules of Table 18.4. -/
def firmwareRules (s : State) : State :=
  let put := fun (s : State) (r base size set attr : Nat) => setRegs [(Reg.ART_BASE r, BitVec.ofNat 32 base), (Reg.ART_SIZE r, BitVec.ofNat 32 size),
    (Reg.ART_MASTERS r, BitVec.ofNat 32 set), (Reg.ART_ATTR r, BitVec.ofNat 32 attr)] s
  let s := put s 0 0x00030000 0x00010000 16 0x80000003
  let s := put s 1 0x10000000 0x02000000 16 0x80000003
  let s := put s 2 0x00000000 0x00800000 4 3
  let s := put s 3 0x08000000 0x01000000 4 1
  put s 4 0x10000000 0x30000000 4 3

/-- The default histograms (R393). -/
def defaultHists (s : State) : State :=
  (List.range 256).foldl (fun (s : State) h => setRegs [(Reg.REC_H_CFG h, Config.recDefault h 0), (Reg.REC_H_BASE h, Config.recDefault h 4),
    (Reg.REC_H_WIDTH h, Config.recDefault h 8)] s) s

/-- The boot image slot's container is verified and committed (R437); one that fails leaves the module without an image, its slot FAILED. -/
def bootImage (s : State) : State :=
  let i := (bootRec s).bootSlot true
  let x := s.upd.slots[i]
  if x.manifest.isEmpty then s
  else
    let c := x.payload
    let v := loadVerify s true (listRd c) c.length
    let s := loadReport v.res s
    match v.image with
    | some g => commitFull g c (recRootsNow s) s
    | none => bootMod (fun r => r.putSlot i 6) s

/-- Self-confirmation: in HOLD or later, own checks passed, X40 up (R436). -/
def selfConfirm (s : State) : State :=
  let r := bootRec s
  if s.mode != .boot && s.upd.checksOk && s.svc.link && r.unconfirmed && !r.selfConf then bootMod (fun r => { r with selfConf := true }) s else s

/-- The running firmware's slot and version, and its checks. -/
def runFirmware (i : Fin 4) (checksOk : Bool) (s : State) : State :=
  { s with upd := { s.upd with fwSlot := i, version := BitVec.ofNat 32 (manNum s.upd.slots[i].manifest 16 4), checksOk := checksOk } }

/-- What firmware loads from the module's factory calibration record before BOOT ends: the PHY latencies of the ports (R305), the delays of the
DI channels (R343) and the trim of the current-loop outputs (R357). -/
def calRestore (s : State) : State :=
  let put := fun (a v n : Nat) (s : State) => setRegs [(a, BitVec.ofNat 32 (v % 2 ^ n))] s
  let s := (List.range 12).foldl (fun s p => put (Reg.PTP_LAT_OUT p) (Config.calibration 1 p) 16 (put (Reg.PTP_LAT_IN p) (Config.calibration 0 p) 16 s)) s
  let s := (List.range 32).foldl (fun s c => put (Reg.DIO_CH_DELAY c) (Config.calibration 2 c) 20 s) s
  (List.range 8).foldl (fun s u => put (Reg.AO_TRIM_OFS u) (Config.calibration 4 u) 32 (put (Reg.AO_TRIM_GAIN u) (Config.calibration 3 u) 32 s)) s

/-- BOOT_DONE: firmware has started and has loaded the boot image slot, or found no valid image. -/
def bootDone (checksOk : Bool) (s : State) : State :=
  if s.mode != .boot || fallbackDue s then s
  else
    match romBoot s with
    | (s, none) => s
    | (s, some i) =>
      let r := bootRec s
      let s := runFirmware i checksOk s
      let s := setR s Reg.SYS_CFG (Reg.SYS_CFG_autostart.mk' (b2n r.autostart))
      let s := calRestore s
      let s := setR s Reg.UPD_CFG (Reg.UPD_CFG_confirm_min.mk' r.confirmMin)
      let s := if s.cause == .powerUp then defaultHists s else s
      let s := bootImage (firmwareRules s)
      let s := selfConfirm (enter .hold .bootDone s)
      if r.autostart && loaded s && !s.dbg.frozen then sysStartNow s else s

end Sys2Proof.Machine
end

