-- ==== Sys2Proof/Machine/Upd.lean ====
section
/-!
DEFINITION. Firmware update (R433 to R436, R439) and the Archive write of an exchange (R222).
-/
namespace Sys2Proof.Machine

def updDone (m : Master) (cmd status : Nat) (s : State) : State := cmdDone s m Reg.UPD_CMD_STATUS cmd status

def updRefused (m : Master) (cmd : Nat) (s : State) : State := cmdRefused s m Reg.UPD_CMD Reg.UPD_CMD_STATUS cmd

def setUpd (s : State) (u : Update) : State := { s with upd := u }

/-- The slot that a command acts on: the last target where its state fits, otherwise the lowest slot that is no boot slot and whose state
fits (notes/assumptions/33.md). -/
def slotFor (s : State) (fits : Nat → Bool) : Option (Fin 4) :=
  let r := bootRec s
  let free := fun (i : Fin 4) => i != r.bootSlot false && i != r.bootSlot true && fits (r.slotState i)
  let t : Fin 4 := ⟨s.upd.target % 4, by omega⟩
  if free t then some t else (List.finRange 4).find? free

/-! ### DOWNLOAD (R431, R435) -/

/-- `DOWNLOAD` with a kind. -/
def updDownload (m : Master) (image : Bool) (s : State) : State :=
  if s.mode == .boot then updRefused m 1 s
  else if s.upd.verifying.isSome then updDone m 1 2 s
  else
    let i := (bootRec s).otherSlot image
    let s := bootMod (fun r => r.putSlot i 1) s
    updDone m 1 0 (setUpd s { s.upd with dl := some { image := image, slot := i }, target := i, fail := 0, total := 0, done := 0 })

/-- Programmed blocks of a slot. -/
def ArchSlot.programmed (x : ArchSlot) : Nat := x.blocks.length

/-- The manifest has arrived and is good: a download of the same package resumes, another erases the slot (R435). -/
def manifestTaken (d : Download) (l : List Byte) (s : State) : State :=
  let old := s.upd.slots[d.slot]
  let x : ArchSlot := if old.manifest.length == 128 && manNum old.manifest 124 4 == manNum l 124 4 then { old with manifest := l } else { manifest := l }
  let s := setSlot s d.slot x
  let s := setUpd s { s.upd with total := manBlocks l, done := x.programmed }
  if x.whole then bootMod (fun r => r.putSlot d.slot 2) s else s

/-- The manifest is refused, and the download ends (R433). -/
def manifestBad (fault : Nat) (s : State) : State := setUpd s { s.upd with dl := none, fail := fault }

/-- A block has all its bytes (R433). -/
def blockTaken (d : Download) (k : Nat) (l : List Byte) (s : State) : State :=
  if !blockGood l then setUpd s { s.upd with fail := 1 }
  else
    let x := s.upd.slots[d.slot]
    let x := { x with blocks := Tab.put x.blocks k l }
    let s := setSlot s d.slot x
    let s := setUpd s { s.upd with done := x.programmed }
    if x.whole then bootMod (fun r => r.putSlot d.slot 2) s else s

/-- The bytes of parts from offset 0 on, as far as they leave no gap. -/
def joinParts : Tab (List Byte) → List Byte → List Byte
  | [], acc => acc
  | p :: l, acc => if p.1 ≤ acc.length then joinParts l (acc ++ p.2.drop (acc.length - p.1)) else joinParts l acc

/-- The length of the manifest, the trailer or a block with its CRC. -/
def putSize (blk : Nat) : Nat := if blk = 0xFFFF then 128 else if blk = 0xFFFE then 72 else 65540

/-- The download takes a part: a whole manifest, trailer or block is acted on and its parts dropped (R433). -/
def putPart (d : Download) (blk off : Nat) (data : List Byte) (s : State) : State :=
  let parts := Tab.put ((Tab.get? d.parts blk).getD []) off data
  let all := joinParts parts []
  if all.length = putSize blk then
    let d := { d with parts := Tab.erase d.parts blk }
    let s := setUpd s { s.upd with dl := some d }
    if blk = 0xFFFF then
      let f := manifestFault s d.image all
      if f = 0 then manifestTaken d all s else manifestBad f s
    else if blk = 0xFFFE then setSlot s d.slot { s.upd.slots[d.slot] with trailer := all }
    else blockTaken d blk all s
  else setUpd s { s.upd with dl := some { d with parts := Tab.put d.parts blk parts } }

/-- UPD_PUT: the answer is false for BAD_BLOCK (R433). -/
def updPut (blk off : Nat) (data : List Byte) (s : State) : State × Bool :=
  match s.upd.dl with
  | none => (s, false)
  | some d =>
    let known := blk = 0xFFFF ∨ blk = 0xFFFE ∨ blk < s.upd.total
    if known ∧ off + data.length ≤ putSize blk then (putPart d blk off data s, true) else (s, false)

/-! ### VERIFY (R435) -/

/-- `VERIFY`. -/
def updVerify (m : Master) (s : State) : State :=
  if s.mode == .boot then updRefused m 2 s
  else if s.upd.verifying.isSome then updDone m 2 2 s
  else match slotFor s (· == 2) with
    | none => updDone m 2 4 s
    | some i => updDone m 2 0 (setUpd s { s.upd with
        verifying := some (m, i), target := i, dl := none, fail := 0, total := manBlocks s.upd.slots[i].manifest, done := 0 })

/-- Steps 1, 2 and 4 of Table 2.8 on the container of an image package. -/
def containerFault (s : State) (c : List Byte) : Bool :=
  let rd := listRd c
  (firstOf [checkContainer rd c.length, checkSignature s rd]).isSome ||
  (let np := (dirEnts rd).map (newPart {} rd)
   (checkCounts rd np (newImage {} (header rd) np)).isSome)

/-- What the verification of a slot finds (UPD_STATUS.fail). -/
def slotFault (s : State) (x : ArchSlot) (archiveOk : Bool) : Nat :=
  if !archiveOk then 6
  else if !(x.inOrder.all blockGood) then 1
  else
    let f := packageFault s x
    if f ≠ 0 then f
    else if manKind x.manifest == 1 && (containerFault s x.payload || (header (listRd x.payload)).delta ||
        (header (listRd x.payload)).id != manNum x.manifest 20 8) then 7
    else 0

/-- UPD_VERIFY_DONE. -/
def updVerifyDone (archiveOk : Bool) (s : State) : State :=
  match s.upd.verifying with
  | none => s
  | some (_, i) =>
    let f := slotFault s s.upd.slots[i] archiveOk
    let s := setUpd s { s.upd with verifying := none, fail := f, done := s.upd.total }
    if f = 0 then bootMod (fun r => r.putSlot i 3) s else s

/-! ### ACTIVATE, CONFIRM, ABANDON (R432, R434 to R436) -/

/-- The states that accept `ACTIVATE` (Table 18.9). -/
def activates (m : Mode) : Bool := m == .hold || m == .standby || m == .detached || m == .safe || m == .service

/-- The boot record after `ACTIVATE` of a slot. A firmware slot is UNCONFIRMED, an image slot confirmed at once. -/
def BootRecord.activate (i : Fin 4) (r : BootRecord) : BootRecord :=
  let r := { r with prevFw := r.fwBoot, prevSi := r.siBoot, attempts := 0, unconfS := 0, selfConf := false }
  let r := if i.val < 2 then { r with fwBoot := i.val } else { r with siBoot := i.val - 2 }
  r.putSlot i (if i.val < 2 then 4 else 5)

/-- `ACTIVATE`. -/
def updActivate (m : Master) (s : State) : State :=
  if !activates s.mode then updRefused m 3 s
  else if s.upd.verifying.isSome then updDone m 3 2 s
  else match slotFor s (· == 3) with
    | none => updDone m 3 4 s
    | some i =>
      let s := updDone m 3 0 (bootMod (BootRecord.activate i) (setUpd s { s.upd with target := i, dl := none }))
      if i.val < 2 then fwRestart s else s

/-- `CONFIRM` of an UNCONFIRMED firmware. -/
def updConfirm (m : Master) (s : State) : State :=
  if s.mode == .boot then updRefused m 4 s
  else if s.upd.verifying.isSome then updDone m 4 2 s
  else
    let r := bootRec s
    if r.unconfirmed then
      let n := unconfNow s
      updDone m 4 0 (bootMod (fun r => ({ r with unconfS := n } : BootRecord).putSlot r.fwBoot 5) s)
    else updDone m 4 4 s

/-- `ABANDON`. -/
def updAbandon (m : Master) (s : State) : State :=
  if s.mode == .boot then updRefused m 5 s
  else if s.upd.verifying.isSome then updDone m 5 2 s
  else match slotFor s (fun v => v == 1 || v == 2 || v == 3) with
    | none => updDone m 5 4 s
    | some i =>
      let s := setSlot (bootMod (fun r => r.putSlot i 0) s) i {}
      updDone m 5 0 (setUpd s { s.upd with target := i, dl := none, total := 0, done := 0 })

/-- A write of UPD_CMD. -/
def updCmd (m : Master) (v : Word) (s : State) : State :=
  match Reg.UPD_CMD_cmd.get v with
  | 1 => updDownload m (Reg.UPD_CMD_kind.get v == 1) s
  | 2 => updVerify m s
  | 3 => updActivate m s
  | 4 => updConfirm m s
  | 5 => updAbandon m s
  | c => updDone m c 3 s

/-! ### Status registers -/

def updStatus (s : State) : Word :=
  let stage := if s.upd.verifying.isSome then 2 else if s.upd.dl.isSome then 1 else 0
  Reg.UPD_STATUS_fail.mk' s.upd.fail ||| Reg.UPD_STATUS_target.mk' s.upd.target ||| Reg.UPD_STATUS_running.mk' (b2n s.upd.verifying.isSome) |||
  Reg.UPD_STATUS_stage.mk' stage

def updSlots (s : State) : Word :=
  let r := bootRec s
  Reg.UPD_SLOTS_si_boot.mk' r.siBoot ||| Reg.UPD_SLOTS_fw_boot.mk' r.fwBoot ||| Reg.UPD_SLOTS_states.mk' r.states

def updProgress (s : State) : Word := Reg.UPD_PROGRESS_total.mk' s.upd.total ||| Reg.UPD_PROGRESS_done.mk' s.upd.done

def updBoot (s : State) : Word :=
  let r := bootRec s
  Reg.UPD_BOOT_unconf_s.mk' (min 65535 (unconfNow s)) ||| Reg.UPD_BOOT_self_confirmed.mk' (b2n r.selfConf) ||| Reg.UPD_BOOT_attempts.mk' r.attempts

/-- A write of UPD_CFG: firmware keeps confirm_min in the boot record. -/
def updCfgWrite (v : Word) (s : State) : State :=
  let n := Reg.UPD_CFG_confirm_min.get v
  bootMod (fun r => { r with confirmMin := max 1 (min 60 n) }) (setR s Reg.UPD_CFG (Reg.UPD_CFG_confirm_min.mk' n))

/-- A write of SYS_CFG: firmware keeps autostart in the boot record (R82, Table 18.8). -/
def sysCfgWrite (v : Word) (s : State) : State :=
  let on := Reg.SYS_CFG_autostart.get v == 1
  bootMod (fun r => { r with autostart := on }) (setR s Reg.SYS_CFG (Reg.SYS_CFG_autostart.mk' (b2n on)))

/-! ### EXCHANGE_ARCHIVE_DONE (R222) -/

/-- The package of an image that firmware writes itself: a manifest, blocks, no signature (notes/assumptions/32.md). -/
def ownPackage (g : Image) (c : List Byte) : ArchSlot :=
  let n := (c.length + 65535) / 65536
  let b := lrup ++ leBytes 2 1 ++ [1, 0] ++ leBytes 4 c.length ++ leBytes 4 n ++ leBytes 4 0 ++ leBytes 8 g.id ++ leBytes 4 0 ++ List.replicate 92 0
  let blk := fun (i : Nat) =>
    let d := slice c (65536 * i) 65536
    let d := d ++ List.replicate (65536 - d.length) 0
    d ++ leBytes 4 (crc32c d).toNat
  { manifest := b ++ leBytes 4 (crc32c b).toNat, blocks := (List.range n).map fun i => (i, blk i) }

/-- EXCHANGE_ARCHIVE_DONE: the slot that is not the boot slot holds the running image and is the boot slot, or the write has failed. -/
def exchangeArchiveDone (ok : Bool) (s : State) : State :=
  if s.xch.st != .archiving then s
  else
    let s := { s with xch := { deferrals := s.xch.deferrals } }
    if ok then
      let i := (bootRec s).otherSlot true
      let c := if s.container.isEmpty then s.img.container else s.container
      let s := setSlot s i (ownPackage s.img c)
      bootMod (fun r => ({ r with siBoot := i.val - 2 } : BootRecord).putSlot i 5) s
    else recEvent (setB s Reg.XCH_STATUS Reg.XCH_STATUS_arch_fail true) 0x000F 0 2

end Sys2Proof.Machine
end

