-- ==== Sys2Proof/Machine/Bist.lean ====
section
/-!
DEFINITION. Scarab, the self-test (R441, R442).
-/
namespace Sys2Proof.Machine

def bistDone (m : Master) (cmd status : Nat) (s : State) : State := cmdDone s m Reg.BIST_CMD_STATUS cmd status

/-- A state allows a test (Table 18.11); the command itself is accepted in the same four states. -/
def testAllowed (m : Mode) (t : Nat) : Bool :=
  let four := m == .hold || m == .standby || m == .safe || m == .service
  if t = 5 then four && m != .safe else if t = 6 then m == .hold || m == .service else four

/-- The failing checks of a command: REF, CORE supply, junction. -/
def bistChecks (s : State) : Bool × Bool × Bool :=
  let v := getF s Reg.PWR_CORE Reg.PWR_CORE_vcore
  let ppm := sgn 16 (Reg.CLK_REF_PPM_ppm.get (refPpm s))
  ((refLane s.clk s.clk.selB).st != .good || decide (100 < ppm.natAbs), decide (v < 780) || decide (820 < v),
    decide (105 ≤ sgn 16 (getF s Reg.PWR_CORE Reg.PWR_CORE_tj)))

/-- The next test that the state allows runs; tests before it that it does not allow report SKIPPED. -/
def bistNext : List Nat → State → State
  | [], s => setF (setB { s with bist := none } Reg.BIST_STATUS Reg.BIST_STATUS_running false) Reg.BIST_STATUS Reg.BIST_STATUS_test 0
  | t :: l, s =>
    if testAllowed s.mode t then
      setF (setB { s with bist := some { test := t, later := l } } Reg.BIST_STATUS Reg.BIST_STATUS_running true) Reg.BIST_STATUS Reg.BIST_STATUS_test t
    else bistNext l (setR s (Reg.BIST_RES (t - 1)) (Reg.BIST_RES_result.mk' 3))

/-- `SCARAB`. -/
def scarab (m : Master) (mask : Nat) (s : State) : State :=
  if !testAllowed s.mode 1 then cmdRefused s m Reg.BIST_CMD Reg.BIST_CMD_STATUS 1
  else if s.bist.isSome then bistDone m 1 2 s
  else
    let c := bistChecks s
    let s := setB (setB (setB s Reg.BIST_STATUS Reg.BIST_STATUS_ref_bad c.1) Reg.BIST_STATUS Reg.BIST_STATUS_vcore_bad c.2.1)
      Reg.BIST_STATUS Reg.BIST_STATUS_hot c.2.2
    if c.1 || c.2.1 || c.2.2 then bistDone m 1 4 s
    else
      let tests := ((List.range 6).map (· + 1)).filter fun t => mask == 0 || bit mask (t - 1)
      let s := tests.foldl (fun (s : State) t => setR s (Reg.BIST_RES (t - 1)) 0) s
      bistDone m 1 0 (bistNext tests (wrapAdd s Reg.BIST_STATUS Reg.BIST_STATUS_runs 1))

/-- SCARAB_TEST_DONE: the running test has passed or failed, with the detail of Table 18.11. -/
def scarabTestDone (failed : Bool) (detail : Nat) (us : Word) (s : State) : State :=
  match s.bist with
  | none => s
  | some b =>
    let r := if failed then Reg.BIST_RES_result.mk' 2 ||| Reg.BIST_RES_detail.mk' detail else Reg.BIST_RES_result.mk' 1
    let s := setR (setR s (Reg.BIST_RES (b.test - 1)) r) (Reg.BIST_DUR (b.test - 1)) us
    bistNext b.later (if failed then recEvent s 0x0016 b.test 2 else s)

/-- `ABORT`: accepted where `SCARAB` is. -/
def bistAbort (m : Master) (s : State) : State :=
  if !testAllowed s.mode 1 then cmdRefused s m Reg.BIST_CMD Reg.BIST_CMD_STATUS 2 else bistDone m 2 0 (scarabEnd s)

/-- A write of BIST_CMD. -/
def bistCmd (m : Master) (v : Word) (s : State) : State :=
  match Reg.BIST_CMD_cmd.get v with
  | 1 => scarab m (Reg.BIST_CMD_mask.get v) s
  | 2 => bistAbort m s
  | c => bistDone m c 3 s

end Sys2Proof.Machine
end

