-- ==== Sys2Proof/Machine/Sec.lean ====
section
/-!
DEFINITION. The security commands `SEAL` and `RMA`, and key slots (R413 to R416, R421).
-/
namespace Sys2Proof.Machine

/-- The enabled rules with vault, as base and size (R420). -/
def vaultRanges (s : State) : List (Nat × Nat) :=
  ((enabledRules s).filter fun p => Reg.ART_ATTR_vault.get p.2 == 1).map fun p =>
    ((getR s (Reg.ART_BASE p.1)).toNat, (getR s (Reg.ART_SIZE p.1)).toNat)

/-- An address is VAULT. -/
def isVault (s : State) (addr : Nat) : Bool := (vaultRanges s).any fun r => decide (r.1 ≤ addr) && decide (addr < r.1 + r.2)

/-- A range given by base and size meets the `n` addresses from `a` on: the part from `a` on that it covers, as offset and length. -/
def overlapAt (r : Nat × Nat) (a n : Nat) : Nat × Nat :=
  let lo := max r.1 a
  let hi := min (r.1 + r.2) (a + n)
  (lo - a, hi - lo)

def meets (r : Nat × Nat) (a n : Nat) : Bool := decide (0 < (overlapAt r a n).2)

/-- The part of the image area erased: words by fours of bytes, quality bytes. -/
def eraseView (r : Nat × Nat) (v : ImgView) : ImgView :=
  let w := overlapAt r (storeWin + imageBase) (qualityBase - imageBase)
  let q := overlapAt r (storeWin + qualityBase) (camBase - qualityBase)
  { w := v.w.clear (w.1 / 4) ((w.2 + 3) / 4), q := v.q.clear q.1 q.2 }

/-- A range meets the tables that the loader writes: without them no image stands (notes/assumptions/35.md). -/
def meetsTables (r : Nat × Nat) : Bool :=
  meets r (storeWin + blockTableBase) slotBase || meets r (storeWin + paramBase) (imageBase - paramBase) ||
  meets r (storeWin + camBase) (queueBase - camBase)

/-- Erase one VAULT range in the Central Store and the DDR (R415). -/
def vaultErase (r : Nat × Nat) (s : State) : State :=
  let c := overlapAt r storeWin storeSize
  let d := overlapAt r 0x80000000 0x40000000
  let z := overlapAt r (storeWin + slotBase) (paramBase - slotBase)
  let p := { s.prog with pub := eraseView r s.prog.pub, slots := s.prog.slots.clear z.1 z.2, cslots := s.prog.cslots.clear z.1 z.2 }
  let s := { s with store := s.store.clear c.1 c.2, ecc := s.ecc.clear (c.1 / 8) (c.2 / 8), ddr := s.ddr.clear d.1 d.2
                    ddrEcc := s.ddrEcc.clear (d.1 / 8) (d.2 / 8), prog := p }
  if meetsTables r then { s with img := {}, container := [], recRoots := [] } else s

/-- Every key slot erased. -/
def keysErase (s : State) : State := keyAddrs.foldl (fun (s : State) a => setR s a 0) s

/-- Ballast erased but for the operating hours and the power cycles, and the writes to it that were in progress. -/
def ballastErase (s : State) : State :=
  { s with ballast := SMap.empty, bal := { opH := s.bal.opH, opS := s.bal.opS, pcycles := s.bal.pcycles }, retain := { s.retain with writing := none, pend := none }
           rcd := { s.rcd with flushing := none, flushPend := none } }

/-- The Archive slots SI-A and SI-B erased, with what is being put into them. -/
def imageSlotsErase (s : State) : State := { setSlot (setSlot s 2 {}) 3 {} with upd := { (setSlot (setSlot s 2 {}) 3 {}).upd with dl := none, verifying := none } }

/-- Fuse bits change from 0 to 1 only (R413). -/
def programFuses (v : Word) (s : State) : State := { s with art := { s.art with fuse0 := s.art.fuse0 ||| v, fuse1 := s.art.fuse1 ||| v } }

/-- What every change of the security state ends: the debug session with freeze and halts, and the service session (R418, R421,
R427). -/
def securityChanged (s : State) : State := svcEnd (dbgRelease (dbgEnd s))

def secDone (m : Master) (cmd status : Nat) (s : State) : State := cmdDone s m Reg.SEC_CMD_STATUS cmd status

def secRefused (m : Master) (cmd : Nat) (s : State) : State := cmdRefused s m Reg.SEC_CMD Reg.SEC_CMD_STATUS cmd

/-- One fuse copy has not yet taken the state that the other shows. -/
def fusesDiffer (s : State) : Bool := fuseState s.art.fuse0 != fuseState s.art.fuse1

/-- `SEAL`: from OPEN, or to complete a `SEAL` that a power failure cut off (R415). -/
def secSeal (m : Master) (s : State) : State :=
  let from' : Bool := secState s == 0 || (secState s == 1 && fusesDiffer s)
  if !((s.mode == .hold || s.mode == .service) && from') then secRefused m 1 s
  else if !((List.range 8).any fun i => keyUsable s i 0) then secDone m 1 5 s
  else securityChanged (secDone m 1 0 (programFuses 0x0000FFFF s))

/-- `RMA`: from OPEN or SEALED, or to complete an `RMA` that a power failure cut off (R415). -/
def secRma (m : Master) (s : State) : State :=
  let from' : Bool := secState s != 2 || fusesDiffer s
  if !(s.mode == .service && from') then secRefused m 2 s
  else if secState s == 1 && !(m == .debug && s.dbg.st == 2 && s.dbg.openedBy == 8) then secDone m 2 4 s
  else
    let s := (vaultRanges s).foldl (fun (s : State) r => vaultErase r s) s
    let s := imageSlotsErase (ballastErase (keysErase s))
    securityChanged (secDone m 2 0 (programFuses 0xFFFFFFFF s))

/-- A write of SEC_CMD. -/
def secCmd (m : Master) (v : Word) (s : State) : State :=
  match Reg.SEC_CMD_cmd.get v with
  | 1 => secSeal m s
  | 2 => secRma m s
  | c => secDone m c 3 s

/-- KEY_REVOKE: a write of 1 revokes a slot, in every state, and is never undone but by `RMA` (R416). -/
def keyRevoke (i : Nat) (v : Word) (s : State) : State :=
  if Reg.SEC_KEY_CTL_revoked.get v == 1 then setB s (Reg.SEC_KEY_CTL i) Reg.SEC_KEY_CTL_revoked true else s

/-- SEC_STATUS. -/
def secStatus (s : State) : Word :=
  Reg.SEC_STATUS_copy1.mk' (fuseState s.art.fuse1) ||| Reg.SEC_STATUS_copy0.mk' (fuseState s.art.fuse0) ||| Reg.SEC_STATUS_state.mk' (secState s)

end Sys2Proof.Machine
end

