-- ==== Sys2Proof/Machine/Dbg.lean ====
section
/-!
DEFINITION. The debug port's state and commands (R418 to R420).
-/
namespace Sys2Proof.Machine

def setDbg (s : State) (d : Debug) : State := { s with dbg := d }

/-! ### Opening and closing (R418) -/

/-- A write of 1 to DBG_CTRL.open. -/
def dbgOpen (s : State) : State :=
  if s.dbg.lockAt.isSome then s
  else if secState s = 1 then
    let n := (List.range 16).map fun i => Config.nonce s.freeCtr i
    takeFree (setDbg s { s.dbg with st := 1, openedBy := 0, nonce := n, nonceAt := some s.time.c, verifying := false })
  else setDbg s { s.dbg with st := 2, openedBy := 15, nonceAt := none, verifying := false }

/-- A write of DBG_CTRL. A write of both bits closes. -/
def dbgCtrl (v : Word) (s : State) : State :=
  if Reg.DBG_CTRL_close.get v == 1 then dbgEnd s
  else if Reg.DBG_CTRL_openr.get v == 1 then dbgOpen s
  else s

/-- A write of DBG_RESP_j: the last one starts verification. -/
def dbgResp (j : Nat) (v : Word) (s : State) : State :=
  let s := setR s (Reg.DBG_RESP j) v
  if j = 15 ∧ s.dbg.st = 1 then setDbg s { s.dbg with verifying := true } else s

/-- The message that a challenge has signed. -/
def dbgMessage (s : State) : List Byte := [0x4C, 0x52, 0x44, 0x42] ++ s.dbg.nonce ++ leBytes 4 (getR s Reg.SYS_ID).toNat

/-- The key that the response fits: a debug slot, or 8 for the RMA key. -/
def dbgKey (s : State) : Option Nat :=
  let sig := (List.range 16).flatMap fun j => leBytes 4 (getR s (Reg.DBG_RESP j)).toNat
  match (List.range 8).find? fun i => keyUsable s i 1 && ed25519 (keyPub s i) (dbgMessage s) sig with
  | some i => some i
  | none => if ed25519 Config.rmaKey (dbgMessage s) sig then some 8 else none

/-- DBG_VERIFY_DONE. -/
def dbgVerifyDone (s : State) : State :=
  if s.dbg.verifying && s.dbg.st == 1 then
    match dbgKey s with
    | some k => setDbg s { s.dbg with st := 2, openedBy := k, fails := 0, nonceAt := none, verifying := false }
    | none =>
      let n := min 255 (s.dbg.fails + 1)
      let s := dbgEnd s
      setDbg s { s.dbg with fails := n, lockAt := if 3 ≤ n then some s.time.c else s.dbg.lockAt }
  else s

/-- DBG_NONCE_TIMEOUT: 10 s without an answer. -/
def dbgNonceTimeout (s : State) : State :=
  if s.dbg.st == 1 && !s.dbg.verifying && sinceAtLeast s s.dbg.nonceAt (secT 10) then dbgEnd s else s

/-- DBG_LOCK_EXPIRY: 60 s. -/
def dbgLockExpiry (s : State) : State :=
  if sinceAtLeast s s.dbg.lockAt (secT 60) then setDbg s { s.dbg with lockAt := none } else s

/-! ### Debug commands (R419, R420) -/

def dbgDone (cmd status : Nat) (s : State) : State :=
  setR s Reg.DBG_CMD_STATUS
    (Reg.SYS_CMD_STATUS_cmd.mk' cmd ||| Reg.SYS_CMD_STATUS_state.mk' s.mode.code ||| Reg.SYS_CMD_STATUS_status.mk' status)

/-- A command that the debug state, the security state and the module state allow has its effect. Core halts are not permitted in
SEALED. -/
def dbgRun (cmd : Nat) (core : Bool) (f : State → State) (s : State) : State :=
  if s.dbg.st ≠ 2 then dbgDone cmd 2 s
  else if core && secState s == 1 then dbgDone cmd 3 s
  else if !frozenState s.mode then recEvent (dbgDone cmd 1 s) 0x0001 (Reg.DBG_CMD % 2 ^ 24) 0
  else dbgDone cmd 0 (f s)

/-- `FREEZE`. -/
def dbgFreeze (s : State) : State := dbgRun 1 false (fun s => readyUpdate (setDbg s { s.dbg with frozen := true })) s

/-- `THAW`. -/
def dbgThaw (s : State) : State := dbgRun 2 false (fun s => readyUpdate (setDbg s { s.dbg with frozen := false })) s

/-- `HALT_MC0`, `HALT_MC1`, `RESUME_MC0`, `RESUME_MC1`. -/
def dbgHaltMc0 (s : State) : State := dbgRun 3 true (fun s => setDbg s { s.dbg with mc0 := true }) s
def dbgHaltMc1 (s : State) : State := dbgRun 4 true (fun s => setDbg s { s.dbg with mc1 := true }) s
def dbgResumeMc0 (s : State) : State := dbgRun 5 true (fun s => setDbg s { s.dbg with mc0 := false }) s
def dbgResumeMc1 (s : State) : State := dbgRun 6 true (fun s => setDbg s { s.dbg with mc1 := false }) s

/-- A write of DBG_CMD. -/
def dbgCmd (v : Word) (s : State) : State :=
  match Reg.DBG_CMD_cmd.get v with
  | 1 => dbgFreeze s
  | 2 => dbgThaw s
  | 3 => dbgHaltMc0 s
  | 4 => dbgHaltMc1 s
  | 5 => dbgResumeMc0 s
  | 6 => dbgResumeMc1 s
  | c => dbgDone c 5 s

/-- DBG_STATUS. -/
def dbgStatus (s : State) : Word :=
  let d := s.dbg
  Reg.DBG_STATUS_fails.mk' d.fails ||| Reg.DBG_STATUS_opened_by.mk' d.openedBy ||| Reg.DBG_STATUS_mc1_halted.mk' (b2n d.mc1) |||
  Reg.DBG_STATUS_mc0_halted.mk' (b2n d.mc0) ||| Reg.DBG_STATUS_frozen.mk' (b2n d.frozen) ||| Reg.DBG_STATUS_locked.mk' (b2n d.lockAt.isSome) |||
  Reg.DBG_STATUS_state.mk' d.st

/-- DBG_NONCE_j. -/
def dbgNonce (s : State) (j : Nat) : Word := BitVec.ofNat 32 (leNat (slice s.dbg.nonce (4 * j) 4))

end Sys2Proof.Machine
end

