-- ==== Sys2Proof/Machine/RegAcc.lean ====
section
/-!
DEFINITION. What a read of each register returns and what a write of each register does (R3, R4, R6, R145), apart from the checks that
come before an access reaches its target.
-/
namespace Sys2Proof.Machine

/-! ### Small helpers -/

/-- An index as a number below `n`. -/
def fin (n : Nat) [NeZero n] (i : Nat) : Fin n := Fin.ofNat n i

/-- Bits 63:0 of an instant or signed number: low and high word. -/
def lo32 (x : Int) : Word := BitVec.ofNat 32 (unsgn 64 x)
def hi32 (x : Int) : Word := BitVec.ofNat 32 (unsgn 64 x / 2 ^ 32)

/-- The key of a register in the register store: a master's own copy where the register is per master. -/
def regKey (d : RegDesc) (m : Master) (a : Nat) : Nat := if d.perMaster then pm m a else a

/-! ### Status registers that are formed from the state -/

def artStatus (s : State) : Word :=
  Reg.ART_STATUS_draining.mk' (b2n s.art.draining) ||| Reg.ART_STATUS_enabled.mk' (enabledRules s).length ||| Reg.ART_STATUS_epoch.mk' s.art.epoch

/-- The retentive FLUSH of a HOLDUP runs: the copy being written has reason 1 (Table 5.8). -/
def flushRet (s : State) : Bool :=
  match s.retain.writing with
  | some w => leNat (slice w.2 6 1) == 1
  | none => false

def pwrStatus (s : State) : Word :=
  let fa := getF s Reg.PWR_FEED Reg.PWR_FEED_feed_a
  let fb := getF s Reg.PWR_FEED Reg.PWR_FEED_feed_b
  Reg.PWR_STATUS_flush_rec.mk' (b2n s.rcd.flushing.isSome) ||| Reg.PWR_STATUS_flush_ret.mk' (b2n (flushRet s)) |||
  Reg.PWR_STATUS_return_wait.mk' (b2n (s.pwr.st == .holdup && s.pwr.goodSince.isSome)) |||
  Reg.PWR_STATUS_feed_b_ok.mk' (b2n (decide (18000 ≤ fb))) ||| Reg.PWR_STATUS_feed_a_ok.mk' (b2n (decide (18000 ≤ fa))) |||
  Reg.PWR_STATUS_state.mk' (b2n (s.pwr.st != .main))

def svcStatus (s : State) : Word :=
  let v := s.svc
  let proven := match v.session with
    | some x => x.proven
    | none => false
  Reg.SVC_STATUS_fails.mk' v.fails ||| Reg.SVC_STATUS_locked.mk' (b2n v.lockAt.isSome) ||| Reg.SVC_STATUS_proven.mk' (b2n proven) |||
  Reg.SVC_STATUS_session.mk' (b2n v.session.isSome) ||| Reg.SVC_STATUS_addr_ok.mk' (b2n v.addrOk) ||| Reg.SVC_STATUS_link.mk' (b2n v.link)

def svcClient (s : State) : Word :=
  match s.svc.session with
  | some x => x.ip
  | none => 0

def aioSupply (s : State) : Word := Reg.AIO_SUPPLY_low.mk' (b2n s.io.loopLow) ||| Reg.AIO_SUPPLY_voltage.mk' s.io.loopMv

/-- A register window of the LSE belongs to an axis, record or cascade that the running image has: the windows of absent ones read 0. -/
def lsePresent (s : State) (a : Nat) : Bool :=
  let o := a % 0x20000
  if o < 0x1000 then true
  else if o < 0x4000 then s.img.masters.any fun p => p.1 == (o - 0x1000) / 0x40
  else if o < 0x6000 then s.img.slaves.any fun p => p.1 == (o - 0x4000) / 0x40
  else if o < 0x7000 then decide ((o - 0x6000) / 0x20 < s.img.regs.length)
  else s.img.cascades.any fun p => p.1 == (o - 0x7000) / 0x100

/-- The number of a field of an array of registers. -/
def idx (a base stride : Nat) : Nat := (a - base) / stride

/-! ### Computed reads, block by block; none where the register holds its own value -/

def sysRead (s : State) (a : Nat) : Option Word := if a = Reg.SYS_STATE then some (sysState s) else none

def clkRead (s : State) (a : Nat) : Option Word :=
  if a = Reg.CLK_REF_STATUS then some (refStatus s)
  else if a = Reg.CLK_LANE_A then some (laneReg s.clk.a)
  else if a = Reg.CLK_LANE_B then some (laneReg s.clk.b)
  else if a = Reg.CLK_REF_PPM then some (refPpm s)
  else if a = Reg.CLK_DIV_STATUS then some (divStatus s.clk)
  else if a = Reg.CLK_GATE_LO then some (s.clk.gates.setWidth 32)
  else if a = Reg.CLK_GATE_HI then some ((s.clk.gates >>> 32).setWidth 32)
  else none

def pwrRead (s : State) (a : Nat) : Option Word := if a = Reg.PWR_STATUS then some (pwrStatus s) else none

def ctuRead (s : State) (m : Master) (a : Nat) : Option Word :=
  if a = Reg.CTU_STATUS then some (ctuStatus s m)
  else if a = Reg.XCH_STATUS then some (xchStatus s)
  else if a = Reg.XCH_BASE_LO then some (BitVec.ofNat 32 (xchBase s))
  else if a = Reg.XCH_BASE_HI then some (BitVec.ofNat 32 (xchBase s / 2 ^ 32))
  else none

def artRead (s : State) (a : Nat) : Option Word := if a = Reg.ART_STATUS then some (artStatus s) else none

def secRead (s : State) (a : Nat) : Option Word :=
  if a = Reg.SEC_STATUS then some (secStatus s)
  else if a = Reg.DBG_STATUS then some (dbgStatus s)
  else if Reg.inRow a (Reg.DBG_NONCE 0) 4 4 then some (dbgNonce s (idx a (Reg.DBG_NONCE 0) 4))
  else none

def engRead (s : State) (a : Nat) : Option Word :=
  if a = Reg.ENG_STATUS then some (engStatus s)
  else if a = Reg.IMG_STATUS then some (imgStatus s)
  else none

def laneRead (s : State) (a : Nat) : Option Word := if a = Reg.LANE_STATUS then some (laneStatus s) else none

def lseRead (s : State) (a : Nat) : Option Word :=
  if a = Reg.LSE_T_BOUND then some (if loaded s then BitVec.ofNat 32 (tLse s.img) else 0)
  else if lsePresent s a then none
  else some 0

def redRead (s : State) (a : Nat) : Option Word :=
  if a = Reg.RED_STATUS then some (redStatus s)
  else if a = Reg.RED_EPOCH then some (BitVec.ofNat 32 s.bal.epoch)
  else if a = Reg.RED_CKPT_BUDGET then some (Reg.RED_CKPT_BUDGET_bytes.mk' (ckBudget s))
  else if a = Reg.RED_COUNTS then some (redCounts s)
  else if a = Reg.RED_HANDOVER then some (redHandover s)
  else if a = Reg.RED_HOLDOFF_LEFT then some (BitVec.ofNat 32 (holdoffLeft s))
  else if Reg.inRow a (Reg.RED_LANE 0) 4 2 then some (redLane s (fin 2 (idx a (Reg.RED_LANE 0) 4)))
  else none

def fgrRead (s : State) (a : Nat) : Option Word :=
  if Reg.inRow a (Reg.FGR_P_STATUS 0) 0x1000 12 then some (portStatus s (idx a (Reg.FGR_P_STATUS 0) 0x1000))
  else if Reg.inRow a (Reg.FGR_RING_STATUS 0) 0x20 6 then some (ringStatus s (idx a (Reg.FGR_RING_STATUS 0) 0x20))
  else if Reg.inRow a (Reg.FGR_STA 0) 4 512 then some (staWord s (idx a (Reg.FGR_STA 0) 4))
  else none

def timeRead (s : State) (a : Nat) : Option Word :=
  if a = Reg.TIME_NOW_LO then some (lo32 (now s))
  else if a = Reg.TIME_NOW_HI then some (hi32 (now s))
  else if a = Reg.TIME_RAW_LO then some (lo32 s.time.c)
  else if a = Reg.TIME_RAW_HI then some (hi32 s.time.c)
  else if a = Reg.TIME_OFS_LO then some (s.time.off.setWidth 32)
  else if a = Reg.TIME_OFS_HI then some ((s.time.off >>> 32).setWidth 32)
  else if Reg.inRow a (Reg.PTP_P_CFG 0) 0x100 12 then some (Reg.PTP_P_CFG_ptp.mk' (s.img.ptp (idx a (Reg.PTP_P_CFG 0) 0x100)))
  else if Reg.inRow a (Reg.PTP_TXTS_TAG 0) 0x100 12 then some (txtsTag s (fin 12 (idx a (Reg.PTP_TXTS_TAG 0) 0x100)))
  else if Reg.inRow a (Reg.PTP_TXTS_LO 0) 0x100 12 then some (txtsLo s (fin 12 (idx a (Reg.PTP_TXTS_LO 0) 0x100)))
  else if Reg.inRow a (Reg.PTP_TXTS_HI 0) 0x100 12 then some (txtsHi s (fin 12 (idx a (Reg.PTP_TXTS_HI 0) 0x100)))
  else if Reg.inRow a (Reg.PTP_TXTS_STATUS 0) 0x100 12 then
    some (getR s a ||| Reg.PTP_TXTS_STATUS_count.mk' (s.time.txts[fin 12 (idx a (Reg.PTP_TXTS_STATUS 0) 0x100)]).length)
  else none

def canRead (s : State) (a : Nat) : Option Word :=
  let u := fin 16 (idx a 0x400000 0x1000)
  if a = Reg.CAN_STATUS u then some (canStatus s u)
  else if a = Reg.CAN_TXB_CANCEL u then some 0
  else if a = Reg.CAN_TXB_PEND u then some (canTxbPend s u)
  else if a = Reg.CAN_RX_STATUS u then some (canRxStatus s u)
  else if Reg.inRow a (Reg.CAN_RXW u 0) 4 20 then some (rxwWord s u (idx a (Reg.CAN_RXW u 0) 4))
  else none

def dioRead (s : State) (a : Nat) : Option Word :=
  if Reg.inRow a (Reg.DIO_CH_STATUS 0) 0x100 64 then some (dioStatus s (idx a (Reg.DIO_CH_STATUS 0) 0x100))
  else if Reg.inRow a (Reg.DIO_GRP_STATUS 0) 0x40 4 then some (grpStatus s (fin 4 (idx a (Reg.DIO_GRP_STATUS 0) 0x40)))
  else if Reg.inRow a (Reg.DIO_GRP_MEAS 0) 0x40 4 then some (grpMeas s (fin 4 (idx a (Reg.DIO_GRP_MEAS 0) 0x40)))
  else none

def aioRead (s : State) (a : Nat) : Option Word :=
  let u := fin 8 (a % 0x800 / 0x100)
  if a = Reg.AO_STATUS u then some (aoStatus s u)
  else if a = Reg.AO_SET u then some (aoSet s u)
  else if a = Reg.AO_READ u then some s.io.ao[u].read
  else if a = Reg.AO_MEAS u then some (Reg.AO_MEAS_temp.mk' s.io.ao[u].temp.toNat ||| Reg.AO_MEAS_vcomp.mk' s.io.ao[u].vcomp)
  else if a = Reg.AI_STATUS u then some (aiStatus s u)
  else if a = Reg.AIO_SUPPLY then some (aioSupply s)
  else none

def recRead (s : State) (a : Nat) : Option Word :=
  if a = Reg.REC_STATUS then some (recStatus s)
  else if a = Reg.REC_REGION then some (BitVec.ofNat 32 recBase)
  else if a = Reg.REC_ARCH then some (Reg.REC_ARCH_count.mk' s.rcd.archives.length)
  else none

def svcRead (s : State) (a : Nat) : Option Word :=
  if a = Reg.SVC_STATUS then some (svcStatus s)
  else if a = Reg.SVC_CLIENT then some (svcClient s)
  else if a = Reg.UPD_STATUS then some (updStatus s)
  else if a = Reg.UPD_SLOTS then some (updSlots s)
  else if a = Reg.UPD_PROGRESS then some (updProgress s)
  else if a = Reg.UPD_BOOT then some (updBoot s)
  else if a = Reg.UPD_VERSION then some s.upd.version
  else none

def queRead (s : State) (a : Nat) : Option Word :=
  if Reg.inRow a (Reg.QUE_STATUS 0) 0x40 128 then some (queStatus s (fin 128 (idx a (Reg.QUE_STATUS 0) 0x40))) else none

/-- The computed read of a register, by its block (Table 1.12). -/
def specialRead (s : State) (m : Master) (a : Nat) : Option Word :=
  match a / 0x10000 with
  | 0x00 => sysRead s a
  | 0x01 => clkRead s a
  | 0x02 => pwrRead s a
  | 0x03 => ctuRead s m a
  | 0x04 => artRead s a
  | 0x05 => secRead s a
  | 0x10 => engRead s a
  | 0x11 => laneRead s a
  | 0x12 => lseRead s a
  | 0x13 => lseRead s a
  | 0x14 => redRead s a
  | 0x20 => fgrRead s a
  | 0x30 => timeRead s a
  | 0x40 => canRead s a
  | 0x50 => dioRead s a
  | 0x51 => aioRead s a
  | 0x60 => some (rtcRead s a)
  | 0x61 => recRead s a
  | 0x70 => svcRead s a
  | 0x80 => queRead s a
  | _ => none

/-- The value that a register shows to a master: WO fields read 0 (R3). -/
def regValue (s : State) (d : RegDesc) (m : Master) (a : Nat) : Word :=
  match specialRead s m a with
  | some v => v
  | none => getR s (regKey d m a) &&& ~~~(BitVec.ofNat 32 d.wo)

/-! ### Reading -/

/-- The read of a register: its value, with RC fields cleared. None: a bus error (a receive window locked by another master). With
`clear` false (a debug read while the engine is halted, R6) no RC field is cleared; what a read takes away by itself (R307, R334) goes. -/
def regRead (clear : Bool) (d : RegDesc) (m : Master) (a : Nat) (s : State) : State × Option Word :=
  let v := regValue s d m a
  if a / 0x10000 = 0x40 ∧ Reg.inRow a (Reg.CAN_RXW (a % 0x10000 / 0x1000) 0) 4 20 then
    let u := a % 0x10000 / 0x1000
    rxwRead (fin 16 u) (idx a (Reg.CAN_RXW u 0) 4) m s
  else if Reg.inRow a (Reg.PTP_TXTS_HI 0) 0x100 12 then (txtsPop (fin 12 (idx a (Reg.PTP_TXTS_HI 0) 0x100)) s, some v)
  else if !clear || d.rc = 0 then (s, some v)
  else (setR s (regKey d m a) (getR s (regKey d m a) &&& ~~~(BitVec.ofNat 32 d.rc)), some v)

/-- Does a read capture the high register (R145, R205, R301)? -/
def capturesHi (a : Nat) : Bool :=
  a == Reg.TIME_NOW_LO || a == Reg.TIME_RAW_LO || a == Reg.TIME_OFS_LO || Reg.inRow a (Reg.TTRG_LAST_LO 0) 0x40 16 ||
  Reg.inRow a (Reg.CAN_REF_MARK_LO 0) 0x1000 16 || Reg.inRow a (Reg.DIO_CH_TS_LO 0) 0x100 32 || Reg.inRow a (Reg.AI_TS_LO 0) 0x100 8 ||
  Reg.inRow a (Reg.LSE_M_POS_LO 0) 0x40 8 || Reg.inRow a (Reg.LSE_M_VEL_LO 0) 0x40 8 || Reg.inRow a (Reg.LSE_M_ACC_LO 0) 0x40 8 ||
  Reg.inRow a (Reg.LSE_S_POS_LO 0) 0x40 128 || Reg.inRow a (Reg.LSE_S_OFS_LO 0) 0x40 128 || Reg.inRow a (Reg.LSE_S_CMD_LO 0) 0x40 128 ||
  Reg.inRow a (Reg.LSE_R_ERR_LO 0) 0x20 128 || Reg.inRow a (Reg.LSE_R_OFS_LO 0) 0x20 128

/-! ### Writing -/

/-- A write of a register without an action of its own: RW bits take the value, W1C bits are cleared and W1S bits set by a 1, WO bits
hold what was written (R3). -/
def plainWrite (d : RegDesc) (m : Master) (a : Nat) (v : Word) (s : State) : State :=
  let k := regKey d m a
  let rw : Word := BitVec.ofNat 32 (d.rw ||| d.wo)
  setR s k ((((getR s k &&& ~~~rw) ||| (v &&& rw)) &&& ~~~(v &&& BitVec.ofNat 32 d.w1c)) ||| (v &&& BitVec.ofNat 32 d.w1s))

/-- Registers whose valid bit, once cleared by a 1, clears the rest of the record with it: the count. -/
def clearsCount (a : Nat) : Option Fld :=
  if a = Reg.SYS_HW_FAULT then some Reg.SYS_HW_FAULT_count
  else if a = Reg.ART_FAULT_INFO then some Reg.ART_FAULT_INFO_count
  else if a = Reg.ART_NOTICE then some Reg.ART_NOTICE_count
  else if a = Reg.IMG_OVR_REJECT then some Reg.IMG_OVR_REJECT_count
  else if a = Reg.LANE_MM_INFO then some Reg.LANE_MM_INFO_count
  else if Reg.inRow a (Reg.PTP_TXTS_STATUS 0) 0x100 12 then some Reg.PTP_TXTS_STATUS_ovf_cnt
  else none

/-- A plain write, with the count that a cleared valid bit takes with it. -/
def plainWriteCounts (d : RegDesc) (m : Master) (a : Nat) (v : Word) (s : State) : State :=
  let s := plainWrite d m a v s
  let s := if a = Reg.TIME_STATUS ∧ v.getLsbD 1 then setF s a Reg.TIME_STATUS_refused_cnt 0 else s
  match clearsCount a with
  | some f => if v.getLsbD 31 then setF s a f 0 else s
  | none => s

/-- A write of CLK_GATE_CMD. -/
def gateCmd (m : Master) (v : Word) (s : State) : State :=
  let g := Reg.CLK_GATE_CMD_gate.get v
  if Reg.CLK_GATE_CMD_op.get v == 1 then gateOpenReq m g s else gateCloseReq m g s

/-- A write of a register of the SEC and DBG block; none: a bus error. Only the debug port writes DBG_CTRL and DBG_CMD (R418). -/
def secWrite (d : RegDesc) (m : Master) (a : Nat) (v : Word) (s : State) : Option State :=
  if a = Reg.SEC_CMD then some (secCmd m v s)
  else if Reg.inRow a (Reg.SEC_KEY_CTL 0) 0x40 8 then some (keyRevoke (idx a (Reg.SEC_KEY_CTL 0) 0x40) v s)
  else if a = Reg.DBG_CTRL then (if m == .debug then some (dbgCtrl v s) else none)
  else if a = Reg.DBG_CMD then (if m == .debug then some (dbgCmd v s) else none)
  else if Reg.inRow a (Reg.DBG_RESP 0) 4 16 then some (dbgResp (idx a (Reg.DBG_RESP 0) 4) v s)
  else some (plainWriteCounts d m a v s)

/-- A write of a register of the blocks SYS, CLK, CTU, ENG and LANE. -/
def coreWrite (d : RegDesc) (m : Master) (a : Nat) (v : Word) (s : State) : State :=
  if a = Reg.SYS_CMD then sysCmd m v s
  else if a = Reg.SYS_CFG then sysCfgWrite v s
  else if a = Reg.CLK_GATE_CMD then gateCmd m v s
  else if a = Reg.CTU_CMD then ctuCmd m v s
  else if a = Reg.XCH_CMD then xchCmd m v s
  else if a = Reg.ENG_INJECT then engInject v s
  else if a = Reg.LANE_CMD then laneCmd m (Reg.LANE_CMD_cmd.get v) s
  else if a = Reg.LANE_INJECT then laneInject v s
  else plainWriteCounts d m a v s

/-- A write of a register of the TIME block. -/
def timeWrite (d : RegDesc) (m : Master) (a : Nat) (v : Word) (s : State) : State :=
  if a = Reg.TIME_CTRL then timeCtrlWrite v s
  else if a = Reg.TIME_INC_HI then timeRateChange v s
  else if a = Reg.TIME_STEP_HI then timeStep v s
  else if Reg.inRow a (Reg.TIME_CAP_CFG 0) 0x10 16 then captureSnap (fin 16 (idx a (Reg.TIME_CAP_CFG 0) 0x10)) v s
  else plainWriteCounts d m a v s

/-- A write of a register of the CAN block. -/
def canWrite (d : RegDesc) (m : Master) (a : Nat) (v : Word) (s : State) : State :=
  let u := fin 16 (idx a 0x400000 0x1000)
  if a = Reg.CAN_CTRL u then canCtrlWrite u v s
  else if a = Reg.CAN_TXB_CANCEL u then canCancel u v s
  else plainWriteCounts d m a v s

/-- A write of a register of the DIO block. -/
def dioWrite (d : RegDesc) (m : Master) (a : Nat) (v : Word) (s : State) : State :=
  if Reg.inRow a (Reg.DIO_GRP_ACK 0) 0x40 4 then dioGrpAck (fin 4 (idx a (Reg.DIO_GRP_ACK 0) 0x40)) v s else plainWriteCounts d m a v s

/-- A write of a register of the REC, SVC and UPD, BIST and QUE blocks. -/
def mgmtWrite (d : RegDesc) (m : Master) (a : Nat) (v : Word) (s : State) : State :=
  if a = Reg.REC_CMD then recCmd m v s
  else if a = Reg.REC_FEED then recFeed v s
  else if a = Reg.UPD_CMD then updCmd m v s
  else if a = Reg.UPD_CFG then updCfgWrite v s
  else if a = Reg.BIST_CMD then bistCmd m v s
  else if Reg.inRow a (Reg.QUE_TAIL 0) 0x40 128 then
    let q := fin 128 (idx a (Reg.QUE_TAIL 0) 0x40)
    canReposted q (qTail s q) (queTailWrite q v s)
  else plainWriteCounts d m a v s

/-- The write of a register without its RWT fields; none: a bus error. -/
def regAct (d : RegDesc) (m : Master) (a : Nat) (v : Word) (s : State) : Option State :=
  match a / 0x10000 with
  | 0x05 => secWrite d m a v s
  | 0x30 => some (timeWrite d m a v s)
  | 0x40 => some (canWrite d m a v s)
  | 0x50 => some (dioWrite d m a v s)
  | 0x60 => some (rtcWrite a v s)
  | 0x61 => some (mgmtWrite d m a v s)
  | 0x70 => some (mgmtWrite d m a v s)
  | 0x71 => some (mgmtWrite d m a v s)
  | 0x80 => some (mgmtWrite d m a v s)
  | _ => some (coreWrite d m a v s)

/-- A register of a key slot's control word: `revoked` acts on every write, inside a transaction or not (R416). Outside one the write
still ends with the bus error of its RWT fields (R3). -/
def actsUnstaged (a : Nat) : Bool := Reg.inRow a (Reg.SEC_KEY_CTL 0) 0x40 8

/-- The write of a register: RWT fields are staged in the master's transaction, without one the write is a bus error (R3, R46). -/
def regWrite (d : RegDesc) (m : Master) (a : Nat) (v : Word) (s : State) : State × Bool :=
  if d.rwt = 0 then
    match regAct d m a v s with
    | some t => (t, true)
    | none => (s, false)
  else if actsUnstaged a then
    let s := keyRevoke (idx a (Reg.SEC_KEY_CTL 0) 0x40) v s
    stageAll m [(a, v &&& BitVec.ofNat 32 d.rwt)] s
  else stageAll m [(a, v &&& BitVec.ofNat 32 d.rwt)] s

end Sys2Proof.Machine
end

