-- ==== Sys2Proof/Machine/Bcast.lean ====
section
/-!
DEFINITION. The ALL and GROUP aliases of arrayed units (R55 to R58).
-/
namespace Sys2Proof.Machine

/-- A block with aliases (Table 2.15): its code in BCAST_STATUS, base, window stride and length, members, mask registers, and the offset of
the GROUP alias within the last 8 KiB (CAN: upper halves of windows 14 and 15, R56). -/
structure BBlock where
  code : Nat
  base : Nat
  stride : Nat
  count : Nat
  masks : List Nat
  shift : Nat := 0
  deriving DecidableEq, Repr

/-- The block with aliases at address bits 31:16. -/
def bblock? : Nat → Option BBlock
  | 0x50 => some { code := 1, base := 0x500000, stride := 0x100, count := 64, masks := [Reg.BCAST_GMASK_DIO_LO, Reg.BCAST_GMASK_DIO_HI] }
  | 0x51 => some { code := 2, base := 0x510000, stride := 0x100, count := 16, masks := [Reg.BCAST_GMASK_AIO] }
  | 0x40 => some { code := 3, base := 0x400000, stride := 0x1000, count := 16, masks := [Reg.BCAST_GMASK_CAN], shift := 0x800 }
  | 0x20 => some { code := 4, base := 0x200000, stride := 0x1000, count := 12, masks := [Reg.BCAST_GMASK_FGR] }
  | 0x31 => some { code := 5, base := 0x310000, stride := 0x40, count := 16, masks := [Reg.BCAST_GMASK_TTRG] }
  | _ => none

/-- An access through an alias: block, GROUP or ALL, offset X. -/
structure AliasAt where
  b : BBlock
  group : Bool
  x : Nat
  deriving DecidableEq, Repr

/-- The register of a member at offset X of its window. -/
def BBlock.regAt (b : BBlock) (i x : Nat) : Option RegDesc :=
  if x < b.stride - b.shift then Reg.desc? (b.base + b.stride * i + x) else none

/-- Some member has a register at X (R57). -/
def BBlock.mapped (b : BBlock) (x : Nat) : Bool := (List.range b.count).any fun i => (b.regAt i x).isSome

/-- The alias that an address lies in, with a register of some member at its offset. -/
def aliasAt? (addr : Nat) : Option AliasAt :=
  match bblock? (addr / 0x10000) with
  | none => none
  | some b =>
    let o := addr % 0x10000
    let at' := fun (lo : Nat) (group : Bool) =>
      if lo + b.shift ≤ o ∧ o < lo + 0x1000 ∧ b.mapped (o - lo - b.shift) then some { b := b, group := group, x := o - lo - b.shift : AliasAt } else none
    if o < 0xF000 then at' 0xE000 true else at' 0xF000 false

/-- The members selected: every one, or those in the master's mask. -/
def AliasAt.sel (a : AliasAt) (s : State) (m : Master) : List Nat :=
  if a.group then (List.range a.b.count).filter fun i => (getR s (pm m (a.b.masks.getD (i / 32) 0))).getLsbD (i % 32)
  else List.range a.b.count

/-- Selected members that have the register, with its address. -/
def AliasAt.hits (a : AliasAt) (s : State) (m : Master) : List (Nat × RegDesc) :=
  (a.sel s m).filterMap fun i => (a.b.regAt i a.x).map fun d => (a.b.base + a.b.stride * i + a.x, d)

/-- The master's BCAST_STATUS is rewritten as a whole (R58). -/
def bcastStatus (a : AliasAt) (m : Master) (mixed : Bool) (s : State) : State :=
  let sel := a.sel s m
  setR s (pm m Reg.BCAST_STATUS) (Reg.BCAST_STATUS_offset.mk' a.x ||| Reg.BCAST_STATUS_group.mk' (b2n a.group) |||
    Reg.BCAST_STATUS_block.mk' a.b.code ||| Reg.BCAST_STATUS_empty.mk' (b2n sel.isEmpty) |||
    Reg.BCAST_STATUS_skipped.mk' (b2n (decide ((a.hits s m).length < sel.length))) ||| Reg.BCAST_STATUS_mixed.mk' (b2n mixed))

/-- A write acts in one member (R57). -/
def hitWrite (m : Master) (v : Word) (s : State) (p : Nat × RegDesc) : State :=
  if p.2.rwt = 0 then (regAct p.2 m p.1 v s).getD s else s

/-- An alias write: the staging of every selected RWT register or of none; then every other register (R57). The answer is false for a bus
error. -/
def aliasWrite (a : AliasAt) (m : Master) (v : Word) (s : State) : State × Bool :=
  let hits := a.hits s m
  let staged := (hits.filter fun p => p.2.rwt != 0).map fun p => (p.1, v &&& BitVec.ofNat 32 p.2.rwt)
  let s := bcastStatus a m false s
  let r := if staged.isEmpty then (s, true) else stageAll m staged s
  if r.2 then (hits.foldl (hitWrite m v) r.1, true) else (r.1, false)

/-- The register is a word of a receive window that another master has locked (R334). -/
def windowBarred (s : State) (m : Master) (a : Nat) : Bool :=
  let u := a % 0x10000 / 0x1000
  a / 0x10000 == 0x40 && Reg.inRow a (Reg.CAN_RXW u 0) 4 20 && rxwBarred s (fin 16 u) m

/-- An alias read: the register of the lowest member; nothing is cleared (R58). A receive window that another master has locked answers with a bus
error (none). -/
def aliasRead (a : AliasAt) (m : Master) (s : State) : State × Option Word :=
  let hits := a.hits s m
  let v := hits.map fun p => regValue s p.2 m p.1
  let s' := bcastStatus a m (v.any fun w => w != v.headD 0) s
  if hits.any fun p => windowBarred s m p.1 then (s', none) else (s', some (v.headD 0))

end Sys2Proof.Machine
end

