-- ==== Sys2Proof/Machine/Bus.lean ====
section
/-!
DEFINITION. An access of a master: width and alignment (R5), the map (R25, R26), the Access Rule Table (R403 to R410, R420), clock gates
(R376), and what the access does at a register or in a window.
-/
namespace Sys2Proof.Machine

/-- Where an access goes (Table 1.12, R26). -/
inductive Target where
  | reg (d : RegDesc)
  | bcast (a : AliasAt)
  | ballast (off : Nat)
  | store (off : Nat)
  | image (off : Nat)
  | blocks (off : Nat)
  | ddr (off : Nat)
  deriving DecidableEq, Repr

/-- An address within a window. -/
def inWin (addr base size : Nat) : Bool := decide (base ≤ addr) && decide (addr < base + size)

/-- The target of an access of `n` bytes; none: a bus error (R5, R25). The DDR takes the widths of the cores, and words of the debug
port. -/
def target? (m : Master) (addr n : Nat) : Option Target :=
  let word : Bool := n == 4 && addr % 4 == 0
  if inWin addr 0x80000000 0x40000000 then
    match m with
    | .mc0 | .mc1 => if (n == 1 || n == 2 || n == 4 || n == 8) && decide (addr + n ≤ 0xC0000000) then some (.ddr (addr - 0x80000000)) else none
    | .debug => if word then some (.ddr (addr - 0x80000000)) else none
    | .service | .tether => none
  else if !word then none
  else if inWin addr 0x08000000 0x01000000 then some (.ballast (addr - 0x08000000))
  else if inWin addr 0x10000000 storeSize then some (.store (addr - 0x10000000))
  else if inWin addr 0x20000000 0x000A0000 then some (.image (addr - 0x20000000))
  else if inWin addr 0x30000000 0x00200000 then some (.blocks (addr - 0x30000000))
  else match Reg.desc? addr with
    | some d => some (.reg d)
    | none => (aliasAt? addr).map .bcast

/-! ### The Access Rule Table and the debug matrix (Tables 17.2, 17.3, 17.6) -/

/-- A VAULT access by the debug port in SEALED (R420). -/
def vaultRefused (addr : Nat) (s : State) : State :=
  setR (satAdd s Reg.DBG_VAULT_CNT Reg.DBG_VAULT_CNT_count 1) Reg.DBG_VAULT_ADDR (BitVec.ofNat 32 addr)

/-- The answer to an access that the ART refuses (Table 17.3). -/
def refusalAnswer (m : Master) (k : AccKind) (addr : Nat) : Resp :=
  match m with
  | .mc0 | .mc1 => if k = .write ∧ addr < 0x80000000 then .done else .accessFault
  | .service | .debug | .tether => .busError

/-- The refusal itself: a posted store of a core leaves a notice, every other one is precise (R408, R409). -/
def artRefuse (m : Master) (p : Priv) (k : AccKind) (rule second : Option Nat) (addr : Nat) (s : State) : State :=
  if (m = .mc0 ∨ m = .mc1) ∧ k = .write ∧ addr < 0x80000000 then recordPosted m.code rule second s
  else recordRefusal m.code (privCode m p) k rule second addr s

/-- The rules that judge an access: a debug port that is not OPENED is judged by the default map alone (R420). -/
def rulesFor (s : State) (m : Master) (p : Priv) (addr n : Nat) : List (Nat × Word) :=
  if m = .debug ∧ s.dbg.st ≠ 2 then [] else ruleMatch s m.code (privCode m p) addr n

/-- The default map lets nothing but the DDR be fetched from (Table 17.2). -/
def defaultKind (k : AccKind) (addr : Nat) : Bool := k != .fetch || decide (0x80000000 ≤ addr)

/-- The check of an access: none when it may proceed, otherwise its answer. A debug port that is not OPENED is refused every VAULT address
(Table 17.6). -/
def artCheck (m : Master) (p : Priv) (k : AccKind) (addr n : Nat) (s : State) : State × Option Resp :=
  if m = .debug ∧ s.pwr.st ≠ .main then (s, some .busError)
  else if m = .debug ∧ s.dbg.st = 2 ∧ secState s = 1 ∧ isVault s addr = true then (vaultRefused addr s, some .busError)
  else match judge k (defaultAllows s m (privCode m p) addr && defaultKind k addr && !(m == .debug && s.dbg.st != 2 && isVault s addr)) (rulesFor s m p addr n) with
    | .allowed => (s, none)
    | .refused r q => (artRefuse m p k r q addr s, some (refusalAnswer m k addr))

/-! ### Clock gates (R376) -/

/-- The gate of the clock that a register lives on; none for clocks that cannot be turned off. -/
def regGate (a : Nat) : Option Nat :=
  match a / 0x10000 with
  | 0x02 => some 5
  | 0x20 => if a % 0x10000 < 0xC000 then some (16 + a % 0x10000 / 0x1000) else if a == Reg.FGR_ETYPE then some 4 else none
  | 0x40 => some (40 + a % 0x10000 / 0x1000)
  | 0x50 => if a % 0x10000 < 0x8000 then some (32 + a % 0x10000 / 0x1000) else some (32 + a % 0x8000 / 0x40)
  | 0x51 => if a % 0x10000 < 0x0800 then some 36 else if a % 0x10000 < 0x1000 then some 37 else some 5
  | _ => none

/-- The clock of a register runs. -/
def regClocked (s : State) (a : Nat) : Bool :=
  match regGate a with
  | some g => clockRuns s g
  | none => true

/-- The registers of a target all have their clock. -/
def clocked (s : State) (m : Master) (addr : Nat) : Target → Bool
  | .reg _ => regClocked s addr
  | .bcast a => (a.hits s m).all fun p => regClocked s p.1
  | _ => true

/-- An access to a unit whose clock is stopped is counted. -/
def gatedAccess (s : State) : State := satAdd s Reg.CLK_GATED_ACC Reg.CLK_GATED_ACC_count 1

/-! ### Windows -/

/-- A cam point or signal map entry word as the loader wrote it, from Store offset `camBase` on. -/
def tableWord (s : State) (off : Nat) : Word :=
  if off < smtBase then BitVec.ofNat 32 (fld (((s.img.recs 0x08 1)[(off - camBase) / 8]?).getD 0) (off % 8) 4)
  else BitVec.ofNat 32 (fld (((s.img.recs 0x03 0)[(off - smtBase) / 8]?).getD 0) (off % 8) 4)

/-- Word `off / 4` of the Block Table of the running image. -/
def blockWord (s : State) (off : Nat) : Word := BitVec.ofNat 32 (fld (s.img.blkRaw (off / 32)) (off % 32) 4)

/-- A word of the Central Store (Table 1.4). The tables and states are views of what the units hold; where a unit does not hold the value
that was written, `store` keeps the difference (notes/assumptions/5.md). -/
def storeWord (s : State) (off : Nat) : Word :=
  if off < slotBase then blockWord s off
  else if off < paramBase then BitVec.ofNat 32 (ld s.prog.slots (off - slotBase) 4)
  else if off < imageBase then s.img.prm ((off - paramBase) / 4)
  else if off < camBase then ckGet s (off / 4)
  else if off < smtBase + 0x84000 then BitVec.ofNat 32 (ld s.store off 4) ^^^ tableWord s off
  else if off < queueBase then BitVec.ofNat 32 (ld s.store off 4) ^^^ ckGet s (off / 4)
  else BitVec.ofNat 32 (ld s.store off 4)

/-- A write of a word of the Central Store; none: a bus error. The Block Table, the parameter pool and the process image are read-only (R87,
R142), and so is a container between `VERIFY` and its commit (R48). -/
def storePut (off : Nat) (v : Word) (s : State) : Option State :=
  if storeLocked s off 4 then none
  else if off < slotBase then none
  else if off < paramBase then
    let o := off - slotBase
    some (setProg (storeWrite off [0, 0, 0, 0] s) { s.prog with slots := st s.prog.slots o 4 v.toNat, cslots := st s.prog.cslots o 4 v.toNat })
  else if off < camBase then none
  else if off < smtBase + 0x84000 then some (storeWrite off (leBytes 4 (v ^^^ tableWord s off).toNat) s)
  else if off < queueBase then
    let s := if off / 4 < ovrWord then ckPut (off / 4) v s else s
    some (storeWrite off (leBytes 4 (v ^^^ ckGet s (off / 4)).toNat) s)
  else some (storeWrite off (leBytes 4 v.toNat) s)

/-- What the process image window shows of a word: in STANDBY and DETACHED the export runs alone (R247). -/
def shown (s : State) (n : Nat) : Bool := !(s.mode == .standby || s.mode == .detached) || s.img.exported n

def imageWord (s : State) (n : Nat) : Word := if shown s n then s.prog.pub.w.get n else 0
def imageQual (s : State) (n : Nat) : Byte := if shown s n then s.prog.pub.q.get n else 0

/-- A word of the process image window. -/
def imageWin (s : State) (off : Nat) : Word :=
  if off < 0x80000 then imageWord s (off / 4)
  else BitVec.ofNat 32 (leNat ((List.range 4).map fun i => imageQual s (off - 0x80000 + i)))

/-- A DDR read: an uncorrectable word gives no data (R26, Table 1.3). -/
def ddrBad (s : State) (off n : Nat) : Bool :=
  (List.range ((off + n + 7) / 8 - off / 8)).any fun i => s.ddrEcc.get (off / 8 + i) == 2

/-! ### Captures of high words (R145) -/

/-- The captured word of a master for an address. -/
def capture? (s : State) (m : Master) (addr : Nat) : Option Word := (s.hiCap.find? fun c => c.1 == pm m addr).map (·.2)

/-- Every access by a master drops its captures. -/
def dropCaptures (m : Master) (s : State) : State := { s with hiCap := s.hiCap.filter fun c => c.1 / 0x100000000 != m.code + 1 }

/-- A capture for a master. -/
def keepCapture (m : Master) (addr : Nat) (v : Word) (s : State) : State := { s with hiCap := (pm m addr, v) :: s.hiCap }

/-- The capture that a read of a low register or of the low word of a two-word signal makes. -/
def captureAfter (m : Master) (addr : Nat) (t : Target) (s : State) : State :=
  match t with
  | .reg _ =>
    if capturesHi addr then
      match Reg.desc? (addr + 4) with
      | some d => keepCapture m (addr + 4) (regValue s d m (addr + 4)) s
      | none => s
    else s
  | .image off =>
    let n := off / 4
    if off < 0x80000 ∧ s.img.sigLow n ∧ (s.img.sigTyp n).any (5 ≤ ·) then keepCapture m (addr + 4) (imageWord s (n + 1)) s else s
  | _ => s

/-! ### Reads and writes -/

/-- A read on the debug port while the engine is halted clears nothing (R6). Every state in which the engine does not execute counts as halted
(notes/assumptions/96.md). -/
def readClears (s : State) (m : Master) : Bool := !(m == .debug && (!executing s || s.dbg.frozen))

/-- The answer of a read that finds no data: the core faults on DDR, every other master gets a bus error (R10, R26). -/
def noData (m : Master) (t : Target) : Resp :=
  match m, t with
  | .mc0, .ddr _ => .accessFault
  | .mc1, .ddr _ => .accessFault
  | _, _ => .busError

/-- The read at its target. -/
def targetRead (m : Master) (addr n : Nat) (t : Target) (s : State) : State × Resp :=
  match t with
  | .reg d =>
    match regRead (readClears s m) d m addr s with
    | (s, some v) => (s, .data v)
    | (s, none) => (s, .busError)
  | .bcast a =>
    match aliasRead a m s with
    | (s, some v) => (s, .data v)
    | (s, none) => (s, .busError)
  | .ballast off => (s, .data (BitVec.ofNat 32 (ld s.ballast off 4)))
  | .store off =>
    match eccRead off 4 s with
    | (s, true) => (s, noData m t)
    | (s, false) => (s, .data (storeWord s off))
  | .image off =>
    match eccRead (imageBase + off) 4 s with
    | (s, true) => (s, noData m t)
    | (s, false) => (s, .data (imageWin s off))
  | .blocks off =>
    match eccRead (blockTableBase + off) 4 s with
    | (s, true) => (s, noData m t)
    | (s, false) => (s, .data (blockWord s off))
  | .ddr off => if ddrBad s off n then (s, noData m t) else (s, if n = 8 then .data64 (BitVec.ofNat 64 (ld s.ddr off 8)) else .data (BitVec.ofNat 32 (ld s.ddr off n)))

/-- The end of the RETAIN region of Ballast, whose two copies lie from 0x0000_0000 and 0x0010_1000 (R136, notes/assumptions/49.md). -/
def retainEnd : Nat := 0x202000

/-- What the Ballast window does not write: the RETAIN region and the boot record (R136, R432). -/
def ballastClosed (off : Nat) : Bool := decide (off < retainEnd) || (decide (bootCopy0 ≤ off) && decide (off < bootCopy1 + 64))

/-- A store of fewer bytes than a 64-bit word reads the rest of it: an uncorrectable word that it covers in part stops it (R26). -/
def ddrTorn (s : State) (off n : Nat) : Bool :=
  (List.range ((off + n + 7) / 8 - off / 8)).any fun i =>
    let w := off / 8 + i
    s.ddrEcc.get w == 2 && !(decide (off ≤ 8 * w) && decide (8 * w + 8 ≤ off + n))

/-- The write at its target: `v` holds the bytes in its low end. A closed part of Ballast is a bus error. -/
def targetWrite (m : Master) (addr n : Nat) (v : BitVec 64) (t : Target) (s : State) : State × Resp :=
  let done := fun (r : State × Bool) => (r.1, if r.2 then Resp.done else Resp.busError)
  match t with
  | .reg d => done (regWrite d m addr (v.setWidth 32) s)
  | .bcast a => done (aliasWrite a m (v.setWidth 32) s)
  | .ballast off =>
    if ballastClosed off then (s, .busError) else ({ s with ballast := st s.ballast off 4 v.toNat }, .done)
  | .store off =>
    match storePut off (v.setWidth 32) s with
    | some s => (s, .done)
    | none => (s, .busError)
  | .image _ => (s, .busError)
  | .blocks _ => (s, .busError)
  | .ddr off =>
    if ddrTorn s off n then (s, noData m t)
    else
    let ecc := (List.range ((off + n + 7) / 8 - off / 8)).foldl (fun (e : SMap 2) i => e.put (off / 8 + i) 0) s.ddrEcc
    ({ s with ddr := st s.ddr off n v.toNat, ddrEcc := ecc }, .done)

/-- The read of a high word that the master holds a capture for. -/
def readCaptured (w : Option Word) (r : State × Resp) : State × Resp :=
  match w, r.2 with
  | some w, .data _ => (r.1, .data w)
  | _, _ => r

/-- A stopped clock in an alias access still rewrites BCAST_STATUS (R58); the access is refused whole and counted once
(notes/assumptions/98.md). -/
def gatedAnswer (m : Master) (t : Target) (s : State) : State × Resp :=
  match t with
  | .bcast a => (gatedAccess (bcastStatus a m false s), .busError)
  | _ => (gatedAccess s, .busError)

/-- A read by a master: a load or an instruction fetch. -/
def busRead (m : Master) (p : Priv) (k : AccKind) (addr n : Nat) (s : State) : State × Resp :=
  let cap := capture? s m addr
  let s := dropCaptures m s
  match target? m addr n with
  | none => (s, .busError)
  | some t =>
    match artCheck m p k addr n s with
    | (s, some r) => (s, r)
    | (s, none) =>
      if !clocked s m addr t then gatedAnswer m t s
      else
        let r := readCaptured cap (targetRead m addr n t s)
        match r.2 with
        | .data _ => (captureAfter m addr t r.1, r.2)
        | _ => r

/-- A write by a master. -/
def busWrite (m : Master) (p : Priv) (addr n : Nat) (v : BitVec 64) (s : State) : State × Resp :=
  let s := dropCaptures m s
  match target? m addr n with
  | none => (s, .busError)
  | some t =>
    match artCheck m p .write addr n s with
    | (s, some r) => (s, r)
    | (s, none) => if !clocked s m addr t then gatedAnswer m t s else targetWrite m addr n v t s

/-- An atomic access of a core: its read, then its write; the answer is the old value (R403). -/
def busAtomic (m : Master) (p : Priv) (addr n : Nat) (v : BitVec 64) (s : State) : State × Resp :=
  let s := dropCaptures m s
  match target? m addr n with
  | none => (s, .busError)
  | some t =>
    match artCheck m p .atomic addr n s with
    | (s, some r) => (s, r)
    | (s, none) =>
      if !clocked s m addr t then gatedAnswer m t s
      else
        match targetRead m addr n t s with
        | (s, .busError) => (s, .busError)
        | (s, .accessFault) => (s, .accessFault)
        | (s, old) =>
          match targetWrite m addr n v t s with
          | (s, .done) => (s, old)
          | r => r

/-- The state after an access, with its answer. -/
def answer (r : State × Resp) : State := { r.1 with resp := r.2 }

/-- A read, and a write of a word, made by a request. -/
def reqRead (r : Req) (addr n : Nat) (s : State) : State := answer (busRead r.m r.p .read addr n s)
def reqWrite (r : Req) (addr : Nat) (v : Word) (s : State) : State := answer (busWrite r.m r.p addr 4 (v.setWidth 64) s)

end Sys2Proof.Machine
end

