-- ==== Sys2Proof/Machine/Jtag.lean ====
section
/-!
DEFINITION. The test access port X41: DACC, IDCODE, BYPASS and boundary scan (R417, R420).
-/
namespace Sys2Proof.Machine

/-- The debug port itself writes a register. -/
def debugWrite (a : Nat) (v : Word) (s : State) : State := answer (busWrite .debug .machine a 4 (v.setWidth 64) s)

/-- The result of a DACC access for the next shift: 0 OK, 2 BUS_ERROR, with read data. -/
def daccResult (r : State × Resp) : State :=
  match r.2 with
  | .data v => setDbg r.1 { r.1.dbg with resultStatus := 0, resultData := v }
  | .done => setDbg r.1 { r.1.dbg with resultStatus := 0, resultData := 0 }
  | _ => setDbg r.1 { r.1.dbg with resultStatus := 2, resultData := 0 }

/-- The `n` low bits of a number, bit 0 first. -/
def bitsOf (n v : Nat) : List Bool := (List.range n).map fun i => v.testBit i

/-- An instruction other than EXTEST and INTEST: the pins keep their function. -/
def scanIdle (s : State) : State := setDbg s { s.dbg with driven := none }

/-- A DACC shift: the result of the previous access is shifted out, and the access shifted in is made. -/
def dacc (dr : BitVec 66) (s : State) : State :=
  let prev := s.dbg.resultStatus + s.dbg.resultData.toNat * 2 ^ 32
  let s := setDbg (scanIdle s) { (scanIdle s).dbg with scanOut := bitsOf 66 prev }
  let addr := bits dr.toNat 2 30 * 4
  match dr.toNat % 4 with
  | 1 => daccResult (busRead .debug .machine .read addr 4 s)
  | 2 => daccResult (busWrite .debug .machine addr 4 (BitVec.ofNat 64 (bits dr.toNat 32 32)) s)
  | _ => s

/-- IDCODE: bit 0 is 1, then manufacturer, part number 0x0880 and version. -/
def idcode (s : State) : State :=
  let v := 1 + 2 * Config.manufacturer.toNat + 2 ^ 12 * 0x0880 + 2 ^ 28 * (Reg.SYS_ID_rev.get (getR s Reg.SYS_ID) % 16)
  setDbg (scanIdle s) { (scanIdle s).dbg with scanOut := bitsOf 32 v }

/-- BYPASS: the one-bit register, which captures 0, is shifted out, and TDI goes into it. -/
def bypass (tdi : Bool) (s : State) : State := setDbg (scanIdle s) { (scanIdle s).dbg with scanOut := [false], bypassBit := tdi }

/-- SAMPLE/PRELOAD: what stood at the pins is shifted out, and the cells take what is shifted in. -/
def samplePreload (pins shifted : List Bool) (s : State) : State :=
  setDbg (scanIdle s) { (scanIdle s).dbg with scanOut := pins, cells := shifted }

/-- EXTEST and INTEST have their row of Table 17.6. -/
def scanAllowed (s : State) : Bool := s.pwr.st == .main && s.dbg.st == 2 && s.mode == .service

/-- EXTEST and INTEST: the cells drive pins or core logic with what is shifted in, and what they captured is shifted out. Outside their row the
cells stay in BYPASS. -/
def scanDrive (shifted : List Bool) (s : State) : State :=
  if scanAllowed s then
    let got := (List.range shifted.length).map fun i => Config.scanBit s.freeCtr i
    takeFree (setDbg s { s.dbg with scanOut := got, cells := shifted, driven := some shifted })
  else bypass ((shifted.getLast?).getD false) s

/-- Pins are driven from the cells only while EXTEST or INTEST has its row. -/
def settleScan (s : State) : State := if s.dbg.driven.isSome && !scanAllowed s then scanIdle s else s

end Sys2Proof.Machine
end

