-- ==== Sys2Proof/Machine/Svc.lean ====
section
/-!
DEFINITION. The service port X40: address, ARP, ICMP, and the Daxtiand Service Protocol (R422 to R429).
-/
namespace Sys2Proof.Machine

def setSvc (s : State) (v : Service) : State := { s with svc := v }

/-! ### Messages (Tables 18.1 and 18.2) -/

/-- A service message. -/
structure SvcMsg where
  typ : Nat
  status : Nat
  session : Nat
  seq : Nat
  reserved : Nat
  length : Nat
  body : List Byte
  deriving DecidableEq, Repr

def svcMsg (l : List Byte) : SvcMsg :=
  let n := fun (o k : Nat) => beNat (slice l o k)
  { typ := n 1 1, status := n 2 2, session := n 4 4, seq := n 8 4, length := n 12 2, reserved := n 14 2, body := slice l 16 (l.length - 20) }

/-- A datagram that is discarded without an answer (Table 18.5). The CRC stands big-endian after header and body. -/
def svcDiscard (d : Datagram) : Bool :=
  let n := d.payload.length
  d.fragment || d.dport != 4880 || decide (n < 20) || decide (1420 < n) || beNat (slice d.payload 0 1) != 1 ||
  beNat (d.payload.drop (n - 4)) != (crc32c (d.payload.take (n - 4))).toNat

/-- Table 18.2: the body fits its type. -/
def svcForm (x : SvcMsg) : Bool :=
  let n := x.body.length
  let count := beNat (slice x.body 4 2)
  x.length == n && x.status == 0 && x.reserved == 0 &&
  match x.typ with
  | 0x01 => n == 0 && x.session == 0
  | 0x02 => n == 64
  | 0x03 => n == 0
  | 0x10 => n == 8 && decide (1 ≤ count) && decide (count ≤ 256) && beNat (slice x.body 6 2) == 0
  | 0x11 => decide (1 ≤ count) && decide (count ≤ 256) && n == 8 + 4 * count && beNat (slice x.body 6 2) == 0
  | 0x20 => n == 4 && beNat (slice x.body 1 3) == 0
  | 0x30 => decide (7 ≤ n) && decide (n ≤ 1030)
  | _ => false

/-- An answer's payload. -/
def svcAnswer (x : SvcMsg) (session status : Nat) (body : List Byte) : List Byte :=
  let h := [1] ++ beBytes 1 x.typ ++ beBytes 2 status ++ beBytes 4 session ++ beBytes 4 x.seq ++ beBytes 2 body.length ++ [0, 0]
  h ++ body ++ beBytes 4 (crc32c (h ++ body)).toNat

def svcSend (d : Datagram) (payload : List Byte) (s : State) : State := { s with out := .udp d.ip d.port payload :: s.out }

/-- A row of Table 18.5 is counted. -/
def svcError (s : State) : State := satAdd s Reg.SVC_CNT Reg.SVC_CNT_errors 1

/-- An answer is sent and, in a session, kept for R426; an answer with OK makes the request a good one. -/
def svcReply (d : Datagram) (x : SvcMsg) (status : Nat) (body : List Byte) (s : State) : State :=
  let a := svcAnswer x x.session status body
  let s := svcSend d a s
  match s.svc.session with
  | some v =>
    if v.ip == d.ip && v.id.toNat == x.session then
      setSvc s { s.svc with session := some { v with last := some (BitVec.ofNat 32 x.seq, a), lastC := if status = 0 then s.time.c else v.lastC } }
    else s
  | none => s

/-- A violation of Table 18.5 that is answered. -/
def svcViolation (d : Datagram) (x : SvcMsg) (status : Nat) (s : State) : State := svcError (svcReply d x status [] s)

/-! ### OPEN, PROVE, CLOSE (R427) -/

/-- OPEN: a new session of the client; one that it held before ends. -/
def svcOpenMsg (d : Datagram) (x : SvcMsg) (s : State) : State :=
  let s := svcEnd s
  let sealedNow := secState s == 1
  let nonce := if sealedNow then (List.range 16).map fun i => Config.nonce s.freeCtr i else []
  let id := if Config.sessionId s.freeCtr = 0 then 1 else Config.sessionId s.freeCtr
  let s := takeFree (setSvc s { s.svc with session := some { id := id, ip := d.ip, nonce := nonce, proven := !sealedNow, lastC := s.time.c, last := none } })
  let s := if sealedNow then s else serviceRules true s
  svcSend d (svcAnswer x id.toNat 0 ([BitVec.ofNat 8 (secState s), BitVec.ofNat 8 (b2n sealedNow), 0, 0] ++ nonce)) s

/-- The message that a session signs. -/
def svcMessage (s : State) (v : Session) : List Byte := [0x4C, 0x52, 0x53, 0x56] ++ v.nonce ++ leBytes 4 (getR s Reg.SYS_ID).toNat

/-- The signature of a PROVE fits a debug slot. -/
def svcProof (s : State) (v : Session) (sig : List Byte) : Bool :=
  (List.range 8).any fun i => keyUsable s i 1 && ed25519 (keyPub s i) (svcMessage s v) sig

/-- PROVE. -/
def svcProveMsg (d : Datagram) (x : SvcMsg) (v : Session) (s : State) : State :=
  if v.proven then svcReply d x 0 [] s
  else if s.svc.lockAt.isSome then svcReply d x 4 [] s
  else if svcProof s v x.body then
    svcReply d x 0 [] (serviceRules true (setSvc s { s.svc with fails := 0, session := some { v with proven := true } }))
  else
    let n := min 255 (s.svc.fails + 1)
    let s := setSvc s { s.svc with fails := n, lockAt := if 3 ≤ n then some s.time.c else s.svc.lockAt }
    svcReply d x 4 [] (recEvent s 0x0017 d.ip.toNat 2)

/-! ### READ, WRITE, SNAPSHOT, UPD_PUT (R424) -/

/-- Words read upward from an address; none after a refused one. -/
def svcWords (addr : Nat) : Nat → State → State × Option (List Word)
  | 0, s => (s, some [])
  | n + 1, s =>
    match busRead .service .machine .read addr 4 s with
    | (s, .data v) =>
      match svcWords (addr + 4) n s with
      | (s, l) => (s, l.map (v :: ·))
    | (s, _) => (s, none)

def svcReadMsg (d : Datagram) (x : SvcMsg) (s : State) : State :=
  match svcWords (beNat (slice x.body 0 4)) (beNat (slice x.body 4 2)) s with
  | (s, some l) => svcReply d x 0 (l.flatMap fun w => beBytes 4 w.toNat) s
  | (s, none) => svcReply d x 5 [] s

/-- Words written upward: how many, and whether none was refused. -/
def svcPuts (addr : Nat) : List Word → State → State × Nat × Bool
  | [], s => (s, 0, true)
  | w :: l, s =>
    match busWrite .service .machine addr 4 (w.setWidth 64) s with
    | (s, .done) =>
      match svcPuts (addr + 4) l s with
      | (s, n, ok) => (s, n + 1, ok)
    | (s, _) => (s, 0, false)

def svcWriteMsg (d : Datagram) (x : SvcMsg) (s : State) : State :=
  let n := beNat (slice x.body 4 2)
  let l := (List.range n).map fun i => BitVec.ofNat 32 (beNat (slice x.body (8 + 4 * i) 4))
  let r := svcPuts (beNat (slice x.body 0 4)) l s
  svcReply d x (if r.2.2 then 0 else 5) (beBytes 2 r.2.1) r.1

/-- The registers of a SNAPSHOT, as the service client reads them. -/
def snapWords (s : State) : List Word :=
  [sysState s, engStatus s, getR s Reg.ENG_OVR_STATUS, laneStatus s, redStatus s, getR s Reg.CTU_RUN_ID_LO, getR s Reg.CTU_RUN_ID_HI, imgStatus s]

/-- The enabled override entries from one upward. -/
def snapEntries (s : State) (first : Nat) : List Nat :=
  (List.range 256).filter fun i => decide (first ≤ i) && flag s (Reg.IMG_OVR_CTL i) Reg.IMG_OVR_CTL_en

def svcSnapshotMsg (d : Datagram) (x : SvcMsg) (s : State) : State :=
  let all := snapEntries s (beNat (slice x.body 0 1))
  let l := all.take 96
  let recs := l.flatMap fun i => [getR s (Reg.IMG_OVR_CTL i), getR s (Reg.IMG_OVR_LO i), getR s (Reg.IMG_OVR_HI i)]
  let body := (snapWords s).flatMap (fun w => beBytes 4 w.toNat) ++ [BitVec.ofNat 8 (b2n (decide (96 < all.length))), BitVec.ofNat 8 l.length, 0, 0] ++
    recs.flatMap fun w => beBytes 4 w.toNat
  svcReply d x 0 body s

def svcPutMsg (d : Datagram) (x : SvcMsg) (s : State) : State :=
  let r := updPut (beNat (slice x.body 0 2)) (beNat (slice x.body 2 4)) (x.body.drop 6) s
  svcReply d x (if r.2 then 0 else 6) [] r.1

/-! ### Reception (R423, R425, R426, R429) -/

/-- The stored answer that a repeated request gets. -/
def svcStored (s : State) (d : Datagram) (x : SvcMsg) : Option (List Byte) :=
  match s.svc.session with
  | some v =>
    match v.last with
    | some (q, a) => if v.ip == d.ip && v.id.toNat == x.session && q.toNat == x.seq then some a else none
    | none => none
  | none => none

/-- A well-formed request within a session. -/
def svcInSession (d : Datagram) (x : SvcMsg) (v : Session) (s : State) : State :=
  let s := satAdd s Reg.SVC_CNT Reg.SVC_CNT_requests 1
  match x.typ with
  | 0x02 => svcProveMsg d x v s
  | 0x03 => svcEnd (svcReply d x 0 [] s)
  | 0x10 => svcReadMsg d x s
  | 0x11 => svcWriteMsg d x s
  | 0x20 => svcSnapshotMsg d x s
  | _ => svcPutMsg d x s

/-- A well-formed request: the session that it names, proven where its type asks for that. -/
def svcRequest (d : Datagram) (x : SvcMsg) (s : State) : State :=
  match s.svc.session with
  | none => if x.typ = 0x01 then svcOpenMsg d x (satAdd s Reg.SVC_CNT Reg.SVC_CNT_requests 1) else svcViolation d x 2 s
  | some v =>
    if v.ip != d.ip then svcViolation d x 3 s
    else if x.typ = 0x01 then svcOpenMsg d x (satAdd s Reg.SVC_CNT Reg.SVC_CNT_requests 1)
    else if v.id.toNat != x.session then svcViolation d x 2 s
    else if x.typ = 0x02 ∨ x.typ = 0x03 ∨ v.proven = true then svcInSession d x v s
    else svcViolation d x 2 s

/-- A UDP datagram arrives on X40. Without a link or an announced address nothing is received. -/
def svcReceive (d : Datagram) (s : State) : State :=
  if !s.svc.link || !s.svc.addrOk then s
  else if svcDiscard d then svcError s
  else
    let x := svcMsg d.payload
    match svcStored s d x with
    | some a => svcSend d a s
    | none => if svcForm x then svcRequest d x s else svcViolation d x 1 s

/-! ### Timeouts, ARP, ICMP, address (R422, R427) -/

/-- SVC_SESSION_TIMEOUT: 30 s without a good request. -/
def svcSessionTimeout (s : State) : State :=
  match s.svc.session with
  | some v => if v.lastC + secT 30 ≤ s.time.c then svcEnd s else s
  | none => s

/-- SVC_PROVE_LOCK_EXPIRY: 60 s. -/
def svcProveLockExpiry (s : State) : State :=
  if sinceAtLeast s s.svc.lockAt (secT 60) then setSvc s { s.svc with lockAt := none } else s

/-- An ARP request for the module's own address is answered. -/
def svcArp (target asker : Word) (s : State) : State :=
  if s.svc.link && s.svc.addrOk && target == getR s Reg.SVC_ADDR then { s with out := .arp target asker :: s.out } else s

/-- An ICMP echo request with up to 64 data bytes is answered. -/
def svcIcmp (ip : Word) (data : List Byte) (s : State) : State :=
  if s.svc.link && s.svc.addrOk && decide (data.length ≤ 64) then { s with out := .icmp ip data :: s.out } else s

/-- SVC_PORT_LINK_CHANGE. A new link probes its address anew. -/
def svcLink (up : Bool) (s : State) : State := selfConfirm (setSvc s { s.svc with link := up, addrOk := s.svc.addrOk && up })

/-- The candidate address: from the serial number at first, then drawn at random. -/
def svcCandidate (s : State) : Word :=
  if s.svc.tries = 0 then BitVec.ofNat 32 (169 * 2 ^ 24 + 254 * 2 ^ 16 + (1 + Config.serial % 254) * 2 ^ 8 + (1 + Config.serial / 254 % 254))
  else Config.linkLocal s.svc.tries

/-- LINK_LOCAL_ADDRESS_ANNOUNCED: the candidate is the address, or a conflict makes the module draw another. -/
def svcAnnounce (conflict : Bool) (s : State) : State :=
  if conflict then setSvc s { s.svc with tries := s.svc.tries + 1, addrOk := false }
  else setR (setSvc s { s.svc with addrOk := true }) Reg.SVC_ADDR (svcCandidate s)

end Sys2Proof.Machine
end

