-- ==== Sys2Proof/Machine/Run.lean ====
section
/-!
DEFINITION. What every command has in common: its instant, the module held in reset, and the conditions that hold after every command. The
queue of waiting commands stands outside all of it.
-/
namespace Sys2Proof.Machine

/-- An exchange is PENDING only while a transaction with a delta is (R206, R217). -/
def settleXch (s : State) : State :=
  let pend := masters.any fun m => (s.txn.get m).st == .pending && (s.txn.get m).image && (s.txn.get m).delta
  if s.xch.st == .pending && !pend then { s with xch := { s.xch with st := .none } } else s

/-- The AO units follow PAR_OFF (R358). -/
def settleAos (s : State) : State := { s with io := { s.io with ao := Vector.ofFn fun u => settleAo s u } }

/-- What holds after every command. -/
def settle (s : State) : State := settleIo (settleAos (settleScan (settleXch (settleCan s))))

/-- The state after a command with an effect `f`, at the raw counter value `t`. -/
def after (t : Nat) (f : State → State) (s : State) : State :=
  settle { f (tick t { s with pending := [] }) with pending := s.pending }

/-- A command that acts whatever the module's reset and power (clocks from the rack, supplies, the RTC domain). -/
def runAlways (t : Nat) (f : State → State) (s : State) : Host.Outcome State Fault Refusal := .next (after t f s)

/-- A command of the module's logic: without effect while the module is held in reset or has no power (R369, R380, R382). -/
def run (t : Nat) (f : State → State) (s : State) : Host.Outcome State Fault Refusal :=
  if s.held then .next s else .next (after t f s)

end Sys2Proof.Machine
end

