-- ==== Sys2Proof/Machine/RowsAccess.lean ====
section
/-!
DEFINITION. The meanings of the commands, one definition each: reset and boot, register accesses, Central Store and queues, configuration transactions.
-/
namespace Sys2Proof.Machine

/-- POWER_UP (R382). -/
def execPowerUp (strap : Bool) (aGood : Bool) (bGood : Bool) (s : State) : Host.Outcome State Fault Refusal :=
  runAlways 0 (powerUp strap aGood bGood) s

/-- RACK_RESET (R382). -/
def execRackReset (aGood : Bool) (bGood : Bool) (s : State) : Host.Outcome State Fault Refusal :=
  runAlways 0 (rackReset aGood bGood) s

/-- FW_RESTART (R78). -/
def execFwRestart (t : Nat) (s : State) : Host.Outcome State Fault Refusal :=
  run t fwRestart s

/-- BOOT_DONE (R78). -/
def execBootDone (t : Nat) (checksOk : Bool) (s : State) : Host.Outcome State Fault Refusal :=
  run t (bootDone checksOk) s

/-- REGISTER_WRITE (R3). -/
def execRegisterWrite (r : Req) (addr : Nat) (size : WriteSize) (value : BitVec 64) (s : State) : Host.Outcome State Fault Refusal :=
  run r.t (fun s => answer (if size.atomic then busAtomic r.m r.p addr size.bytes value s else busWrite r.m r.p addr size.bytes value s)) s

/-- REGISTER_READ_CLEAR (R3). -/
def execRegisterReadClear (r : Req) (addr : Nat) (size : ReadSize) (s : State) : Host.Outcome State Fault Refusal :=
  run r.t (fun s => answer (busRead r.m r.p (if size.fetch then .fetch else .read) addr size.bytes s)) s

/-- LO_HI_CAPTURE_READ (R145). -/
def execLoHiCaptureRead (r : Req) (addr : Nat) (s : State) : Host.Outcome State Fault Refusal :=
  run r.t (reqRead r addr 4) s

/-- SCRUB_LINE (R11). -/
def execScrubLine (t : Nat) (written : Bool) (s : State) : Host.Outcome State Fault Refusal :=
  run t (fun s => scrubReport s (scrubLine written s)) s

/-- QUE_TAIL_WRITE (R20). -/
def execQueTailWrite (r : Req) (q : Fin 128) (tail : Word) (s : State) : Host.Outcome State Fault Refusal :=
  run r.t (reqWrite r (Reg.QUE_TAIL q) tail) s

/-- QUEUE_FRAME_SEND (R16). -/
def execQueueFrameSend (t : Nat) (q : Fin 128) (s : State) : Host.Outcome State Fault Refusal :=
  run t (queueFrameSend q) s

/-- DESCRIPTOR_COMPLETE (R19). -/
def execDescriptorComplete (t : Nat) (q : Fin 128) (s : State) : Host.Outcome State Fault Refusal :=
  run t (descriptorComplete q) s

/-- B_WAIT_EXPIRY (R17). -/
def execBWaitExpiry (t : Nat) (q : Fin 128) (s : State) : Host.Outcome State Fault Refusal :=
  run t (bWaitExpiry q) s

/-- RX_FRAME_RECEIVE (R21). -/
def execRxFrameReceive (t : Nat) (q : Fin 128) (classB : Bool) (frame : List Byte) (s : State) : Host.Outcome State Fault Refusal :=
  run t (rxFrameReceive q classB frame) s

/-- CTU_STAGING_WRITE (R46). -/
def execCtuStagingWrite (r : Req) (addr : Nat) (value : Word) (s : State) : Host.Outcome State Fault Refusal :=
  run r.t (reqWrite r addr value) s

/-- BEGIN (R443). -/
def execCtuBegin (r : Req) (s : State) : Host.Outcome State Fault Refusal :=
  run r.t (reqWrite r Reg.CTU_CMD 1) s

/-- VERIFY (R443). -/
def execCtuVerify (r : Req) (s : State) : Host.Outcome State Fault Refusal :=
  run r.t (reqWrite r Reg.CTU_CMD 2) s

/-- COMMIT (R50). -/
def execCtuCommit (r : Req) (boundary : BitVec 2) (s : State) : Host.Outcome State Fault Refusal :=
  run r.t (reqWrite r Reg.CTU_CMD (Reg.CTU_CMD_cmd.mk' 3 ||| Reg.CTU_CMD_boundary.mk' boundary.toNat)) s

/-- ROLLBACK (R53). -/
def execCtuRollback (r : Req) (s : State) : Host.Outcome State Fault Refusal :=
  run r.t (reqWrite r Reg.CTU_CMD 4) s

/-- LOADER_VERIFY_DONE (R40). -/
def execLoaderVerifyDone (t : Nat) (s : State) : Host.Outcome State Fault Refusal :=
  run t loaderVerifyDone s

/-- CTU_BOUNDARY_APPLY (R52). -/
def execCtuBoundaryApply (t : Nat) (s : State) : Host.Outcome State Fault Refusal :=
  run t ctuBoundaryApply s

/-- CTU_IDLE_TIMEOUT (R54). -/
def execCtuIdleTimeout (t : Nat) (s : State) : Host.Outcome State Fault Refusal :=
  run t ctuIdleTimeout s

/-- BCAST_ALIAS_WRITE (R57). -/
def execBcastAliasWrite (r : Req) (addr : Nat) (value : Word) (s : State) : Host.Outcome State Fault Refusal :=
  run r.t (reqWrite r addr value) s

/-- BCAST_ALIAS_READ (R58). -/
def execBcastAliasRead (r : Req) (addr : Nat) (s : State) : Host.Outcome State Fault Refusal :=
  run r.t (reqRead r addr 4) s

end Sys2Proof.Machine
end

