-- ==== Sys2Proof/Machine/RowsCycle.lean ====
section
/-!
DEFINITION. The meanings of the commands, one definition each: cycles, module commands, online exchange, lanes.
-/
namespace Sys2Proof.Machine

/-- CYCLE_START (R59). -/
def execCycleStart (t : Nat) (s : State) : Host.Outcome State Fault Refusal :=
  run t cycleStart s

/-- WAVE_EVALUATE (R91). -/
def execWaveEvaluate (t : Nat) (k : Cls) (upsets : List Upset) (s : State) : Host.Outcome State Fault Refusal :=
  run t (waveEvaluate k upsets) s

/-- COMPARE_TIMEOUT (R228). -/
def execCompareTimeout (t : Nat) (k : Cls) (unit : Fin 8) (w : ComparedWrite) (s : State) : Host.Outcome State Fault Refusal :=
  run t (compareTimeout k w.source unit w.ref w.part w.laneB) s

/-- STEP_SEQUENCER_RUN (R131). -/
def execStepSequencerRun (t : Nat) (k : Cls) (upsets : List Upset) (s : State) : Host.Outcome State Fault Refusal :=
  run t (stepSequencerRun k upsets) s

/-- LSE_UPDATE (R168). -/
def execLseUpdate (t : Nat) (ns : Word) (upsets : List Upset) (s : State) : Host.Outcome State Fault Refusal :=
  run t (lseUpdate ns upsets) s

/-- CYCLE_COMPLETE (R66). -/
def execCycleComplete (t : Nat) (k : Cls) (s : State) : Host.Outcome State Fault Refusal :=
  run t (cycleComplete k) s

/-- OUTPUT_COMMIT (R68). -/
def execOutputCommit (t : Nat) (crcUpset : List Cls) (s : State) : Host.Outcome State Fault Refusal :=
  run t (outputCommit crcUpset) s

/-- OUTPUT_RELEASE (R159). -/
def execOutputRelease (t : Nat) (s : State) : Host.Outcome State Fault Refusal :=
  run t outputRelease s

/-- RETAIN_WRITE_COMPLETE (R137). -/
def execRetainWriteComplete (t : Nat) (s : State) : Host.Outcome State Fault Refusal :=
  run t retainWriteComplete s

/-- ENG_INJECT (R75). -/
def execEngInject (r : Req) (value : Word) (s : State) : Host.Outcome State Fault Refusal :=
  run r.t (reqWrite r Reg.ENG_INJECT value) s

/-- SYS_START (R80). -/
def execSysStart (r : Req) (s : State) : Host.Outcome State Fault Refusal :=
  run r.t (reqWrite r Reg.SYS_CMD 1) s

/-- SYS_STOP (R80). -/
def execSysStop (r : Req) (s : State) : Host.Outcome State Fault Refusal :=
  run r.t (reqWrite r Reg.SYS_CMD 2) s

/-- SYS_SAFE (R80). -/
def execSysSafe (r : Req) (s : State) : Host.Outcome State Fault Refusal :=
  run r.t (reqWrite r Reg.SYS_CMD 3) s

/-- SYS_SERVICE (R79). -/
def execSysService (r : Req) (s : State) : Host.Outcome State Fault Refusal :=
  run r.t (reqWrite r Reg.SYS_CMD 4) s

/-- SYS_HANDOVER (R79). -/
def execSysHandover (r : Req) (s : State) : Host.Outcome State Fault Refusal :=
  run r.t (reqWrite r Reg.SYS_CMD 5) s

/-- XCH_CONFIRM (R222). -/
def execXchConfirm (r : Req) (s : State) : Host.Outcome State Fault Refusal :=
  run r.t (reqWrite r Reg.XCH_CMD 1) s

/-- XCH_REVERT (R223). -/
def execXchRevert (r : Req) (s : State) : Host.Outcome State Fault Refusal :=
  run r.t (reqWrite r Reg.XCH_CMD 2) s

/-- EXCHANGE_SWITCH (R217). -/
def execExchangeSwitch (t : Nat) (ns : Word) (s : State) : Host.Outcome State Fault Refusal :=
  run t (exchangeSwitch ns) s

/-- REVERT_SWITCH (R223). -/
def execRevertSwitch (t : Nat) (ns : Word) (s : State) : Host.Outcome State Fault Refusal :=
  run t (revertSwitch ns) s

/-- EXCHANGE_ARCHIVE_DONE (R222). -/
def execExchangeArchiveDone (t : Nat) (ok : Bool) (s : State) : Host.Outcome State Fault Refusal :=
  run t (exchangeArchiveDone ok) s

/-- SPLIT (R239). -/
def execLaneSplit (r : Req) (s : State) : Host.Outcome State Fault Refusal :=
  run r.t (reqWrite r Reg.LANE_CMD 1) s

/-- LOCK (R239). -/
def execLaneLock (r : Req) (s : State) : Host.Outcome State Fault Refusal :=
  run r.t (reqWrite r Reg.LANE_CMD 2) s

/-- LANE_MODE_HANDOVER (R240). -/
def execLaneModeHandover (t : Nat) (s : State) : Host.Outcome State Fault Refusal :=
  run t laneModeHandover s

/-- LANE_INJECT (R241). -/
def execLaneInject (r : Req) (value : Word) (s : State) : Host.Outcome State Fault Refusal :=
  run r.t (reqWrite r Reg.LANE_INJECT value) s

end Sys2Proof.Machine
end

