-- ==== Sys2Proof/Machine/RowsIo.lean ====
section
/-!
DEFINITION. The meanings of the commands, one definition each: digital and analog I/O.
-/
namespace Sys2Proof.Machine

/-- DI_CROSSING (R343). -/
def execDiCrossing (t : Nat) (ch : Fin 32) (high : Bool) (s : State) : Host.Outcome State Fault Refusal :=
  run t (fun s => diLate ch s (diCrossing ch high s)) s

/-- DI_FILTER_ACCEPT (R343). -/
def execDiFilterAccept (t : Nat) (ch : Fin 32) (s : State) : Host.Outcome State Fault Refusal :=
  run t (fun s => diLate ch s (diFilterAccept ch s)) s

/-- DO_DIAG_SAMPLE (R348). -/
def execDoDiagSample (t : Nat) (ch : Fin 32) (milliamp : BitVec 16) (readback : Bool) (atLimit : Bool) (junction : Int) (s : State) : Host.Outcome State Fault Refusal :=
  run t (doDiagSample ch milliamp.toNat readback atLimit junction) s

/-- OVERLOAD (R348). -/
def execOverload (t : Nat) (ch : Fin 32) (s : State) : Host.Outcome State Fault Refusal :=
  run t (overload ch) s

/-- OVERTEMP (R348). -/
def execOvertemp (t : Nat) (ch : Fin 32) (s : State) : Host.Outcome State Fault Refusal :=
  run t (overtemp ch) s

/-- DO_OFF_PERIOD_END (R349). -/
def execDoOffPeriodEnd (t : Nat) (ch : Fin 32) (junction : Int) (s : State) : Host.Outcome State Fault Refusal :=
  run t (doOffPeriodEnd ch junction) s

/-- OPEN_WIRE (R348). -/
def execOpenWire (t : Nat) (ch : Fin 32) (s : State) : Host.Outcome State Fault Refusal :=
  run t (openWire ch) s

/-- EXT_DRIVE (R352). -/
def execExtDrive (t : Nat) (ch : Fin 32) (s : State) : Host.Outcome State Fault Refusal :=
  run t (extDrive ch) s

/-- GROUP_OVL (R348). -/
def execGroupOvl (t : Nat) (g : Fin 4) (s : State) : Host.Outcome State Fault Refusal :=
  run t (groupOvl g) s

/-- GROUP_OVL_END (R348). -/
def execGroupOvlEnd (t : Nat) (g : Fin 4) (s : State) : Host.Outcome State Fault Refusal :=
  run t (groupOvlEnd g) s

/-- SUPPLY_SAMPLE (R350). -/
def execSupplySample (t : Nat) (g : Fin 4) (millivolt : BitVec 16) (s : State) : Host.Outcome State Fault Refusal :=
  run t (supplySample g millivolt.toNat) s

/-- SAG (R350). -/
def execSag (t : Nat) (g : Fin 4) (s : State) : Host.Outcome State Fault Refusal :=
  run t (sag g) s

/-- UNDERVOLT (R350). -/
def execUndervolt (t : Nat) (g : Fin 4) (s : State) : Host.Outcome State Fault Refusal :=
  run t (undervolt g) s

/-- SUPPLY_RESTORE (R350). -/
def execSupplyRestore (t : Nat) (g : Fin 4) (s : State) : Host.Outcome State Fault Refusal :=
  run t (supplyRestore g) s

/-- DIO_GRP_ACK (R351). -/
def execDioGrpAck (r : Req) (g : Fin 4) (value : Word) (s : State) : Host.Outcome State Fault Refusal :=
  run r.t (reqWrite r (Reg.DIO_GRP_ACK g) value) s

/-- AO_READ_SAMPLE (R355). -/
def execAoReadSample (t : Nat) (u : Fin 8) (current : Word) (vcomp : BitVec 16) (junction : BitVec 16) (atMax : Bool) (s : State) : Host.Outcome State Fault Refusal :=
  run t (aoReadSample u current vcomp.toNat junction atMax) s

/-- COMPL (R355). -/
def execCompl (t : Nat) (u : Fin 8) (s : State) : Host.Outcome State Fault Refusal :=
  run t (aoCompl u) s

/-- OPEN_LOOP (R356). -/
def execOpenLoop (t : Nat) (u : Fin 8) (s : State) : Host.Outcome State Fault Refusal :=
  run t (aoOpenLoop u) s

/-- THERMAL (R356). -/
def execThermal (t : Nat) (u : Fin 8) (s : State) : Host.Outcome State Fault Refusal :=
  run t (aoThermal u) s

/-- AI_CONVERSION_DONE (R359). -/
def execAiConversionDone (t : Nat) (u : Fin 8) (code : BitVec 16) (s : State) : Host.Outcome State Fault Refusal :=
  run t (aiDone u code) s

/-- SHUNT_OPEN (R359). -/
def execShuntOpen (t : Nat) (u : Fin 8) (s : State) : Host.Outcome State Fault Refusal :=
  run t (shuntOpen u) s

/-- SHUNT_TEST (R359). -/
def execShuntTest (t : Nat) (u : Fin 8) (stillOver : Bool) (s : State) : Host.Outcome State Fault Refusal :=
  run t (shuntTest u stillOver) s

/-- ISOLATOR_POWER_LOSS (R341). -/
def execIsolatorPowerLoss (t : Nat) (unit : Fin 72) (s : State) : Host.Outcome State Fault Refusal :=
  run t (isolatorPowerLoss unit) s

end Sys2Proof.Machine
end

