-- ==== Sys2Proof/Machine/RowsNet.lean ====
section
/-!
DEFINITION. The meanings of the commands, one definition each: feger rings, network time, CAN.
-/
namespace Sys2Proof.Machine

/-- DOWNLINK_SEND (R288). -/
def execDownlinkSend (t : Nat) (ring : Fin 6) (frame : Nat) (s : State) : Host.Outcome State Fault Refusal :=
  run t (downlinkSend ring frame) s

/-- RING_FRAME_FORWARD (R279). -/
def execRingFrameForward (t : Nat) (port : Fin 12) (fcsOk : Bool) (frame : List Byte) (s : State) : Host.Outcome State Fault Refusal :=
  run t (ringFrameForward port fcsOk frame) s

/-- UPLINK_RECEIVE (R291). -/
def execUplinkReceive (t : Nat) (port : Fin 12) (fcsOk : Bool) (frame : List Byte) (s : State) : Host.Outcome State Fault Refusal :=
  run t (fun s => uplinkLate s (uplinkReceive port fcsOk frame s)) s

/-- DOWNLINK_RECEIVE (R262). -/
def execDownlinkReceive (t : Nat) (port : Fin 12) (fcsOk : Bool) (frame : List Byte) (s : State) : Host.Outcome State Fault Refusal :=
  run t (downlinkReceive port fcsOk frame) s

/-- RING_CRICKET_RECEIVE (R280). -/
def execRingCricketReceive (t : Nat) (port : Fin 12) (fcsOk : Bool) (frame : List Byte) (s : State) : Host.Outcome State Fault Refusal :=
  run t (ringCricketReceive port fcsOk frame) s

/-- PARAM_DIAG_RECEIVE (R296). -/
def execParamDiagReceive (t : Nat) (port : Fin 12) (fcsOk : Bool) (frame : List Byte) (s : State) : Host.Outcome State Fault Refusal :=
  run t (paramDiagReceive port fcsOk frame) s

/-- IDENTIFY_REPEAT (R292). -/
def execIdentifyRepeat (t : Nat) (s : State) : Host.Outcome State Fault Refusal :=
  run t identifyRepeat s

/-- PTP_FRAME_RECEIVE (R305). -/
def execPtpFrameReceive (t : Nat) (port : Fin 12) (fcsOk : Bool) (frame : List Byte) (residence : BitVec 10) (s : State) : Host.Outcome State Fault Refusal :=
  run t (ptpFrameReceive port fcsOk frame residence.toNat) s

/-- TIME_RATE_CHANGE (R302). -/
def execTimeRateChange (r : Req) (hi : Word) (s : State) : Host.Outcome State Fault Refusal :=
  run r.t (reqWrite r Reg.TIME_INC_HI hi) s

/-- TIME_STEP (R303). -/
def execTimeStep (r : Req) (hi : Word) (s : State) : Host.Outcome State Fault Refusal :=
  run r.t (reqWrite r Reg.TIME_STEP_HI hi) s

/-- TIME_CTRL_WRITE (R303). -/
def execTimeCtrlWrite (r : Req) (value : Word) (s : State) : Host.Outcome State Fault Refusal :=
  run r.t (reqWrite r Reg.TIME_CTRL value) s

/-- TXTS_POP (R307). -/
def execTxtsPop (r : Req) (port : Fin 12) (s : State) : Host.Outcome State Fault Refusal :=
  run r.t (reqRead r (Reg.PTP_TXTS_HI port) 4) s

/-- CAPTURE_EVENT (R311). -/
def execCaptureEvent (t : Nat) (cap : Fin 16) (s : State) : Host.Outcome State Fault Refusal :=
  run t (captureEvent cap) s

/-- CAPTURE_SNAP (R311). -/
def execCaptureSnap (r : Req) (cap : Fin 16) (value : Word) (s : State) : Host.Outcome State Fault Refusal :=
  run r.t (reqWrite r (Reg.TIME_CAP_CFG cap) value) s

/-- CAPTURE_WINDOW_CLOSE (R311). -/
def execCaptureWindowClose (t : Nat) (cap : Fin 16) (s : State) : Host.Outcome State Fault Refusal :=
  run t (captureWindowClose cap) s

/-- TRIGGER_FIRE (R316). -/
def execTriggerFire (t : Nat) (trig : Fin 16) (s : State) : Host.Outcome State Fault Refusal :=
  run t (triggerFire trig) s

/-- DO_PULSE_END (R317). -/
def execDoPulseEnd (t : Nat) (ch : Fin 32) (s : State) : Host.Outcome State Fault Refusal :=
  run t (doPulseEnd ch) s

/-- CAN_WINDOW_OPEN (R328). -/
def execCanWindowOpen (t : Nat) (u : Fin 16) (b : Fin 32) (busIdle : Bool) (s : State) : Host.Outcome State Fault Refusal :=
  run t (canWindowOpen u b busIdle) s

/-- CAN_MISSED_WINDOW (R328). -/
def execCanMissedWindow (t : Nat) (u : Fin 16) (b : Fin 32) (s : State) : Host.Outcome State Fault Refusal :=
  run t (canMissedWindow u b) s

/-- CAN_QUEUE_FRAME_START (R330). -/
def execCanQueueFrameStart (t : Nat) (u : Fin 16) (s : State) : Host.Outcome State Fault Refusal :=
  run t (fun s => canQueueFrameStart s.img.msgCls u s) s

/-- CAN_FRAME_END (R328). -/
def execCanFrameEnd (t : Nat) (u : Fin 16) (how : CanEnd) (tecUp : BitVec 9) (recUp : BitVec 8) (s : State) : Host.Outcome State Fault Refusal :=
  run t (canFrameEnd u how tecUp.toNat recUp.toNat) s

/-- CAN_REFERENCE_SEND (R337). -/
def execCanReferenceSend (t : Nat) (u : Fin 16) (s : State) : Host.Outcome State Fault Refusal :=
  run t (canReferenceSend u) s

/-- CAN_CANCEL (R331). -/
def execCanCancel (r : Req) (u : Fin 16) (mask : Word) (s : State) : Host.Outcome State Fault Refusal :=
  run r.t (reqWrite r (Reg.CAN_TXB_CANCEL u) mask) s

/-- CAN_FRAME_RECEIVE (R333). -/
def execCanFrameReceive (t : Nat) (u : Fin 16) (sof : Nat) (f : CanFrame) (s : State) : Host.Outcome State Fault Refusal :=
  run t (canFrameReceive u sof f) s

/-- CAN_BUS_ERROR (R336). -/
def execCanBusError (t : Nat) (u : Fin 16) (e : CanErr) (tecUp : BitVec 9) (recUp : BitVec 8) (s : State) : Host.Outcome State Fault Refusal :=
  run t (canBusError u e tecUp.toNat recUp.toNat) s

/-- CAN_RECOVER (R336). -/
def execCanRecover (r : Req) (u : Fin 16) (value : Word) (s : State) : Host.Outcome State Fault Refusal :=
  run r.t (reqWrite r (Reg.CAN_CTRL u) value) s

/-- CAN_RECOVERY_DONE (R336). -/
def execCanRecoveryDone (t : Nat) (u : Fin 16) (s : State) : Host.Outcome State Fault Refusal :=
  run t (canRecoveryDone u) s

/-- CAN_RXW_LOCK_READ (R334). -/
def execCanRxwLockRead (r : Req) (u : Fin 16) (s : State) : Host.Outcome State Fault Refusal :=
  run r.t (reqRead r (Reg.CAN_RXW u 0) 4) s

/-- CAN_RXW_RELEASE_READ (R334). -/
def execCanRxwReleaseRead (r : Req) (u : Fin 16) (s : State) : Host.Outcome State Fault Refusal :=
  run r.t (fun s => reqRead r (Reg.CAN_RXW u (rxwLast s u)) 4 s) s

/-- CAN_RXW_LOCK_TIMEOUT (R334). -/
def execCanRxwLockTimeout (t : Nat) (u : Fin 16) (s : State) : Host.Outcome State Fault Refusal :=
  run t (rxwTimeout u) s

end Sys2Proof.Machine
end

