-- ==== Sys2Proof/Machine/RowsPair.lean ====
section
/-!
DEFINITION. The meanings of the commands, one definition each: the redundant pair.
-/
namespace Sys2Proof.Machine

/-- TETHER_CRICKET_SEND (R252). -/
def execTetherCricketSend (t : Nat) (s : State) : Host.Outcome State Fault Refusal :=
  run t tetherCricketSend s

/-- RING_CRICKET_SEND (R280). -/
def execRingCricketSend (t : Nat) (ring : Fin 6) (s : State) : Host.Outcome State Fault Refusal :=
  run t (ringCricketSend ring) s

/-- CRICKET_RECEIVE (R246). -/
def execCricketReceive (t : Nat) (lane : Fin 2) (fcsOk : Bool) (frame : List Byte) (s : State) : Host.Outcome State Fault Refusal :=
  run t (cricketReceive lane fcsOk frame) s

/-- TETHER_LANE_TIMEOUT (R251). -/
def execTetherLaneTimeout (t : Nat) (lane : Fin 2) (s : State) : Host.Outcome State Fault Refusal :=
  run t (tetherLaneTimeout lane) s

/-- CKPT_FRAME_SEND (R256). -/
def execCkptFrameSend (t : Nat) (s : State) : Host.Outcome State Fault Refusal :=
  run t ckptFrameSend s

/-- CKPT_DATA_RECEIVE (R257). -/
def execCkptDataReceive (t : Nat) (lane : Fin 2) (fcsOk : Bool) (frame : List Byte) (s : State) : Host.Outcome State Fault Refusal :=
  run t (ckptDataReceive lane fcsOk frame) s

/-- CKPT_END_RECEIVE (R258). -/
def execCkptEndReceive (t : Nat) (lane : Fin 2) (fcsOk : Bool) (frame : List Byte) (s : State) : Host.Outcome State Fault Refusal :=
  run t (ckptEndReceive lane fcsOk frame) s

/-- CKPT_MISSING_TIMEOUT (R258). -/
def execCkptMissingTimeout (t : Nat) (s : State) : Host.Outcome State Fault Refusal :=
  run t ckptMissingTimeout s

/-- CKPT_ACK_RECEIVE (R258). -/
def execCkptAckReceive (t : Nat) (lane : Fin 2) (fcsOk : Bool) (frame : List Byte) (s : State) : Host.Outcome State Fault Refusal :=
  run t (ckptAckReceive lane fcsOk frame) s

/-- CKPT_ABORT (R258). -/
def execCkptAbort (t : Nat) (s : State) : Host.Outcome State Fault Refusal :=
  run t ckptAbort s

/-- RESYNC_REQ_RECEIVE (R260). -/
def execResyncReqReceive (t : Nat) (lane : Fin 2) (fcsOk : Bool) (frame : List Byte) (s : State) : Host.Outcome State Fault Refusal :=
  run t (resyncReqReceive lane fcsOk frame) s

/-- IMAGE_FRAME_RECEIVE (R244). -/
def execImageFrameReceive (t : Nat) (lane : Fin 2) (fcsOk : Bool) (frame : List Byte) (s : State) : Host.Outcome State Fault Refusal :=
  run t (imageFrameReceive lane fcsOk frame) s

/-- LAG_TIMEOUT (R259). -/
def execLagTimeout (t : Nat) (s : State) : Host.Outcome State Fault Refusal :=
  run t lagTimeout s

/-- STANDBY_INTERVAL_END (R254). -/
def execStandbyIntervalEnd (t : Nat) (s : State) : Host.Outcome State Fault Refusal :=
  run t standbyIntervalEnd s

/-- CLAIM_BY_SILENCE (R265). -/
def execClaimBySilence (t : Nat) (s : State) : Host.Outcome State Fault Refusal :=
  run t claimBySilence s

/-- RELEASE_RECEIVE (R265). -/
def execReleaseReceive (t : Nat) (fromRing : Bool) (port : Fin 12) (fcsOk : Bool) (frame : List Byte) (s : State) : Host.Outcome State Fault Refusal :=
  run t (releaseReceive fromRing port fcsOk frame) s

/-- CLAIM (R266). -/
def execClaim (t : Nat) (s : State) : Host.Outcome State Fault Refusal :=
  run t claim s

/-- CLAIM_RECEIVE (R262). -/
def execClaimReceive (t : Nat) (fromRing : Bool) (port : Fin 12) (fcsOk : Bool) (frame : List Byte) (s : State) : Host.Outcome State Fault Refusal :=
  run t (claimReceive fromRing port fcsOk frame) s

/-- ISOLATION (R269). -/
def execIsolation (t : Nat) (s : State) : Host.Outcome State Fault Refusal :=
  run t isolation s

/-- RING_HANDOVER_TRIGGER (R270). -/
def execRingHandoverTrigger (t : Nat) (s : State) : Host.Outcome State Fault Refusal :=
  run t ringHandover s

/-- START_LISTEN_END (R271). -/
def execStartListenEnd (t : Nat) (s : State) : Host.Outcome State Fault Refusal :=
  run t startListenEnd s

/-- HANDOVER_PROPOSE (R273). -/
def execHandoverPropose (t : Nat) (s : State) : Host.Outcome State Fault Refusal :=
  run t handoverPropose s

/-- HANDOVER_FRAME_RECEIVE (R274). -/
def execHandoverFrameReceive (t : Nat) (lane : Fin 2) (fcsOk : Bool) (frame : List Byte) (s : State) : Host.Outcome State Fault Refusal :=
  run t (handoverFrame lane fcsOk frame) s

/-- HANDOVER_GO_DEADLINE (R274). -/
def execHandoverGoDeadline (t : Nat) (s : State) : Host.Outcome State Fault Refusal :=
  run t handGoDeadline s

/-- HOLDOFF_EXPIRY (R276). -/
def execHoldoffExpiry (t : Nat) (s : State) : Host.Outcome State Fault Refusal :=
  run t holdoffExpiry s

end Sys2Proof.Machine
end

