-- ==== Sys2Proof/Machine/RowsPower.lean ====
section
/-!
DEFINITION. The meanings of the commands, one definition each: clocks and power, time of day, recorder.
-/
namespace Sys2Proof.Machine

/-- JUDGE_WINDOW_END (R364). -/
def execJudgeWindowEnd (t : Nat) (countA : Nat) (countB : Nat) (s : State) : Host.Outcome State Fault Refusal :=
  runAlways t (fun s => leaveHold (judgeWindow countA countB s)) s

/-- REF_FAST_LOSS (R364). -/
def execRefFastLoss (t : Nat) (laneB : Bool) (s : State) : Host.Outcome State Fault Refusal :=
  runAlways t (refFastLoss laneB) s

/-- REF_SWITCH (R367). -/
def execRefSwitch (t : Nat) (_edgeSeen : Bool) (s : State) : Host.Outcome State Fault Refusal :=
  runAlways t refSwitch s

/-- PLL0_HOLDOVER (R368). -/
def execPll0Holdover (t : Nat) (s : State) : Host.Outcome State Fault Refusal :=
  runAlways t pll0Holdover s

/-- PLL0_RELOCK (R368). -/
def execPll0Relock (t : Nat) (s : State) : Host.Outcome State Fault Refusal :=
  runAlways t pll0Relock s

/-- CLOCK_LOSS_STOP (R369). -/
def execClockLossStop (t : Nat) (s : State) : Host.Outcome State Fault Refusal :=
  runAlways t clockLossStop s

/-- DIV_RAMP_STEP (R372, R373): a step that ends a ramp at ratios for which the spec gives "no defined behaviour" stops the machine. -/
def execDivRampStep (t : Nat) (d : DivDomain) (s : State) : Host.Outcome State Fault Refusal :=
  let k := (divStep d s).clk
  if !s.held && s.clk.ramping && !k.ramping && !ratiosOk k then .fault .clockRatioUndefined
  else run t (fun s => if s.clk.ramping then divStep d s else s) s

/-- CLK_GATE_OPEN (R375). -/
def execClkGateOpen (r : Req) (gate : BitVec 6) (s : State) : Host.Outcome State Fault Refusal :=
  run r.t (reqWrite r Reg.CLK_GATE_CMD (Reg.CLK_GATE_CMD_op.mk' 1 ||| Reg.CLK_GATE_CMD_gate.mk' gate.toNat)) s

/-- CLK_GATE_CLOSE (R375). -/
def execClkGateClose (r : Req) (gate : BitVec 6) (s : State) : Host.Outcome State Fault Refusal :=
  run r.t (reqWrite r Reg.CLK_GATE_CMD (Reg.CLK_GATE_CMD_gate.mk' gate.toNat)) s

/-- CLK_GATE_CLOSE_IDLE (R375). -/
def execClkGateCloseIdle (t : Nat) (s : State) : Host.Outcome State Fault Refusal :=
  run t gateCloseIdle s

/-- CLK_GATE_CLOSE_TIMEOUT (R375). -/
def execClkGateCloseTimeout (t : Nat) (s : State) : Host.Outcome State Fault Refusal :=
  run t gateCloseTimeout s

/-- POWER_SAMPLE (R378). -/
def execPowerSample (t : Nat) (feedA : BitVec 16) (feedB : BitVec 16) (supply : BitVec 16) (bank : BitVec 16) (vcore : BitVec 16) (tj : BitVec 16) (s : State) : Host.Outcome State Fault Refusal :=
  runAlways t (powerSample feedA.toNat feedB.toNat supply.toNat bank.toNat vcore.toNat tj) s

/-- HOLDUP_ENTRY (R379). -/
def execHoldupEntry (t : Nat) (s : State) : Host.Outcome State Fault Refusal :=
  run t holdupEntry s

/-- RIDE_THROUGH_STOP (R379). -/
def execRideThroughStop (t : Nat) (s : State) : Host.Outcome State Fault Refusal :=
  runAlways t rideThroughStop s

/-- SUPPLY_RETURN (R380). -/
def execSupplyReturn (t : Nat) (s : State) : Host.Outcome State Fault Refusal :=
  runAlways t supplyReturn s

/-- BACKUP_ENTRY (R380). -/
def execBackupEntry (t : Nat) (s : State) : Host.Outcome State Fault Refusal :=
  runAlways t backupEntry s

/-- RTC_SECOND (R385). -/
def execRtcSecond (t : Nat) (s : State) : Host.Outcome State Fault Refusal :=
  runAlways t rtcSecond s

/-- RTC_SET (R386). -/
def execRtcSet (r : Req) (value : Word) (s : State) : Host.Outcome State Fault Refusal :=
  run r.t (reqWrite r Reg.RTC_SET_TIME value) s

/-- RTC_ALARM_WRITE (R388). -/
def execRtcAlarmWrite (r : Req) (a : Fin 2) (value : Word) (s : State) : Host.Outcome State Fault Refusal :=
  run r.t (reqWrite r (Reg.RTC_ALM_DATE a) value) s

/-- RTC_SUPPLY_SWITCH (R390). -/
def execRtcSupplySwitch (supply : BitVec 16) (cell : BitVec 16) (s : State) : Host.Outcome State Fault Refusal :=
  runAlways s.time.c (rtcSupply supply.toNat cell.toNat) s

/-- CELL_EXHAUSTED (R391). -/
def execCellExhausted (cell : BitVec 16) (supply : BitVec 16) (s : State) : Host.Outcome State Fault Refusal :=
  runAlways s.time.c (rtcSupply supply.toNat cell.toNat) s

/-- OPHOURS_FLUSH (R392). -/
def execOphoursFlush (t : Nat) (s : State) : Host.Outcome State Fault Refusal :=
  run t (fun s => unconfFlush (opFlush s)) s

/-- CELL_MEASURE (R390). -/
def execCellMeasure (t : Nat) (millivolt : BitVec 16) (s : State) : Host.Outcome State Fault Refusal :=
  runAlways t (cellMeasure millivolt.toNat) s

/-- RECORDER_UPDATE (R397). -/
def execRecorderUpdate (t : Nat) (s : State) : Host.Outcome State Fault Refusal :=
  run t recorderUpdate s

/-- REC_FEED (R393). -/
def execRecFeed (r : Req) (value : Word) (s : State) : Host.Outcome State Fault Refusal :=
  run r.t (reqWrite r Reg.REC_FEED value) s

/-- RECORDER_FLUSH (R398). -/
def execRecorderFlush (t : Nat) (s : State) : Host.Outcome State Fault Refusal :=
  run t recorderFlush s

/-- RECORDER_ARCHIVE_HOURLY (R398). -/
def execRecorderArchiveHourly (t : Nat) (ok : Bool) (s : State) : Host.Outcome State Fault Refusal :=
  run t (recorderArchive ok) s

/-- REC_FLUSH_CMD (R400). -/
def execRecFlushCmd (r : Req) (s : State) : Host.Outcome State Fault Refusal :=
  run r.t (reqWrite r Reg.REC_CMD 1) s

/-- REC_ARCHIVE_CMD (R400). -/
def execRecArchiveCmd (r : Req) (s : State) : Host.Outcome State Fault Refusal :=
  run r.t (reqWrite r Reg.REC_CMD 2) s

/-- REC_CLEAR_CMD (R400). -/
def execRecClearCmd (r : Req) (s : State) : Host.Outcome State Fault Refusal :=
  run r.t (reqWrite r Reg.REC_CMD 3) s

end Sys2Proof.Machine
end

