-- ==== Sys2Proof/Machine/RowsSec.lean ====
section
/-!
DEFINITION. The meanings of the commands, one definition each: access rules, security, debug port.
-/
namespace Sys2Proof.Machine

/-- ART_EPOCH_DRAINED (R411). -/
def execArtEpochDrained (t : Nat) (s : State) : Host.Outcome State Fault Refusal :=
  run t artEpochDrained s

/-- SEAL (R415). -/
def execSeal (r : Req) (s : State) : Host.Outcome State Fault Refusal :=
  run r.t (reqWrite r Reg.SEC_CMD 1) s

/-- RMA (R415). -/
def execRma (r : Req) (s : State) : Host.Outcome State Fault Refusal :=
  run r.t (reqWrite r Reg.SEC_CMD 2) s

/-- KEY_REVOKE (R416). -/
def execKeyRevoke (r : Req) (slot : Fin 8) (value : Word) (s : State) : Host.Outcome State Fault Refusal :=
  run r.t (reqWrite r (Reg.SEC_KEY_CTL slot) value) s

/-- DBG_OPEN (R418). -/
def execDbgOpen (t : Nat) (s : State) : Host.Outcome State Fault Refusal :=
  run t (debugWrite Reg.DBG_CTRL 1) s

/-- DBG_CLOSE (R418). -/
def execDbgClose (t : Nat) (s : State) : Host.Outcome State Fault Refusal :=
  run t (debugWrite Reg.DBG_CTRL 2) s

/-- DBG_RESPONSE (R418). -/
def execDbgResponse (t : Nat) (value : Word) (s : State) : Host.Outcome State Fault Refusal :=
  run t (debugWrite (Reg.DBG_RESP 15) value) s

/-- DBG_VERIFY_DONE (R418). -/
def execDbgVerifyDone (t : Nat) (s : State) : Host.Outcome State Fault Refusal :=
  run t dbgVerifyDone s

/-- DBG_NONCE_TIMEOUT (R418). -/
def execDbgNonceTimeout (t : Nat) (s : State) : Host.Outcome State Fault Refusal :=
  run t dbgNonceTimeout s

/-- DBG_LOCK_EXPIRY (R418). -/
def execDbgLockExpiry (t : Nat) (s : State) : Host.Outcome State Fault Refusal :=
  run t dbgLockExpiry s

/-- FREEZE (R419). -/
def execFreeze (t : Nat) (s : State) : Host.Outcome State Fault Refusal :=
  run t (debugWrite Reg.DBG_CMD 1) s

/-- THAW (R419). -/
def execThaw (t : Nat) (s : State) : Host.Outcome State Fault Refusal :=
  run t (debugWrite Reg.DBG_CMD 2) s

/-- HALT_MC0 (R419). -/
def execHaltMc0 (t : Nat) (s : State) : Host.Outcome State Fault Refusal :=
  run t (debugWrite Reg.DBG_CMD 3) s

/-- HALT_MC1 (R419). -/
def execHaltMc1 (t : Nat) (s : State) : Host.Outcome State Fault Refusal :=
  run t (debugWrite Reg.DBG_CMD 4) s

/-- RESUME_MC0 (R419). -/
def execResumeMc0 (t : Nat) (s : State) : Host.Outcome State Fault Refusal :=
  run t (debugWrite Reg.DBG_CMD 5) s

/-- RESUME_MC1 (R419). -/
def execResumeMc1 (t : Nat) (s : State) : Host.Outcome State Fault Refusal :=
  run t (debugWrite Reg.DBG_CMD 6) s

/-- DACC (R417). -/
def execDacc (t : Nat) (dr : BitVec 66) (s : State) : Host.Outcome State Fault Refusal :=
  run t (dacc dr) s

/-- IDCODE (R417). -/
def execIdcode (t : Nat) (s : State) : Host.Outcome State Fault Refusal :=
  run t idcode s

/-- BYPASS (R417). -/
def execBypass (t : Nat) (tdi : Bool) (s : State) : Host.Outcome State Fault Refusal :=
  run t (bypass tdi) s

/-- SAMPLE_PRELOAD (R417). -/
def execSamplePreload (t : Nat) (pins : List Bool) (shifted : List Bool) (s : State) : Host.Outcome State Fault Refusal :=
  run t (samplePreload pins shifted) s

/-- EXTEST (R420). -/
def execExtest (t : Nat) (shifted : List Bool) (s : State) : Host.Outcome State Fault Refusal :=
  run t (scanDrive shifted) s

/-- INTEST (R420). -/
def execIntest (t : Nat) (shifted : List Bool) (s : State) : Host.Outcome State Fault Refusal :=
  run t (scanDrive shifted) s

end Sys2Proof.Machine
end

