-- ==== Sys2Proof/Machine/RowsSvc.lean ====
section
/-!
DEFINITION. The meanings of the commands, one definition each: service port, firmware update, self-test, links and patrols.
-/
namespace Sys2Proof.Machine

/-- SVC_OPEN (R427). -/
def execSvcOpen (t : Nat) (d : Datagram) (s : State) : Host.Outcome State Fault Refusal :=
  run t (svcReceive d) s

/-- SVC_PROVE (R427). -/
def execSvcProve (t : Nat) (d : Datagram) (s : State) : Host.Outcome State Fault Refusal :=
  run t (svcReceive d) s

/-- SVC_CLOSE (R427). -/
def execSvcClose (t : Nat) (d : Datagram) (s : State) : Host.Outcome State Fault Refusal :=
  run t (svcReceive d) s

/-- SVC_READ (R424). -/
def execSvcRead (t : Nat) (d : Datagram) (s : State) : Host.Outcome State Fault Refusal :=
  run t (svcReceive d) s

/-- SVC_WRITE (R424). -/
def execSvcWrite (t : Nat) (d : Datagram) (s : State) : Host.Outcome State Fault Refusal :=
  run t (svcReceive d) s

/-- SVC_SNAPSHOT (R424). -/
def execSvcSnapshot (t : Nat) (d : Datagram) (s : State) : Host.Outcome State Fault Refusal :=
  run t (svcReceive d) s

/-- SVC_UPD_PUT (R433). -/
def execSvcUpdPut (t : Nat) (d : Datagram) (s : State) : Host.Outcome State Fault Refusal :=
  run t (svcReceive d) s

/-- SVC_ARP_REQUEST (R422). -/
def execSvcArpRequest (t : Nat) (target : Word) (asker : Word) (s : State) : Host.Outcome State Fault Refusal :=
  run t (svcArp target asker) s

/-- SVC_ICMP_ECHO (R422). -/
def execSvcIcmpEcho (t : Nat) (ip : Word) (data : List Byte) (s : State) : Host.Outcome State Fault Refusal :=
  run t (svcIcmp ip data) s

/-- SVC_SESSION_TIMEOUT (R427). -/
def execSvcSessionTimeout (t : Nat) (s : State) : Host.Outcome State Fault Refusal :=
  run t svcSessionTimeout s

/-- SVC_PROVE_LOCK_EXPIRY (R427). -/
def execSvcProveLockExpiry (t : Nat) (s : State) : Host.Outcome State Fault Refusal :=
  run t svcProveLockExpiry s

/-- DOWNLOAD (R435). -/
def execDownload (r : Req) (image : Bool) (s : State) : Host.Outcome State Fault Refusal :=
  run r.t (reqWrite r Reg.UPD_CMD (Reg.UPD_CMD_cmd.mk' 1 ||| Reg.UPD_CMD_kind.mk' (b2n image))) s

/-- UPD_VERIFY (R435). -/
def execUpdVerify (r : Req) (s : State) : Host.Outcome State Fault Refusal :=
  run r.t (reqWrite r Reg.UPD_CMD 2) s

/-- UPD_VERIFY_DONE (R435). -/
def execUpdVerifyDone (t : Nat) (archiveOk : Bool) (s : State) : Host.Outcome State Fault Refusal :=
  run t (updVerifyDone archiveOk) s

/-- ACTIVATE (R435). -/
def execActivate (r : Req) (s : State) : Host.Outcome State Fault Refusal :=
  run r.t (reqWrite r Reg.UPD_CMD 3) s

/-- CONFIRM (R435). -/
def execConfirm (r : Req) (s : State) : Host.Outcome State Fault Refusal :=
  run r.t (reqWrite r Reg.UPD_CMD 4) s

/-- ABANDON (R435). -/
def execAbandon (r : Req) (s : State) : Host.Outcome State Fault Refusal :=
  run r.t (reqWrite r Reg.UPD_CMD 5) s

/-- UPD_FALLBACK (R438). -/
def execUpdFallback (t : Nat) (s : State) : Host.Outcome State Fault Refusal :=
  run t updFallback s

/-- SCARAB (R441). -/
def execScarab (r : Req) (mask : BitVec 6) (s : State) : Host.Outcome State Fault Refusal :=
  run r.t (reqWrite r Reg.BIST_CMD (Reg.BIST_CMD_cmd.mk' 1 ||| Reg.BIST_CMD_mask.mk' mask.toNat)) s

/-- SCARAB_TEST_DONE (R442). -/
def execScarabTestDone (t : Nat) (failed : Bool) (detail : BitVec 16) (us : Word) (s : State) : Host.Outcome State Fault Refusal :=
  run t (scarabTestDone failed detail.toNat us) s

/-- ABORT (R442). -/
def execAbort (r : Req) (s : State) : Host.Outcome State Fault Refusal :=
  run r.t (reqWrite r Reg.BIST_CMD 2) s

/-- REF_LOCK_REGAINED (R365). -/
def execRefLockRegained (t : Nat) (laneB : Bool) (s : State) : Host.Outcome State Fault Refusal :=
  runAlways t (refLockRegained laneB) s

/-- FEGER_PORT_LINK_CHANGE (R17). -/
def execFegerPortLinkChange (t : Nat) (port : Fin 12) (up : Bool) (s : State) : Host.Outcome State Fault Refusal :=
  run t (fegerLink port up) s

/-- TETHER_PCS_LOCK_LOSS (R251). -/
def execTetherPcsLockLoss (t : Nat) (lane : Fin 2) (s : State) : Host.Outcome State Fault Refusal :=
  run t (tetherPcsLoss lane) s

/-- SFP_PRESENCE_CHANGE (R374). -/
def execSfpPresenceChange (t : Nat) (lane : Fin 2) (present : Bool) (los : Bool) (s : State) : Host.Outcome State Fault Refusal :=
  run t (sfpChange lane present los) s

/-- SVC_PORT_LINK_CHANGE (R436). -/
def execSvcPortLinkChange (t : Nat) (up : Bool) (s : State) : Host.Outcome State Fault Refusal :=
  run t (svcLink up) s

/-- LINK_LOCAL_ADDRESS_ANNOUNCED (R422). -/
def execLinkLocalAddressAnnounced (t : Nat) (conflict : Bool) (s : State) : Host.Outcome State Fault Refusal :=
  run t (svcAnnounce conflict) s

/-- RECORDER_FLUSH_DONE (R398). -/
def execRecorderFlushDone (t : Nat) (ok : Bool) (s : State) : Host.Outcome State Fault Refusal :=
  run t (recorderFlushDone ok) s

/-- ARCHIVE_PATROL_READ (R399). -/
def execArchivePatrolRead (t : Nat) (relocated : Nat) (spare : BitVec 16) (maxErase : BitVec 16) (meanErase : BitVec 16) (bad : BitVec 16) (s : State) : Host.Outcome State Fault Refusal :=
  run t (archivePatrol relocated spare.toNat maxErase.toNat meanErase.toNat bad.toNat) s

/-- BALLAST_PATROL_READ (R399). -/
def execBallastPatrolRead (t : Nat) (s : State) : Host.Outcome State Fault Refusal :=
  run t ballastPatrol s

/-- SUPPLY_LOW (R356). -/
def execSupplyLow (t : Nat) (millivolt : BitVec 16) (s : State) : Host.Outcome State Fault Refusal :=
  run t (aoSupplyLow millivolt.toNat) s

end Sys2Proof.Machine
end

