-- ==== Sys2Proof/Machine/Dispatch.lean ====
section
/-!
DEFINITION. The meaning of every command: one arm per row of the table of operations and events, each a direct call.
-/
namespace Sys2Proof.Machine

def exec (i : Instr) (s : State) : Host.Outcome State Fault Refusal :=
  match i with
  | .powerUp strap aGood bGood => Sys2Proof.Machine.execPowerUp strap aGood bGood s
  | .rackReset aGood bGood => Sys2Proof.Machine.execRackReset aGood bGood s
  | .fwRestart t => Sys2Proof.Machine.execFwRestart t s
  | .bootDone t checksOk => Sys2Proof.Machine.execBootDone t checksOk s
  | .registerWrite r addr size value => Sys2Proof.Machine.execRegisterWrite r addr size value s
  | .registerReadClear r addr size => Sys2Proof.Machine.execRegisterReadClear r addr size s
  | .loHiCaptureRead r addr => Sys2Proof.Machine.execLoHiCaptureRead r addr s
  | .scrubLine t written => Sys2Proof.Machine.execScrubLine t written s
  | .queTailWrite r q tail => Sys2Proof.Machine.execQueTailWrite r q tail s
  | .queueFrameSend t q => Sys2Proof.Machine.execQueueFrameSend t q s
  | .descriptorComplete t q => Sys2Proof.Machine.execDescriptorComplete t q s
  | .bWaitExpiry t q => Sys2Proof.Machine.execBWaitExpiry t q s
  | .rxFrameReceive t q classB frame => Sys2Proof.Machine.execRxFrameReceive t q classB frame s
  | .ctuStagingWrite r addr value => Sys2Proof.Machine.execCtuStagingWrite r addr value s
  | .ctuBegin r => Sys2Proof.Machine.execCtuBegin r s
  | .ctuVerify r => Sys2Proof.Machine.execCtuVerify r s
  | .ctuCommit r boundary => Sys2Proof.Machine.execCtuCommit r boundary s
  | .ctuRollback r => Sys2Proof.Machine.execCtuRollback r s
  | .loaderVerifyDone t => Sys2Proof.Machine.execLoaderVerifyDone t s
  | .ctuBoundaryApply t => Sys2Proof.Machine.execCtuBoundaryApply t s
  | .ctuIdleTimeout t => Sys2Proof.Machine.execCtuIdleTimeout t s
  | .bcastAliasWrite r addr value => Sys2Proof.Machine.execBcastAliasWrite r addr value s
  | .bcastAliasRead r addr => Sys2Proof.Machine.execBcastAliasRead r addr s
  | .cycleStart t => Sys2Proof.Machine.execCycleStart t s
  | .waveEvaluate t k upsets => Sys2Proof.Machine.execWaveEvaluate t k upsets s
  | .compareTimeout t k unit w => Sys2Proof.Machine.execCompareTimeout t k unit w s
  | .stepSequencerRun t k upsets => Sys2Proof.Machine.execStepSequencerRun t k upsets s
  | .lseUpdate t ns upsets => Sys2Proof.Machine.execLseUpdate t ns upsets s
  | .cycleComplete t k => Sys2Proof.Machine.execCycleComplete t k s
  | .outputCommit t crcUpset => Sys2Proof.Machine.execOutputCommit t crcUpset s
  | .outputRelease t => Sys2Proof.Machine.execOutputRelease t s
  | .retainWriteComplete t => Sys2Proof.Machine.execRetainWriteComplete t s
  | .engInject r value => Sys2Proof.Machine.execEngInject r value s
  | .sysStart r => Sys2Proof.Machine.execSysStart r s
  | .sysStop r => Sys2Proof.Machine.execSysStop r s
  | .sysSafe r => Sys2Proof.Machine.execSysSafe r s
  | .sysService r => Sys2Proof.Machine.execSysService r s
  | .sysHandover r => Sys2Proof.Machine.execSysHandover r s
  | .xchConfirm r => Sys2Proof.Machine.execXchConfirm r s
  | .xchRevert r => Sys2Proof.Machine.execXchRevert r s
  | .exchangeSwitch t ns => Sys2Proof.Machine.execExchangeSwitch t ns s
  | .revertSwitch t ns => Sys2Proof.Machine.execRevertSwitch t ns s
  | .exchangeArchiveDone t ok => Sys2Proof.Machine.execExchangeArchiveDone t ok s
  | .laneSplit r => Sys2Proof.Machine.execLaneSplit r s
  | .laneLock r => Sys2Proof.Machine.execLaneLock r s
  | .laneModeHandover t => Sys2Proof.Machine.execLaneModeHandover t s
  | .laneInject r value => Sys2Proof.Machine.execLaneInject r value s
  | .tetherCricketSend t => Sys2Proof.Machine.execTetherCricketSend t s
  | .ringCricketSend t ring => Sys2Proof.Machine.execRingCricketSend t ring s
  | .cricketReceive t lane fcsOk frame => Sys2Proof.Machine.execCricketReceive t lane fcsOk frame s
  | .tetherLaneTimeout t lane => Sys2Proof.Machine.execTetherLaneTimeout t lane s
  | .ckptFrameSend t => Sys2Proof.Machine.execCkptFrameSend t s
  | .ckptDataReceive t lane fcsOk frame => Sys2Proof.Machine.execCkptDataReceive t lane fcsOk frame s
  | .ckptEndReceive t lane fcsOk frame => Sys2Proof.Machine.execCkptEndReceive t lane fcsOk frame s
  | .ckptMissingTimeout t => Sys2Proof.Machine.execCkptMissingTimeout t s
  | .ckptAckReceive t lane fcsOk frame => Sys2Proof.Machine.execCkptAckReceive t lane fcsOk frame s
  | .ckptAbort t => Sys2Proof.Machine.execCkptAbort t s
  | .resyncReqReceive t lane fcsOk frame => Sys2Proof.Machine.execResyncReqReceive t lane fcsOk frame s
  | .imageFrameReceive t lane fcsOk frame => Sys2Proof.Machine.execImageFrameReceive t lane fcsOk frame s
  | .lagTimeout t => Sys2Proof.Machine.execLagTimeout t s
  | .standbyIntervalEnd t => Sys2Proof.Machine.execStandbyIntervalEnd t s
  | .claimBySilence t => Sys2Proof.Machine.execClaimBySilence t s
  | .releaseReceive t fromRing port fcsOk frame => Sys2Proof.Machine.execReleaseReceive t fromRing port fcsOk frame s
  | .claim t => Sys2Proof.Machine.execClaim t s
  | .claimReceive t fromRing port fcsOk frame => Sys2Proof.Machine.execClaimReceive t fromRing port fcsOk frame s
  | .isolation t => Sys2Proof.Machine.execIsolation t s
  | .ringHandoverTrigger t => Sys2Proof.Machine.execRingHandoverTrigger t s
  | .startListenEnd t => Sys2Proof.Machine.execStartListenEnd t s
  | .handoverPropose t => Sys2Proof.Machine.execHandoverPropose t s
  | .handoverFrameReceive t lane fcsOk frame => Sys2Proof.Machine.execHandoverFrameReceive t lane fcsOk frame s
  | .handoverGoDeadline t => Sys2Proof.Machine.execHandoverGoDeadline t s
  | .holdoffExpiry t => Sys2Proof.Machine.execHoldoffExpiry t s
  | .downlinkSend t ring frame => Sys2Proof.Machine.execDownlinkSend t ring frame s
  | .ringFrameForward t port fcsOk frame => Sys2Proof.Machine.execRingFrameForward t port fcsOk frame s
  | .uplinkReceive t port fcsOk frame => Sys2Proof.Machine.execUplinkReceive t port fcsOk frame s
  | .downlinkReceive t port fcsOk frame => Sys2Proof.Machine.execDownlinkReceive t port fcsOk frame s
  | .ringCricketReceive t port fcsOk frame => Sys2Proof.Machine.execRingCricketReceive t port fcsOk frame s
  | .paramDiagReceive t port fcsOk frame => Sys2Proof.Machine.execParamDiagReceive t port fcsOk frame s
  | .identifyRepeat t => Sys2Proof.Machine.execIdentifyRepeat t s
  | .ptpFrameReceive t port fcsOk frame residence => Sys2Proof.Machine.execPtpFrameReceive t port fcsOk frame residence s
  | .timeRateChange r hi => Sys2Proof.Machine.execTimeRateChange r hi s
  | .timeStep r hi => Sys2Proof.Machine.execTimeStep r hi s
  | .timeCtrlWrite r value => Sys2Proof.Machine.execTimeCtrlWrite r value s
  | .txtsPop r port => Sys2Proof.Machine.execTxtsPop r port s
  | .captureEvent t cap => Sys2Proof.Machine.execCaptureEvent t cap s
  | .captureSnap r cap value => Sys2Proof.Machine.execCaptureSnap r cap value s
  | .captureWindowClose t cap => Sys2Proof.Machine.execCaptureWindowClose t cap s
  | .triggerFire t trig => Sys2Proof.Machine.execTriggerFire t trig s
  | .doPulseEnd t ch => Sys2Proof.Machine.execDoPulseEnd t ch s
  | .canWindowOpen t u b busIdle => Sys2Proof.Machine.execCanWindowOpen t u b busIdle s
  | .canMissedWindow t u b => Sys2Proof.Machine.execCanMissedWindow t u b s
  | .canQueueFrameStart t u => Sys2Proof.Machine.execCanQueueFrameStart t u s
  | .canFrameEnd t u how tecUp recUp => Sys2Proof.Machine.execCanFrameEnd t u how tecUp recUp s
  | .canReferenceSend t u => Sys2Proof.Machine.execCanReferenceSend t u s
  | .canCancel r u mask => Sys2Proof.Machine.execCanCancel r u mask s
  | .canFrameReceive t u sof f => Sys2Proof.Machine.execCanFrameReceive t u sof f s
  | .canBusError t u e tecUp recUp => Sys2Proof.Machine.execCanBusError t u e tecUp recUp s
  | .canRecover r u value => Sys2Proof.Machine.execCanRecover r u value s
  | .canRecoveryDone t u => Sys2Proof.Machine.execCanRecoveryDone t u s
  | .canRxwLockRead r u => Sys2Proof.Machine.execCanRxwLockRead r u s
  | .canRxwReleaseRead r u => Sys2Proof.Machine.execCanRxwReleaseRead r u s
  | .canRxwLockTimeout t u => Sys2Proof.Machine.execCanRxwLockTimeout t u s
  | .diCrossing t ch high => Sys2Proof.Machine.execDiCrossing t ch high s
  | .diFilterAccept t ch => Sys2Proof.Machine.execDiFilterAccept t ch s
  | .doDiagSample t ch milliamp readback atLimit junction => Sys2Proof.Machine.execDoDiagSample t ch milliamp readback atLimit junction s
  | .overload t ch => Sys2Proof.Machine.execOverload t ch s
  | .overtemp t ch => Sys2Proof.Machine.execOvertemp t ch s
  | .doOffPeriodEnd t ch junction => Sys2Proof.Machine.execDoOffPeriodEnd t ch junction s
  | .openWire t ch => Sys2Proof.Machine.execOpenWire t ch s
  | .extDrive t ch => Sys2Proof.Machine.execExtDrive t ch s
  | .groupOvl t g => Sys2Proof.Machine.execGroupOvl t g s
  | .groupOvlEnd t g => Sys2Proof.Machine.execGroupOvlEnd t g s
  | .supplySample t g millivolt => Sys2Proof.Machine.execSupplySample t g millivolt s
  | .sag t g => Sys2Proof.Machine.execSag t g s
  | .undervolt t g => Sys2Proof.Machine.execUndervolt t g s
  | .supplyRestore t g => Sys2Proof.Machine.execSupplyRestore t g s
  | .dioGrpAck r g value => Sys2Proof.Machine.execDioGrpAck r g value s
  | .aoReadSample t u current vcomp junction atMax => Sys2Proof.Machine.execAoReadSample t u current vcomp junction atMax s
  | .compl t u => Sys2Proof.Machine.execCompl t u s
  | .openLoop t u => Sys2Proof.Machine.execOpenLoop t u s
  | .thermal t u => Sys2Proof.Machine.execThermal t u s
  | .aiConversionDone t u code => Sys2Proof.Machine.execAiConversionDone t u code s
  | .shuntOpen t u => Sys2Proof.Machine.execShuntOpen t u s
  | .shuntTest t u stillOver => Sys2Proof.Machine.execShuntTest t u stillOver s
  | .isolatorPowerLoss t unit => Sys2Proof.Machine.execIsolatorPowerLoss t unit s
  | .judgeWindowEnd t countA countB => Sys2Proof.Machine.execJudgeWindowEnd t countA countB s
  | .refFastLoss t laneB => Sys2Proof.Machine.execRefFastLoss t laneB s
  | .refSwitch t edgeSeen => Sys2Proof.Machine.execRefSwitch t edgeSeen s
  | .pll0Holdover t => Sys2Proof.Machine.execPll0Holdover t s
  | .pll0Relock t => Sys2Proof.Machine.execPll0Relock t s
  | .clockLossStop t => Sys2Proof.Machine.execClockLossStop t s
  | .divRampStep t d => Sys2Proof.Machine.execDivRampStep t d s
  | .clkGateOpen r gate => Sys2Proof.Machine.execClkGateOpen r gate s
  | .clkGateClose r gate => Sys2Proof.Machine.execClkGateClose r gate s
  | .clkGateCloseIdle t => Sys2Proof.Machine.execClkGateCloseIdle t s
  | .clkGateCloseTimeout t => Sys2Proof.Machine.execClkGateCloseTimeout t s
  | .powerSample t feedA feedB supply bank vcore tj => Sys2Proof.Machine.execPowerSample t feedA feedB supply bank vcore tj s
  | .holdupEntry t => Sys2Proof.Machine.execHoldupEntry t s
  | .rideThroughStop t => Sys2Proof.Machine.execRideThroughStop t s
  | .supplyReturn t => Sys2Proof.Machine.execSupplyReturn t s
  | .backupEntry t => Sys2Proof.Machine.execBackupEntry t s
  | .rtcSecond t => Sys2Proof.Machine.execRtcSecond t s
  | .rtcSet r value => Sys2Proof.Machine.execRtcSet r value s
  | .rtcAlarmWrite r a value => Sys2Proof.Machine.execRtcAlarmWrite r a value s
  | .rtcSupplySwitch supply cell => Sys2Proof.Machine.execRtcSupplySwitch supply cell s
  | .cellExhausted cell supply => Sys2Proof.Machine.execCellExhausted cell supply s
  | .ophoursFlush t => Sys2Proof.Machine.execOphoursFlush t s
  | .cellMeasure t millivolt => Sys2Proof.Machine.execCellMeasure t millivolt s
  | .recorderUpdate t => Sys2Proof.Machine.execRecorderUpdate t s
  | .recFeed r value => Sys2Proof.Machine.execRecFeed r value s
  | .recorderFlush t => Sys2Proof.Machine.execRecorderFlush t s
  | .recorderArchiveHourly t ok => Sys2Proof.Machine.execRecorderArchiveHourly t ok s
  | .recFlushCmd r => Sys2Proof.Machine.execRecFlushCmd r s
  | .recArchiveCmd r => Sys2Proof.Machine.execRecArchiveCmd r s
  | .recClearCmd r => Sys2Proof.Machine.execRecClearCmd r s
  | .artEpochDrained t => Sys2Proof.Machine.execArtEpochDrained t s
  | .seal r => Sys2Proof.Machine.execSeal r s
  | .rma r => Sys2Proof.Machine.execRma r s
  | .keyRevoke r slot value => Sys2Proof.Machine.execKeyRevoke r slot value s
  | .dbgOpen t => Sys2Proof.Machine.execDbgOpen t s
  | .dbgClose t => Sys2Proof.Machine.execDbgClose t s
  | .dbgResponse t value => Sys2Proof.Machine.execDbgResponse t value s
  | .dbgVerifyDone t => Sys2Proof.Machine.execDbgVerifyDone t s
  | .dbgNonceTimeout t => Sys2Proof.Machine.execDbgNonceTimeout t s
  | .dbgLockExpiry t => Sys2Proof.Machine.execDbgLockExpiry t s
  | .freeze t => Sys2Proof.Machine.execFreeze t s
  | .thaw t => Sys2Proof.Machine.execThaw t s
  | .haltMc0 t => Sys2Proof.Machine.execHaltMc0 t s
  | .haltMc1 t => Sys2Proof.Machine.execHaltMc1 t s
  | .resumeMc0 t => Sys2Proof.Machine.execResumeMc0 t s
  | .resumeMc1 t => Sys2Proof.Machine.execResumeMc1 t s
  | .dacc t dr => Sys2Proof.Machine.execDacc t dr s
  | .idcode t => Sys2Proof.Machine.execIdcode t s
  | .bypass t tdi => Sys2Proof.Machine.execBypass t tdi s
  | .samplePreload t pins shifted => Sys2Proof.Machine.execSamplePreload t pins shifted s
  | .extest t shifted => Sys2Proof.Machine.execExtest t shifted s
  | .intest t shifted => Sys2Proof.Machine.execIntest t shifted s
  | .svcOpen t d => Sys2Proof.Machine.execSvcOpen t d s
  | .svcProve t d => Sys2Proof.Machine.execSvcProve t d s
  | .svcClose t d => Sys2Proof.Machine.execSvcClose t d s
  | .svcRead t d => Sys2Proof.Machine.execSvcRead t d s
  | .svcWrite t d => Sys2Proof.Machine.execSvcWrite t d s
  | .svcSnapshot t d => Sys2Proof.Machine.execSvcSnapshot t d s
  | .svcUpdPut t d => Sys2Proof.Machine.execSvcUpdPut t d s
  | .svcArpRequest t target asker => Sys2Proof.Machine.execSvcArpRequest t target asker s
  | .svcIcmpEcho t ip data => Sys2Proof.Machine.execSvcIcmpEcho t ip data s
  | .svcSessionTimeout t => Sys2Proof.Machine.execSvcSessionTimeout t s
  | .svcProveLockExpiry t => Sys2Proof.Machine.execSvcProveLockExpiry t s
  | .download r image => Sys2Proof.Machine.execDownload r image s
  | .updVerify r => Sys2Proof.Machine.execUpdVerify r s
  | .updVerifyDone t archiveOk => Sys2Proof.Machine.execUpdVerifyDone t archiveOk s
  | .activate r => Sys2Proof.Machine.execActivate r s
  | .confirm r => Sys2Proof.Machine.execConfirm r s
  | .abandon r => Sys2Proof.Machine.execAbandon r s
  | .updFallback t => Sys2Proof.Machine.execUpdFallback t s
  | .scarab r mask => Sys2Proof.Machine.execScarab r mask s
  | .scarabTestDone t failed detail us => Sys2Proof.Machine.execScarabTestDone t failed detail us s
  | .abort r => Sys2Proof.Machine.execAbort r s
  | .refLockRegained t laneB => Sys2Proof.Machine.execRefLockRegained t laneB s
  | .fegerPortLinkChange t port up => Sys2Proof.Machine.execFegerPortLinkChange t port up s
  | .tetherPcsLockLoss t lane => Sys2Proof.Machine.execTetherPcsLockLoss t lane s
  | .sfpPresenceChange t lane present los => Sys2Proof.Machine.execSfpPresenceChange t lane present los s
  | .svcPortLinkChange t up => Sys2Proof.Machine.execSvcPortLinkChange t up s
  | .linkLocalAddressAnnounced t conflict => Sys2Proof.Machine.execLinkLocalAddressAnnounced t conflict s
  | .recorderFlushDone t ok => Sys2Proof.Machine.execRecorderFlushDone t ok s
  | .archivePatrolRead t relocated spare maxErase meanErase bad => Sys2Proof.Machine.execArchivePatrolRead t relocated spare maxErase meanErase bad s
  | .ballastPatrolRead t => Sys2Proof.Machine.execBallastPatrolRead t s
  | .supplyLow t millivolt => Sys2Proof.Machine.execSupplyLow t millivolt s

end Sys2Proof.Machine
end

