-- ==== Sys2Proof/Safety.lean ====
section
/-!
DEFINITION. What holds of the module after every command: output stages as R349 and Table 3.3 say, the counts and live flags of Table 14.4
only where it judges them, PAR_OFF as R358 says, boundary scan as Table 17.6 says, queue frames waiting on a CAN channel only while it may
send (R330), and an exchange PENDING only with its transaction (R217).
-/
namespace Sys2Proof.Machine

/-- Every DO stage drives what R349 says: the commanded value or a pulse, unless a cause holds the channel off. -/
abbrev stagesFollow (s : State) : Prop := ∀ c : Fin 32, s.io.dout[c].stage = doDrive s c

/-- A DO_PULSE runs only on a channel that nothing holds off (R317, R349). -/
abbrev pulsesHold (s : State) : Prop := ∀ c : Fin 32, doHeldOff s c = true → s.io.dout[c].pulseEnd = none

/-- In a module state without local outputs (Table 3.3) no DO stage drives, but for the one OR after a handover or `STOP`. -/
abbrev outputsOffHold (s : State) : Prop := s.mode.outputsOff = true → s.untilOr = false → ∀ c : Fin 32, s.io.dout[c].stage = false

/-- What Table 14.4 counts only in one position of the stage is not counted in the other. -/
abbrev countsHold (s : State) : Prop := ∀ c : Fin 32,
  (s.io.dout[c].stage = true → s.io.dout[c].rbOnSince = none) ∧
  (s.io.dout[c].stage = false → s.io.dout[c].okSince = none ∧ s.io.dout[c].coolSince = none ∧ s.io.dout[c].lowSince = none ∧
    (lowSide s c = false → s.io.dout[c].limSince = none))

/-- OPEN_WIRE and EXT_DRIVE are live only where R348 and Table 14.4 judge them. -/
abbrev liveFlagsHold (s : State) : Prop := ∀ c : Fin 32,
  (s.io.dout[c].openWire = true → extJudged s c = true ∧ s.io.dout[c].stage = true ∧
    flag s (Reg.DIO_CH_CFG (32 + c)) Reg.DIO_CH_CFG_ow_en = true) ∧
  (s.io.dout[c].extDrive = true → extJudged s c = true ∧ s.io.dout[c].stage = false)

/-- The live PAR_OFF of every AO unit is what R358 says. -/
abbrev parOffHold (s : State) : Prop := ∀ u : Fin 8, s.io.ao[u].parOff = aoParOff s u

/-- The pins are driven from the boundary-scan cells only in MAIN, in SERVICE, with debug OPENED (Table 17.6). -/
abbrev scanHold (s : State) : Prop := s.dbg.driven.isSome = true → scanAllowed s = true

/-- A queue frame waits in a buffer of a CAN channel only while the channel may send queue frames (R326, R330). -/
abbrev canHold (s : State) : Prop := ∀ (u : Fin 16) (b : Fin 32), (s.can[u].txb[b]).waits = true → canQueueOk s u = true

/-- In monitoring mode a channel has its error counters at 0 and is in no state that they alone give (R326). -/
abbrev quietHold (s : State) : Prop := ∀ u : Fin 16, canMonitor s u = true →
  getR s (Reg.CAN_ERRCNT u) = 0 ∧ s.can[u].st ≠ .errorPassive ∧ s.can[u].st ≠ .busOff ∧ s.can[u].st ≠ .recovering

/-- An exchange is PENDING only while a master's transaction with a delta is. -/
abbrev xchHold (s : State) : Prop :=
  s.xch.st = .pending → ∃ m ∈ masters, (s.txn.get m).st = .pending ∧ (s.txn.get m).image = true ∧ (s.txn.get m).delta = true

/-- The invariant of the module. -/
structure Inv (s : State) : Prop where
  stages : stagesFollow s
  pulses : pulsesHold s
  off : outputsOffHold s
  counts : countsHold s
  live : liveFlagsHold s
  parOff : parOffHold s
  scan : scanHold s
  can : canHold s
  quiet : quietHold s
  xch : xchHold s

/-! ### Terms of the statements -/

/-- Commands that act while the module is held in reset or has no power: power and reset, the rack's clocks, the supplies, the RTC domain
(R369, R380, R382, R390). -/
def actsAlways : Instr → Bool
  | .powerUp _ _ _ => true | .rackReset _ _ => true
  | .judgeWindowEnd _ _ _ => true | .refFastLoss _ _ => true | .refLockRegained _ _ => true | .refSwitch _ _ => true
  | .pll0Holdover _ => true | .pll0Relock _ => true | .clockLossStop _ => true
  | .rtcSecond _ => true | .rtcSupplySwitch _ _ => true | .cellExhausted _ _ => true | .cellMeasure _ _ => true
  | .powerSample .. => true | .supplyReturn _ => true | .rideThroughStop _ => true | .backupEntry _ => true
  | _ => false

/-- The state in which a command at the raw counter value `t` finds the module. -/
def entry (t : Nat) (s : State) : State := tick t { s with pending := [] }

/-- The Access Rule Table, the debug matrix and the clock gates let an access of the request's master to a register through (R3, R376, R403,
Table 17.6), and the module runs. -/
structure Granted (r : Req) (k : AccKind) (a : Nat) (s : State) : Prop where
  runs : s.held = false
  allowed : (artCheck r.m r.p k a 4 s).2 = none
  clock : regClocked s a = true

/-- Every register but those at the listed keys reads in `t` as in `s`. -/
def RegsBut (l : List Nat) (s t : State) : Prop := ∀ a, a ∉ l → getR t a = getR s a

/-- Every register outside the listed blocks (bits 31:16 of its address, Table 1.12) reads in `t` as in `s`. -/
def RegsOut (l : List Nat) (s t : State) : Prop := ∀ a, a % 2 ^ 32 / 0x10000 ∉ l → getR t a = getR s a

/-- The state with nothing done but a granted write of the request answered. -/
def written (r : Req) (s : State) : State :=
  { s with time := (entry r.t s).time, hiCap := (dropCaptures r.m s).hiCap, resp := .done }

/-- The status word of a command register: the command, the module state in which it ended, its status (R79). -/
def outcome (cmd : Nat) (m : Mode) (status : Nat) : Word :=
  Reg.SYS_CMD_STATUS_cmd.mk' cmd ||| Reg.SYS_CMD_STATUS_state.mk' m.code ||| Reg.SYS_CMD_STATUS_status.mk' status

/-- A queue's engine may write `n` bytes from a Store offset on: no rule refuses it, and no container under verification lies there (R48, R408). -/
structure Writable (s : State) (q : Fin 128) (a n : Nat) : Prop where
  rule : unitRefused s (qEng q).2 .write a n = false
  free : storeLocked s a n = false

/-- A queue's engine may complete the descriptor at `a`. -/
structure Completable (s : State) (q : Fin 128) (a : Nat) : Prop where
  word : Writable s q (a + 12) 4
  own : Writable s q (a + 7) 1

/-- The ART allows the recorder an access to `n` bytes of its region from `a` on. -/
def RecMay (s : State) (k : AccKind) (a n : Nat) : Prop := ∀ p ∈ linesOf a n, unitRefused s 10 k p.1 p.2 = false

/-- The recorder may read and write a place of its region, and no word of it holds an ECC error. -/
structure Sound (s : State) (a n : Nat) : Prop where
  read : unitRefused s 10 .read a n = false
  write : unitRefused s 10 .write a n = false
  ecc : ∀ i ∈ List.range ((a + n + 7) / 8 - a / 8), s.ecc.get (a / 8 + i) = 0

/-- The receive windows' status registers. -/
def rxwRegs : List Nat := (List.range 16).map Reg.CAN_RX_STATUS

/-- The reset of a master has released its locks on receive windows, with lock_timeout set, and no other lock (R334). -/
def LocksOff (m : Master) (s t : State) : Prop := ∀ u : Fin 16,
  let mine := s.can[u].lock.any fun l => decide (l.1 = m)
  t.can[u] = (if mine then { s.can[u] with lock := none } else s.can[u]) ∧
  getR t (Reg.CAN_RX_STATUS u) = getR s (Reg.CAN_RX_STATUS u) ||| Reg.CAN_RX_STATUS_lock_timeout.mk' (b2n mine)

/-- A receive queue (Table 1.7). -/
def isRxQueue (q : Fin 128) : Prop :=
  (12 ≤ q.val ∧ q.val < 24) ∨ (40 ≤ q.val ∧ q.val < 56) ∨ q.val = 58 ∨ q.val = 59 ∨ q.val = 63 ∨ 64 ≤ q.val

/-- The receive timestamp that follows a frame of a Feger port (R306). -/
def rxTrailer (s : State) (q : Fin 128) (frame : List Byte) : List Byte :=
  if 12 ≤ q.val ∧ q.val < 24 then leBytes 8 (unsgn 64 (firstByte s (q.val - 12) frame.length)) else []

/-- A transmit queue without a schedule of its own: the Tether lanes, X40, and the software queues (Table 1.7). -/
def isPlainQueue (q : Fin 128) : Prop := q.val = 56 ∨ q.val = 57 ∨ q.val = 62 ∨ 64 ≤ q.val

/-- The entries of a queue with the one being delivered from `a` marked. -/
def marked (a : Nat) (poisoned : Bool) (l : List Fly) : List Fly :=
  l.map fun e => if e.takenAt = some a ∧ e.outcome = none then { e with poisoned := poisoned } else e

/-- A good Tether frame of the module's partner (R244, R250). -/
structure Heard (ok : Bool) (frame : List Byte) (f : TFrm) (s : State) : Prop where
  good : parseTether ok frame = some f
  pair : f.pairId = (getR s Reg.RED_PAIR_ID).toNat
  other : f.sender ≠ ownId s
  fw : s.red.partner.fwOk = true

/-- A good Feger frame on a ring port whose link is up (R279, Table 11.10). -/
structure OnRing (p : Fin 12) (ok : Bool) (frame : List Byte) (f : Frm) (s : State) : Prop where
  port : ringPort s p = true
  link : portLink s p = true
  good : parseFgr s ok frame = .good f

end Sys2Proof.Machine
end

