-- ==== Sys2Proof/WellFormed.lean ====
section
/-!
DEFINITION. Which commands the outside world can form: the checks on operands that their types do not make.
-/
namespace Sys2Proof

/-- Only a core carries a privilege (R402): another master's request is written with M. -/
def Req.wf (r : Req) : Bool :=
  match r.m with
  | .mc0 | .mc1 => true
  | .service | .debug | .tether => r.p == .machine

/-- The widths of an access. -/
def widthOk (n : Nat) : Bool := n == 1 || n == 2 || n == 4 || n == 8

/-- An Ethernet frame without its FCS: addresses and EtherType, and at most what a descriptor's length field holds. -/
def frameOk (l : List Byte) : Bool := decide (14 ≤ l.length) && decide (l.length ≤ 16383)

/-- The payload lengths of a DLC (ISO 11898-1). -/
def dlcLen (fdf : Bool) (dlc : BitVec 4) : Nat :=
  let n := dlc.toNat
  if n ≤ 8 then n
  else if !fdf then 8
  else if n = 9 then 12 else if n = 10 then 16 else if n = 11 then 20 else if n = 12 then 24
  else if n = 13 then 32 else if n = 14 then 48 else 64

/-- A CAN frame: an 11-bit identifier without ide, no remote frame and no bit-rate switch outside its format, and the payload that the DLC
gives. -/
def CanFrame.wf (f : CanFrame) : Bool :=
  (f.ide || decide (f.id.toNat < 2048)) && !(f.rtr && f.fdf) && !(f.brs && !f.fdf) && !(f.esi && !f.fdf) &&
  f.data.length == (if f.rtr then 0 else dlcLen f.fdf f.dlc)

/-- A UDP payload fits one IPv4 packet. -/
def Datagram.wf (d : Datagram) : Bool := decide (d.payload.length ≤ 65507)

/-- An upset names a block, chain or axis. -/
def Upset.wf (u : Upset) : Bool := decide (u.ref < 65536)

/-- The commands that can be formed. -/
def Instr.wf : Instr → Bool
  | .registerWrite r _ n _ => r.wf && widthOk n.bytes && (!n.atomic || ((r.m == .mc0 || r.m == .mc1) && (n.bytes == 4 || n.bytes == 8)))
  | .registerReadClear r _ n => r.wf && widthOk n.bytes && (!n.fetch || r.m == .mc0 || r.m == .mc1)
  | .loHiCaptureRead r a => r.wf && a % 4 == 0
  | .rxFrameReceive _ _ _ f => frameOk f
  | .ctuStagingWrite r a _ => r.wf && a % 4 == 0
  | .bcastAliasWrite r a _ => r.wf && a % 4 == 0
  | .bcastAliasRead r a => r.wf && a % 4 == 0
  | .waveEvaluate _ _ l => l.all Upset.wf
  | .compareTimeout _ _ _ w => decide (w.ref < 65536)
  | .stepSequencerRun _ _ l => l.all Upset.wf
  | .lseUpdate _ _ l => l.all Upset.wf
  | .cricketReceive _ _ _ f => frameOk f
  | .ckptDataReceive _ _ _ f => frameOk f
  | .ckptEndReceive _ _ _ f => frameOk f
  | .ckptAckReceive _ _ _ f => frameOk f
  | .resyncReqReceive _ _ _ f => frameOk f
  | .imageFrameReceive _ _ _ f => frameOk f
  | .releaseReceive _ _ _ _ f => frameOk f
  | .claimReceive _ _ _ _ f => frameOk f
  | .handoverFrameReceive _ _ _ f => frameOk f
  | .ringFrameForward _ _ _ f => frameOk f
  | .uplinkReceive _ _ _ f => frameOk f
  | .downlinkReceive _ _ _ f => frameOk f
  | .ringCricketReceive _ _ _ f => frameOk f
  | .paramDiagReceive _ _ _ f => frameOk f
  | .ptpFrameReceive _ _ _ f _ => frameOk f
  | .canFrameReceive _ _ _ f => f.wf
  | .samplePreload _ p l => p.length == l.length
  | .svcOpen _ d => d.wf
  | .svcProve _ d => d.wf
  | .svcClose _ d => d.wf
  | .svcRead _ d => d.wf
  | .svcWrite _ d => d.wf
  | .svcSnapshot _ d => d.wf
  | .svcUpdPut _ d => d.wf
  | .svcIcmpEcho _ _ l => decide (l.length ≤ 65507)
  | .queTailWrite r _ _ | .ctuBegin r | .ctuVerify r | .ctuCommit r _ | .ctuRollback r | .engInject r _ | .sysStart r | .sysStop r | .sysSafe r
  | .sysService r | .sysHandover r | .xchConfirm r | .xchRevert r | .laneSplit r | .laneLock r | .laneInject r _ | .timeRateChange r _
  | .timeStep r _ | .timeCtrlWrite r _ | .txtsPop r _ | .captureSnap r _ _ | .canCancel r _ _ | .canRecover r _ _ | .canRxwLockRead r _
  | .canRxwReleaseRead r _ | .dioGrpAck r _ _ | .clkGateOpen r _ | .clkGateClose r _ | .rtcSet r _ | .rtcAlarmWrite r _ _ | .recFeed r _
  | .recFlushCmd r | .recArchiveCmd r | .recClearCmd r | .seal r | .rma r | .keyRevoke r _ _ | .download r _ | .updVerify r | .activate r
  | .confirm r | .abandon r | .scarab r _ | .abort r => r.wf
  | .powerUp _ _ _ | .rackReset _ _ | .fwRestart _ | .bootDone _ _ | .scrubLine _ _ | .queueFrameSend _ _ | .descriptorComplete _ _
  | .bWaitExpiry _ _ | .loaderVerifyDone _ | .ctuBoundaryApply _ | .ctuIdleTimeout _ | .cycleStart _ | .cycleComplete _ _ | .outputCommit _ _
  | .outputRelease _ | .retainWriteComplete _ | .exchangeSwitch _ _ | .revertSwitch _ _ | .exchangeArchiveDone _ _ | .laneModeHandover _
  | .tetherCricketSend _ | .ringCricketSend _ _ | .tetherLaneTimeout _ _ | .ckptFrameSend _ | .ckptMissingTimeout _ | .ckptAbort _ | .lagTimeout _
  | .standbyIntervalEnd _ | .claimBySilence _ | .claim _ | .isolation _ | .ringHandoverTrigger _ | .startListenEnd _ | .handoverPropose _
  | .handoverGoDeadline _ | .holdoffExpiry _ | .downlinkSend _ _ _ | .identifyRepeat _ | .captureEvent _ _ | .captureWindowClose _ _
  | .triggerFire _ _ | .doPulseEnd _ _ | .canWindowOpen _ _ _ _ | .canMissedWindow _ _ _ | .canQueueFrameStart _ _ | .canFrameEnd _ _ _ _ _
  | .canReferenceSend _ _ | .canBusError _ _ _ _ _ | .canRecoveryDone _ _ | .canRxwLockTimeout _ _ | .diCrossing _ _ _ | .diFilterAccept _ _
  | .doDiagSample _ _ _ _ _ _ | .overload _ _ | .overtemp _ _ | .doOffPeriodEnd _ _ _ | .openWire _ _ | .extDrive _ _ | .groupOvl _ _
  | .groupOvlEnd _ _ | .supplySample _ _ _ | .sag _ _ | .undervolt _ _ | .supplyRestore _ _ | .aoReadSample _ _ _ _ _ _ | .compl _ _
  | .openLoop _ _ | .thermal _ _ | .aiConversionDone _ _ _ | .shuntOpen _ _ | .shuntTest _ _ _ | .isolatorPowerLoss _ _ | .judgeWindowEnd _ _ _
  | .refFastLoss _ _ | .refSwitch _ _ | .pll0Holdover _ | .pll0Relock _ | .clockLossStop _ | .divRampStep _ _ | .clkGateCloseIdle _
  | .clkGateCloseTimeout _ | .powerSample _ _ _ _ _ _ _ | .holdupEntry _ | .rideThroughStop _ | .supplyReturn _ | .backupEntry _ | .rtcSecond _
  | .rtcSupplySwitch _ _ | .cellExhausted _ _ | .ophoursFlush _ | .cellMeasure _ _ | .recorderUpdate _ | .recorderFlush _
  | .recorderArchiveHourly _ _ | .artEpochDrained _ | .dbgOpen _ | .dbgClose _ | .dbgResponse _ _ | .dbgVerifyDone _ | .dbgNonceTimeout _
  | .dbgLockExpiry _ | .freeze _ | .thaw _ | .haltMc0 _ | .haltMc1 _ | .resumeMc0 _ | .resumeMc1 _ | .dacc _ _ | .idcode _ | .bypass _ _
  | .extest _ _ | .intest _ _ | .svcArpRequest _ _ _ | .svcSessionTimeout _ | .svcProveLockExpiry _ | .updVerifyDone _ _ | .updFallback _
  | .scarabTestDone _ _ _ _ | .refLockRegained _ _ | .fegerPortLinkChange _ _ _ | .tetherPcsLockLoss _ _ | .sfpPresenceChange _ _ _ _
  | .svcPortLinkChange _ _ | .linkLocalAddressAnnounced _ _ | .recorderFlushDone _ _ | .archivePatrolRead _ _ _ _ _ _ | .ballastPatrolRead _
  | .supplyLow _ _ => true

end Sys2Proof
end

