-- ==== Sys2Proof/Certificates/Slice0/Obligations.lean ====
section
/-!
DEFINITION. The statements for the provers.
-/
open Sys2Proof Sys2Proof.Machine

/-! ### The block: its queue, its commands, its invariant -/

/-- A step takes the command at the front of the queue and carries it out on the state with the rest of the queue (95 What Each Step Holds). -/
def Obligations.StepRunsTheFrontCommand : Prop :=
  ∀ (c : Instr) (rest : List Instr) (s : State), s.pending = c :: rest → step s = exec c { s with pending := rest }

/-- With no command waiting the block idles (the model's choice, log entry 1) (95 What Each Step Holds). -/
def Obligations.EmptyQueueIdles : Prop :=
  ∀ s : State, s.pending = [] → step s = .next s

/-- No command changes the queue of waiting commands (95 What Each Step Holds). -/
def Obligations.CommandsLeaveTheQueue : Prop :=
  ∀ (c : Instr) (s t : State), exec c s = .next t → t.pending = s.pending

/-- Every command answers a next state; only a divider ramp step that passes an undefined clock ratio faults, as R373 leaves it no behaviour
(R373, 95 What Each Step Holds). -/
def Obligations.CommandsComplete : Prop :=
  ∀ (c : Instr) (s : State), (∃ t, exec c s = .next t) ∨
    ((∃ n d, c = .divRampStep n d) ∧ exec c s = .fault .clockRatioUndefined)

/-- A module held in reset is changed by power, clock and RTC commands only (R369, R380, R382). -/
def Obligations.HeldModuleTakesNoOtherCommand : Prop :=
  ∀ (c : Instr) (s : State), s.held = true → actsAlways c = false → exec c s = .next s

/-- The module's invariant holds at reset (R349, R358, Table 17.6, R217, R330). -/
def Obligations.InvariantHoldsAtReset : Prop :=
  Inv State.reset

/-- Every step keeps the module's invariant: outputs, diagnostics, CAN queues, boundary scan and the exchange stay as the rules say (R341,
R349, R353, R358, R326, R330, R217, Table 17.6, Table 3.3, Table 14.4). -/
def Obligations.EveryStepKeepsTheInvariant : Prop :=
  ∀ s t : State, Inv s → step s = .next t → Inv t

/-- After reset every register that the spec gives a reset value holds it, and the module is held in BOOT with nothing pending (R6, R382). -/
def Obligations.ResetValuesOfRegisters : Prop :=
  (∀ p ∈ [(Reg.SYS_ID, 0x08804101#32), (Reg.ENG_CTRL, 0x103#32), (Reg.CLK_DIV, 0x28030505#32), (Reg.PWR_CFG, 0x1F40#32),
      (Reg.RED_CFG, 0x10#32), (Reg.RED_HOLDOFF, 0x3C#32), (Reg.FGR_ETYPE, 0x88B5#32), (Reg.TIME_CTRL, 3#32), (Reg.TIME_INC_HI, 0x400#32),
      (Reg.UPD_CFG, 0xA#32), (Reg.QUE_POOL, 0x1800#32), (Reg.PWR_ALARM, 0#32), (Reg.RED_ALARM, 0#32), (Reg.SYS_CFG, 0#32)],
    getR State.reset p.1 = p.2) ∧
  (∀ i : Fin 16, getR State.reset (Reg.TIME_CAP_CFG i) = 0x3F ∧ getR State.reset (Reg.TTRG_CTL i) = 0x100) ∧
  (∀ i : Fin 128, getR State.reset (Reg.LSE_S_DEN i) = 1) ∧ (∀ i : Fin 256, getR State.reset (Reg.REC_H_WIDTH i) = 1) ∧
  (∀ (u : Fin 16) (b : Fin 32), getR State.reset (Reg.CAN_TXB_STAT u b) = 0x30000000) ∧
  State.reset.clk.gates = 0x00FFFF3F3FFF00FF#64 ∧ State.reset.held = true ∧ State.reset.mode = .boot ∧ State.reset.owner = false ∧
  State.reset.img = {} ∧ State.reset.pending = []

/-! ### Reset, boot and accesses -/

/-- POWER_UP and RACK_RESET reset the module, select the lane, and enter BOOT as soon as a lane is GOOD (R382, R225, R6, Table 15.5). -/
def Obligations.PowerUpAndRackResetEnterBoot : Prop :=
  ∀ (strap a b : Bool) (s : State),
    (∃ t, exec (.powerUp strap a b) s = .next t ∧ t.strap = strap ∧ t.held = !(a || b) ∧ t.mode = .boot ∧ t.cause = .powerUp ∧
      t.owner = false ∧ t.img = {} ∧ t.xch.st = .none ∧ t.txn = PerMaster.all {} ∧ t.svc.session = none ∧ t.sysPend = none ∧
      t.time.c = 0 ∧ t.art.fuse0 = s.art.fuse0 ∧ t.art.fuse1 = s.art.fuse1 ∧ (∀ k ∈ keyAddrs, getR t k = getR s k) ∧
      ((a || b) = true → t.clk.pll0 = true ∧ t.clk.pll1 = true ∧ t.clk.selB = !a ∧
        getF t Reg.PWR_RESET Reg.PWR_RESET_cause = s.bal.cause % 16)) ∧
    (∃ t, exec (.rackReset a b) s = .next t ∧ t.strap = s.strap ∧ t.held = !(a || b) ∧ t.mode = .boot ∧ t.cause = .powerUp ∧
      t.owner = false ∧ t.img = {} ∧ t.xch.st = .none ∧ t.txn = PerMaster.all {} ∧ t.svc.session = none ∧ t.sysPend = none ∧
      t.time.c = 0 ∧ t.art.fuse0 = s.art.fuse0 ∧ t.art.fuse1 = s.art.fuse1 ∧ (∀ k ∈ keyAddrs, getR t k = getR s k) ∧
      getF t Reg.PWR_RESET Reg.PWR_RESET_cause = 1 ∧
      ((a || b) = true → t.clk.pll0 = true ∧ t.clk.pll1 = true ∧ t.clk.selB = !a))

/-- FW_RESTART takes the module into BOOT from any state, and BOOT_DONE from BOOT into HOLD (R78, R439, R437, R436, R82, Table 3.4). -/
def Obligations.FirmwareRestartAndBootDone : Prop :=
  (∀ (n : Nat) (s : State), s.held = false → ∃ t, exec (.fwRestart n) s = .next t ∧ t.mode = .boot ∧ t.prev = s.mode ∧
    t.cause = .fwRestart ∧ t.owner = false ∧ t.img = {} ∧ t.xch.st = .none ∧ t.svc.session = none ∧ t.sysPend = none ∧
    (∀ k, (t.cls.get k).running = false) ∧ t.dbg.mc0 = false ∧ t.dbg.mc1 = false ∧ getF t Reg.PWR_RESET Reg.PWR_RESET_cause = 4) ∧
  (∀ (n : Nat) (ok : Bool) (i : Fin 4) (s : State), s.held = false → s.mode = .boot → fallbackDue s = false → (romBoot s).2 = some i →
    ∃ t, exec (.bootDone n ok) s = .next t ∧ t.upd.fwSlot = i ∧ t.upd.checksOk = ok ∧
      flag t Reg.SYS_CFG Reg.SYS_CFG_autostart = (bootRec (romBoot s).1).autostart ∧
      (∀ p : Fin 12, getF t (Reg.PTP_LAT_IN p) Reg.PTP_LAT_IN_value = Config.calibration 0 p % 2 ^ 16) ∧ t.prev = .boot ∧ t.cause = .bootDone ∧
      t.mode = .hold ∧ ((bootRec (romBoot s).1).autostart = false → t.red.listen = s.red.listen))

/-- An access of another width or alignment, or outside every register map, has no effect and completes with a bus error (R5). -/
def Obligations.AccessOfOtherWidthOrPlaceHasNoEffect : Prop :=
  ∀ (r : Req) (addr n : Nat) (v : BitVec 64) (atomic fetch : Bool) (s : State), Inv s → s.held = false → addr < 0x80000000 →
    (n ≠ 4 ∨ addr % 4 ≠ 0 ∨ (Reg.desc? addr = none ∧ aliasAt? addr = none ∧ inWin addr 0x08000000 0x01000000 = false ∧
      inWin addr 0x10000000 storeSize = false ∧ inWin addr 0x20000000 0x000A0000 = false ∧ inWin addr 0x30000000 0x00200000 = false)) →
    let t := { s with time := (entry r.t s).time, hiCap := (dropCaptures r.m s).hiCap, resp := .busError }
    exec (.registerWrite r addr ⟨n, atomic⟩ v) s = .next t ∧ exec (.registerReadClear r addr ⟨n, fetch⟩) s = .next t

/-- REGISTER_WRITE sets RW bits, clears W1C bits at a 1, and leaves RO and reserved bits (R3, R4, Table 0.4). -/
def Obligations.RegisterWriteFollowsTheAccessType : Prop :=
  ∀ (r : Req) (p : Fin 12) (c : Fin 32) (u : Fin 16) (g : Fin 4) (w : Fin 8) (q : Fin 128) (v : Word) (s : State),
    ∀ x ∈ [(Reg.PWR_CFG, 0x3FFF#32, 0#32), (Reg.PTP_LAT_IN p, 0xFFFF#32, 0#32), (Reg.DIO_CH_DELAY c, 0xFFFFF#32, 0#32),
        (Reg.CAN_RX_CFG u, 1#32, 0#32), (Reg.PWR_ALARM, 0#32, 0x3F#32), (Reg.CLK_REF_ALARM, 0#32, 0x1F#32), (Reg.RED_ALARM, 0#32, 0x1FFF#32),
        (Reg.CAN_ALARM u, 0#32, 0x7F#32), (Reg.DIO_CH_DIAG (32 + c), 0#32, 0xBF0#32), (Reg.DIO_GRP_ALARM g, 0#32, 7#32),
        (Reg.AO_DIAG w, 0#32, 0x2E#32), (Reg.AI_DIAG w, 0#32, 0xF#32), (Reg.QUE_STATUS q, 0#32, 0xF#32), (Reg.TTRG_STATUS u, 0#32, 7#32),
        (Reg.SYS_ID, 0#32, 0#32), (Reg.PWR_BANK, 0#32, 0#32)],
      Inv s → Granted r .write x.1 s →
      ∃ t, exec (.registerWrite r x.1 ⟨4, false⟩ (v.setWidth 64)) s = .next t ∧ t.resp = .done ∧
        getR t x.1 = ((getR s x.1 &&& ~~~x.2.1) ||| (v &&& x.2.1)) &&& ~~~(v &&& x.2.2) ∧ RegsBut [x.1] s t ∧
        t = { s with time := (entry r.t s).time, regs := t.regs, hiCap := (dropCaptures r.m s).hiCap, resp := .done }

/-- REGISTER_READ_CLEAR returns an RC register and then clears it, but not on the debug port while the engine is halted (R3, R6, Table 0.4). -/
def Obligations.RegisterReadReturnsThenClears : Prop :=
  ∀ (r : Req) (k : Fin 4) (i : Fin 16) (p : Fin 12) (q : Fin 128) (s : State),
    ∀ a ∈ [Reg.CLK_SWITCH_CNT, Reg.PWR_EVENTS, Reg.RED_EVENTS, Reg.LANE_CNT, Reg.ART_REFUSED, Reg.ENG_CLS_MAX k, Reg.ENG_CLS_OVR k,
        Reg.QUE_COUNT q, Reg.TTRG_COUNT i, Reg.FGR_P_RX p, Reg.FGR_P_FWD p],
      Inv s → Granted r .read a s → capture? s r.m a = none →
      ∃ t, exec (.registerReadClear r a ⟨4, false⟩) s = .next t ∧ t.resp = .data (getR s a) ∧
        getR t a = (if r.m = .debug ∧ (executing s = false ∨ s.dbg.frozen = true) then getR s a else 0) ∧ RegsBut [a] s t ∧
        t = { s with time := (entry r.t s).time, regs := t.regs, hiCap := (dropCaptures r.m s).hiCap, resp := t.resp }

/-- A read of TIME_NOW_LO captures TIME_NOW_HI, and the master's next read of TIME_NOW_HI returns the captured word (R145, R301). -/
def Obligations.LowReadCapturesTheHighWord : Prop :=
  ∀ (r r' : Req) (s : State), Inv s → r'.m = r.m → Granted r .read Reg.TIME_NOW_LO s → Granted r' .read Reg.TIME_NOW_HI s →
    capture? s r.m Reg.TIME_NOW_LO = none →
    ∃ t, exec (.loHiCaptureRead r Reg.TIME_NOW_LO) s = .next t ∧ t.resp = .data (BitVec.ofNat 32 (unsgn 64 (now (entry r.t s)))) ∧
      t = { s with time := (entry r.t s).time, hiCap := t.hiCap, resp := t.resp } ∧
      ∃ u, exec (.loHiCaptureRead r' Reg.TIME_NOW_HI) t = .next u ∧
        u.resp = .data (BitVec.ofNat 32 (unsgn 64 (now (entry r.t s)) / 2 ^ 32)) ∧ capture? u r.m Reg.TIME_NOW_HI = none ∧
        u = { t with time := (entry r'.t t).time, hiCap := (dropCaptures r.m t).hiCap, resp := u.resp }

/-! ### Configuration transactions and aliases -/

/-- CTU_STAGING_WRITE stages the value in the writer's open transaction; without one, or against another's lock, it is a bus error (R3, R46,
R47, R48). -/
def Obligations.StagingWriteActsOnTheTransactionOnly : Prop :=
  ∀ (r : Req) (q : Fin 128) (u : Fin 8) (i : Fin 16) (g : Fin 256) (v : Word) (s : State),
    ∀ x ∈ [(Reg.ENG_CTRL, 0x10F#32), (Reg.RED_HOLDOFF, 0x1FFFF#32), (Reg.CLK_DIV, 0xFF0F1F1F#32), (Reg.QUE_CFG q, 0xF1FFFF1#32),
        (Reg.AO_CFG u, 0x13#32), (Reg.TTRG_PERIOD i, 0xFFFFFFFF#32), (Reg.REC_H_BASE g, 0xFFFFFFFF#32)],
      Inv s → Granted r .write x.1 s →
      (stagingClosed s r.m = true → exec (.ctuStagingWrite r x.1 v) s =
        .next { s with time := (entry r.t s).time, hiCap := (dropCaptures r.m s).hiCap, resp := .busError }) ∧
      ((s.txn.get r.m).st = .opened → lockHolder s r.m x.1 = none → (s.txn.get r.m).staged.length < 4096 →
        ∃ t, exec (.ctuStagingWrite r x.1 v) s = .next t ∧ t.resp = .done ∧ (t.txn.get r.m).st = .opened ∧
          (∀ a, Tab.get? (t.txn.get r.m).staged a = if a = x.1 then some (v &&& x.2) else Tab.get? (s.txn.get r.m).staged a) ∧
          (∀ m, m ≠ r.m → t.txn.get m = s.txn.get m) ∧
          t = { s with time := (entry r.t s).time, txn := t.txn, hiCap := (dropCaptures r.m s).hiCap, resp := .done }) ∧
      (∀ holder, (s.txn.get r.m).st = .opened → lockHolder s r.m x.1 = some holder →
        ∃ t, exec (.ctuStagingWrite r x.1 v) s = .next t ∧ t.resp = .busError ∧ (t.txn.get r.m).conflict = true ∧
          (t.txn.get r.m).staged = (s.txn.get r.m).staged ∧ (∀ m, m ≠ r.m → t.txn.get m = s.txn.get m) ∧
          getR t (pm r.m Reg.CTU_CONFLICT) = (if (s.txn.get r.m).conflict then getR s (pm r.m Reg.CTU_CONFLICT)
            else Reg.CTU_CONFLICT_holder.mk' holder.code ||| Reg.CTU_CONFLICT_addr.mk' (x.1 / 4)) ∧
          RegsBut [pm r.m Reg.CTU_CONFLICT] s t)

/-- BEGIN opens, VERIFY starts the loader, COMMIT makes PENDING, ROLLBACK discards, each on the writer's transaction alone (R45, R49, R50,
R53, R443, Table 2.16). -/
def Obligations.TransactionCommands : Prop :=
  ∀ (r : Req) (boundary : BitVec 2) (s : State), Inv s → Granted r .write Reg.CTU_CMD s → s.mode ≠ .boot →
    let x := s.txn.get r.m
    let done := fun (i : Instr) (status : Nat) (P : Txn → Prop) => ∃ t, exec i s = .next t ∧ t.resp = .done ∧
      getF t (pm r.m Reg.CTU_STATUS) Reg.CTU_STATUS_cmd_status = status ∧ P (t.txn.get r.m) ∧ (∀ m, m ≠ r.m → t.txn.get m = s.txn.get m) ∧
      RegsBut [pm r.m Reg.CTU_STATUS] s t ∧
      t = { s with time := (entry r.t s).time, regs := t.regs, txn := t.txn, xch := t.xch, hiCap := (dropCaptures r.m s).hiCap, resp := .done }
    (x.st = .idle → done (.ctuBegin r) 0 fun y => y = { st := .opened, lastC := (entry r.t s).time.c }) ∧
    (x.st = .opened → x.named = true → verifyState s.mode (containerDelta s x) = true →
      done (.ctuVerify r) 0 fun y => y.st = .verifying ∧ y.staged = x.staged ∧ y.ran = true) ∧
    (x.st = .opened → x.image = false → x.cand = none → x.conflict = false → x.overflow = false → boundary.toNat ≠ 3 →
      commitFault r.m (dropCaptures r.m (entry r.t s)) = none →
      done (.ctuCommit r boundary) 0 fun y => y.st = .pending ∧ y.boundary = boundary.toNat ∧ y.latch = now (entry r.t s) ∧ y.staged = x.staged) ∧
    (x.st = .opened ∨ x.st = .verified ∨ x.st = .failed ∨ (x.st = .pending ∧ s.art.waiting.contains r.m = false ∧ latchPassed (entry r.t s) x = false) →
      done (.ctuRollback r) 0 fun y => y = {}) ∧
    (x.st = .pending → latchPassed (entry r.t s) x = true → done (.ctuRollback r) 7 fun y => y.st = .pending ∧ y.staged = x.staged)

/-- LOADER_VERIFY_DONE makes the verifying transaction VERIFIED with the image read, or FAILED, and reports the result; an image of the Tether goes
on to PENDING (R40, R41, R48, R244). -/
def Obligations.LoaderReportsAtTheEndOfAVerification : Prop :=
  ∀ (n : Nat) (m : Master) (s : State), Inv s → s.held = false → verifier s = some m →
    let x := s.txn.get m
    let v := loadVerify (entry n s) false (storeRd (entry n s) (txnRange s x).1) (txnRange s x).2
    ∃ t, exec (.loaderVerifyDone n) s = .next t ∧ (t.txn.get m).staged = x.staged ∧
      (v.image = none → (t.txn.get m).st = .failed ∧ (t.txn.get m).cand = x.cand) ∧
      (∀ g, v.image = some g → (t.txn.get m).cand = some g ∧ (t.txn.get m).delta = v.delta ∧
        (t.txn.get m).st = if m = .tether ∧ commitFault m t = none then .pending else .verified) ∧
      (m = .tether → (t.txn.get m).st = .pending → (t.txn.get m).latch = now (entry n s) ∧ (x.image = true → v.delta = true → t.xch.st = .pending)) ∧
      (∀ k, k ≠ m → t.txn.get k = s.txn.get k) ∧
      RegsBut [Reg.CTU_LOAD_RESULT, Reg.CTU_LOAD_INDEX, Reg.CTU_LOAD_DETAIL, Reg.CTU_LOAD_LIMIT, Reg.XCH_T_BOUND] s t ∧
      (m ≠ .tether → t = { s with time := (entry n s).time, regs := t.regs, txn := t.txn } ∧ getR t Reg.XCH_T_BOUND = getR s Reg.XCH_T_BOUND) ∧
      t = { s with time := (entry n s).time, regs := t.regs, txn := t.txn, xch := t.xch, red := t.red, out := t.out }

/-- CTU_BOUNDARY_APPLY applies every staged value, and the image, of the transaction whose boundary is now, counts it, and returns the transaction
to IDLE, or keeps it until a new rule epoch has drained; a transaction that R444 refuses by then is rolled back (R52, R50, R53, R54, R411). -/
def Obligations.CommitTakesEffectAtItsBoundary : Prop :=
  ∀ (n : Nat) (s : State), s.held = false → s.dbg.frozen = false →
    let e := entry n s
    (∀ m, masters.filter (boundaryNow e) = [m] →
      let x := s.txn.get m
      let ends := fun (t : State) => (∀ k, k ≠ m → t.txn.get k = s.txn.get k) ∧
        (artRules t = artRules s → (t.txn.get m).st = .idle ∧ getR t Reg.CTU_COMMITS = getR s Reg.CTU_COMMITS + 1) ∧
        (artRules t ≠ artRules s → t.art.draining = true ∧ m ∈ t.art.waiting ∧ t.txn.get m = x ∧ getR t Reg.CTU_COMMITS = getR s Reg.CTU_COMMITS)
      (x.cand = none → commitFault m e = none → (x.staged.map (·.1)).Nodup → ∃ t, exec (.ctuBoundaryApply n) s = .next t ∧ ends t ∧
        t.img = s.img ∧ t.mode = s.mode ∧ t.container = s.container ∧
        (∀ p ∈ x.staged, ¬(Reg.IMG_OVR_CTL 0 ≤ p.1 ∧ p.1 < Reg.IMG_OVR_CTL 256) →
          let mask := BitVec.ofNat 32 (((Reg.desc? p.1).map (·.rwt)).getD 0)
          mask ≠ 0 → getR t p.1 = (getR s p.1 &&& ~~~mask) ||| (p.2 &&& mask))) ∧
      (∀ g, x.cand = some g → commitFault m e = none → ∃ t, exec (.ctuBoundaryApply n) s = .next t ∧ ends t ∧
        t.img = g ∧ t.mode = s.mode ∧ t.container = ldBytes s.store (txnRange s x).1 (txnRange s x).2 ∧ t.xch.st = .none ∧ executing t = executing s) ∧
      (commitFault m e ≠ none → ∃ t, exec (.ctuBoundaryApply n) s = .next t ∧ t.txn.get m = { aborted := true } ∧
        (∀ k, k ≠ m → t.txn.get k = s.txn.get k) ∧ t.img = s.img ∧ t.regs = s.regs)) ∧
    (∃ t, exec (.ctuBoundaryApply n) s = .next t ∧ t.mode = s.mode ∧
      ∀ k ∈ masters, boundaryNow e k = false → t.txn.get k = s.txn.get k)

/-- CTU_IDLE_TIMEOUT rolls back exactly the transactions that have been OPEN, VERIFIED or FAILED for 5 s without their master (R54). -/
def Obligations.IdleTransactionsAreRolledBack : Prop :=
  ∀ (n : Nat) (s : State), Inv s → s.held = false → ∃ t, exec (.ctuIdleTimeout n) s = .next t ∧
    (∀ m, t.txn.get m =
      if ((s.txn.get m).st = .opened ∨ (s.txn.get m).st = .verified ∨ (s.txn.get m).st = .failed) ∧
          (s.txn.get m).lastC + 1250000000 ≤ (entry n s).time.c
      then { aborted := true } else s.txn.get m) ∧
    t = { s with time := (entry n s).time, txn := t.txn }

/-- A write through an alias acts in every selected member, or stages in all or none of them, and a read returns the lowest one and clears nothing;
BCAST_STATUS tells what was met (R55, R57, R58, Table 2.15). -/
def Obligations.AliasAccessReachesEverySelectedMember : Prop :=
  (∀ (r : Req) (grp : Bool) (v : Word) (s : State), Inv s → s.held = false → (∀ c : Fin 64, regClocked s (Reg.DIO_CH_DIAG c) = true) →
    let addr := if grp then 0x50E008 else 0x50F008
    let picked := (List.range 64).filter fun c => !grp ||
      (getR s (pm r.m (if c < 32 then Reg.BCAST_GMASK_DIO_LO else Reg.BCAST_GMASK_DIO_HI))).getLsbD (c % 32)
    let status := fun (mixed : Bool) => Reg.BCAST_STATUS_offset.mk' 8 ||| Reg.BCAST_STATUS_group.mk' (b2n grp) ||| Reg.BCAST_STATUS_block.mk' 1 |||
      Reg.BCAST_STATUS_empty.mk' (b2n picked.isEmpty) ||| Reg.BCAST_STATUS_mixed.mk' (b2n mixed)
    ((artCheck r.m r.p .write addr 4 s).2 = none → ∃ t, exec (.bcastAliasWrite r addr v) s = .next t ∧ t.resp = .done ∧
      (∀ c : Fin 64, getR t (Reg.DIO_CH_DIAG c) = if c.val ∈ picked then getR s (Reg.DIO_CH_DIAG c) &&& ~~~(v &&& 0xBF0) else getR s (Reg.DIO_CH_DIAG c)) ∧
      getR t (pm r.m Reg.BCAST_STATUS) = status false ∧
      RegsBut (pm r.m Reg.BCAST_STATUS :: (List.range 64).map Reg.DIO_CH_DIAG) s t) ∧
    ((artCheck r.m r.p .read addr 4 s).2 = none → capture? s r.m addr = none → ∃ t, exec (.bcastAliasRead r addr) s = .next t ∧
      t.resp = .data (match picked with
        | [] => 0
        | c :: _ => getR s (Reg.DIO_CH_DIAG c)) ∧
      getR t (pm r.m Reg.BCAST_STATUS) = status (picked.any fun c => getR s (Reg.DIO_CH_DIAG c) != getR s (Reg.DIO_CH_DIAG (picked.headD 0))) ∧
      RegsBut [pm r.m Reg.BCAST_STATUS] s t)) ∧
  (∀ (r : Req) (addr : Nat) (a : AliasAt) (v : Word) (s : State), Inv s → s.held = false → target? r.m addr 4 = some (.bcast a) →
    (∀ p ∈ a.hits s r.m, regClocked s p.1 = true) →
    let e := dropCaptures r.m (entry r.t s)
    let hits := a.hits s r.m
    let picked := if a.group then (List.range a.b.count).filter fun i => (getR s (pm r.m (a.b.masks.getD (i / 32) 0))).getLsbD (i % 32)
      else List.range a.b.count
    let status := fun (mixed : Bool) => Reg.BCAST_STATUS_offset.mk' a.x ||| Reg.BCAST_STATUS_group.mk' (b2n a.group) |||
      Reg.BCAST_STATUS_block.mk' a.b.code ||| Reg.BCAST_STATUS_empty.mk' (b2n picked.isEmpty) |||
      Reg.BCAST_STATUS_skipped.mk' (b2n (decide (hits.length < picked.length))) ||| Reg.BCAST_STATUS_mixed.mk' (b2n mixed)
    ((artCheck r.m r.p .read addr 4 s).2 = none → capture? s r.m addr = none → (∀ p ∈ hits, windowBarred s r.m p.1 = false) →
      ∃ t, exec (.bcastAliasRead r addr) s = .next t ∧
        t.resp = .data (match hits with
          | [] => 0
          | p :: _ => regValue e p.2 r.m p.1) ∧
        getR t (pm r.m Reg.BCAST_STATUS) =
          status ((hits.map fun p => regValue e p.2 r.m p.1).any fun w => w != (hits.map fun p => regValue e p.2 r.m p.1).headD 0) ∧
        RegsBut [pm r.m Reg.BCAST_STATUS] s t ∧ t = { written r s with regs := t.regs, resp := t.resp }) ∧
    ((artCheck r.m r.p .write addr 4 s).2 = none →
      (a.b.code ≠ 3 → (∀ p ∈ hits, p.2.rwt = 0) → ∃ t, exec (.bcastAliasWrite r addr v) s = .next t ∧ t.resp = .done ∧
        getR t (pm r.m Reg.BCAST_STATUS) = status false ∧ RegsBut (pm r.m Reg.BCAST_STATUS :: hits.map (·.1)) s t ∧
        ∀ p ∈ hits, let rw : Word := BitVec.ofNat 32 (p.2.rw ||| p.2.wo)
          getR t p.1 = ((((getR s p.1 &&& ~~~rw) ||| (v &&& rw)) &&& ~~~(v &&& BitVec.ofNat 32 p.2.w1c)) ||| (v &&& BitVec.ofNat 32 p.2.w1s))) ∧
      ((∀ p ∈ hits, p.2.rwt ≠ 0) → hits ≠ [] → (s.txn.get r.m).st = .opened → (∀ p ∈ hits, lockHolder s r.m p.1 = none) →
        (s.txn.get r.m).staged.length + hits.length ≤ 4096 → ∃ t, exec (.bcastAliasWrite r addr v) s = .next t ∧ t.resp = .done ∧
          getR t (pm r.m Reg.BCAST_STATUS) = status false ∧ RegsBut [pm r.m Reg.BCAST_STATUS] s t ∧
          (∀ p ∈ hits, Tab.get? (t.txn.get r.m).staged p.1 = some (v &&& BitVec.ofNat 32 p.2.rwt)) ∧
          (∀ b, b ∉ hits.map (·.1) → Tab.get? (t.txn.get r.m).staged b = Tab.get? (s.txn.get r.m).staged b) ∧
          (∀ m, m ≠ r.m → t.txn.get m = s.txn.get m) ∧ t = { written r s with regs := t.regs, txn := t.txn }) ∧
      (let u := aliasWrite a r.m v e
       ∃ t, exec (.bcastAliasWrite r addr v) s = .next t ∧ t.resp = (if u.2 then .done else .busError) ∧
         getR t (pm r.m Reg.BCAST_STATUS) = getR u.1 (pm r.m Reg.BCAST_STATUS) ∧ (∀ p ∈ hits, ¬(p.1 / 0x10000 = 0x40) → getR t p.1 = getR u.1 p.1) ∧
         t.txn = u.1.txn ∧ t.mode = s.mode ∧ t.img = s.img)))

/-! ### Central Store and queues -/

/-- SCRUB_LINE reads the next line of the Store, corrects its single-bit errors unless the line is being written, leaves double-bit errors, counts both,
and moves on (R10, R11). -/
def Obligations.ScrubberReadsOneLine : Prop :=
  ∀ (n : Nat) (written : Bool) (s : State), Inv s → s.held = false → unitRefused s 11 .read (32 * s.scrub) 32 = false →
    ∃ t, exec (.scrubLine n written) s = .next t ∧ t.scrub = (if s.scrub + 1 = 0x100000 then 0 else s.scrub + 1) ∧
      (∀ w, t.ecc.get w = if written = false ∧ 4 * s.scrub ≤ w ∧ w < 4 * s.scrub + 4 ∧ s.ecc.get w = 1 then 0 else s.ecc.get w) ∧
      getF t Reg.REC_SCRUB Reg.REC_SCRUB_store_passes =
        (getF s Reg.REC_SCRUB Reg.REC_SCRUB_store_passes + if s.scrub + 1 = 0x100000 then 1 else 0) % 2 ^ Reg.REC_SCRUB_store_passes.w ∧
      (let bad := fun (v : Nat) => ((List.range 4).filter fun i => (s.ecc.get (4 * s.scrub + i)).toNat == v).length
       getF t Reg.QUE_ECC_CNT Reg.QUE_ECC_CNT_corrected =
         min (getF s Reg.QUE_ECC_CNT Reg.QUE_ECC_CNT_corrected + bad 1) (2 ^ Reg.QUE_ECC_CNT_corrected.w - 1) ∧
       getF t Reg.QUE_ECC_CNT Reg.QUE_ECC_CNT_uncorrected =
         min (getF s Reg.QUE_ECC_CNT Reg.QUE_ECC_CNT_uncorrected + bad 2 + bad 3) (2 ^ Reg.QUE_ECC_CNT_uncorrected.w - 1)) ∧
      RegsBut [Reg.REC_SCRUB, Reg.QUE_ECC_CNT, Reg.QUE_ECC_ADDR] s t ∧
      (s.scrub + 1 ≠ 0x100000 → t.store = s.store) ∧
      t = { s with time := (entry n s).time, regs := t.regs, ecc := t.ecc, scrub := t.scrub, store := t.store }

/-- QUE_TAIL_WRITE posts descriptors and gives the buffers of received frames back to the pool; one that would exceed the ring size has no effect and
sets ring_ovf (R18, R20). -/
def Obligations.TailWritePostsDescriptors : Prop :=
  ∀ (r : Req) (q : Fin 128) (v : Word) (s : State), Inv s → Granted r .write (Reg.QUE_TAIL q) s →
    let tail := v.toNat % 65536
    let occ := (tail + 65536 - qHead s q) % 65536
    let occ0 := (qTail s q + 65536 - qHead s q) % 65536
    (qSize s q < occ → ∃ t, exec (.queTailWrite r q v) s = .next t ∧ t.resp = .done ∧ getR t (Reg.QUE_TAIL q) = getR s (Reg.QUE_TAIL q) ∧
      flag t (Reg.QUE_STATUS q) Reg.QUE_STATUS_ring_ovf = true ∧ t.que = s.que ∧ t.store = s.store ∧ RegsBut [Reg.QUE_STATUS q] s t) ∧
    (let back := (s.que[q].bufs.take (occ - occ0)).sum
     let pool := (getF s Reg.QUE_POOL Reg.QUE_POOL_free + back) % 2 ^ Reg.QUE_POOL_free.w
     occ ≤ qSize s q → occ0 < occ → occ ≤ qLimit s q + 1 → pool ≠ 0 → (∀ e ∈ s.que[q].fly, e.outcome = none) →
      ∃ t, exec (.queTailWrite r q v) s = .next t ∧ t.resp = .done ∧ qTail t q = tail ∧
        t.que[q].fly = s.que[q].fly ++ List.replicate (occ - occ0) { postC := (entry r.t s).time.c, outcome := none } ∧
        t.que[q].bufs = s.que[q].bufs.drop (occ - occ0) ∧ getF t Reg.QUE_POOL Reg.QUE_POOL_free = pool ∧
        (∀ p : Fin 128, p ≠ q → t.que[p] = s.que[p]) ∧ t.store = s.store ∧ RegsBut [Reg.QUE_TAIL q, Reg.QUE_POOL] s t)

/-- QUEUE_FRAME_SEND takes the next descriptor of a queue: its frame is being delivered, waits, or completes at once, as class, budget, slot, link
and enable say (R14, R16, R17, R20, R22, R330, Table 1.6, Table 1.7). -/
def Obligations.QueueEngineTakesTheNextDescriptor : Prop :=
  ∀ (n : Nat) (q : Fin 128) (s : State), Inv s → s.held = false →
    let e := entry n s
    let enabled := flag s (Reg.QUE_CFG q) Reg.QUE_CFG_enable
    let gives := fun (u : State) => exec (.queueFrameSend n q) s = .next { u with pending := s.pending }
    let others := fun (t : State) => (∀ p : Fin 128, p ≠ q → t.que[p] = s.que[p]) ∧ t.store = s.store
    (∀ (x : Fly) (l : List Fly), isPlainQueue q → s.que[q].fly = x :: l → x.takenAt = none → x.outcome = none → enabled = true →
      let a := descAddrOf s q (qHead s q)
      let d := readDesc s a
      plainUp s q = true → d.cls ≠ 3 → d.cls ≠ 0 → d.len ≠ 0 → (fetchDesc q a e).2 = false → (∀ f ∈ l, f.takenAt ≠ some a) →
      ∃ t, exec (.queueFrameSend n q) s = .next t ∧ qHead t q = (qHead s q + 1) % 65536 ∧
        (∃ p, t.que[q].fly = { x with takenAt := some a, poisoned := p } :: l) ∧ others t) ∧
    (∀ u a, isPlainQueue q → qTake q e = some (u, a) →
      let r := fetchDesc q a u
      let d := readDesc s a
      (r.2 = true → gives (qComplete q a 0 0 true r.1)) ∧
      (r.2 = false → (enabled = false ∨ d.cls = 3 ∨ plainUp s q = false) → gives (qComplete q a 3 0 false r.1)) ∧
      (r.2 = false → enabled = true → d.cls ≠ 3 → plainUp s q = true →
        (d.len = 0 → gives (qComplete q a 0 0 false r.1)) ∧
        (d.len ≠ 0 → d.cls = 0 → gives (qComplete q a 3 0 false r.1)) ∧
        (d.len ≠ 0 → d.cls ≠ 0 → ∃ t p, exec (.queueFrameSend n q) s = .next t ∧ qHead t q = qHead u q ∧
          t.que[q].fly = marked a p u.que[q].fly ∧ others t ∧
          t.out = (if q.val = 56 ∨ q.val = 57 then .tether (q.val - 56) (ldBytes s.store d.buf d.len) :: s.out
            else if q.val = 62 then .x40 (ldBytes s.store d.buf d.len) :: s.out else s.out)))) ∧
    (∀ p : Fin 12, q.val = p.val →
      (qPeek q e = none → gives (sendWaiting p e)) ∧
      (∀ a x, qPeek q e = some (a, x) →
        let r := fetchDesc q a e
        let d := readDesc s a
        let frame := ldBytes s.store d.buf d.len
        let starts := ∃ t y, exec (.queueFrameSend n q) s = .next t ∧ others t ∧
          (∀ u b, qTake q e = some (u, b) → qHead t q = qHead u q ∧ t.que[q].fly = marked b y u.que[q].fly) ∧
          (∀ z ∈ portsOf e p frame, ∃ bytes, OutMsg.port z bytes (!y) ∈ t.out ∧ (ptpAt s z frame = none → bytes = frame)) ∧
          (d.cls = 2 → t.que[q].bUsed = bUsedNow e q + d.len ∧ t.que[q].bPeriod = fastPeriod e)
        (r.2 = true → gives (endNext q 0 true r.1)) ∧ (r.2 = false → portRefused e p q d = true → gives (endNext q 3 false r.1)) ∧
        (r.2 = false → portRefused e p q d = false →
          (d.len = 0 → gives (endNext q 0 false r.1)) ∧
          (d.len ≠ 0 → d.cls = 0 →
            let posted := e.time.localAt x.postC
            (slotBegin e p d.slot posted = none → gives (endNext q 3 false r.1)) ∧
            (∀ b, slotBegin e p d.slot posted = some b → (b < posted → gives (endNext q 3 false r.1)) ∧
              (posted ≤ b → now e < b → gives (sendWaiting p r.1)) ∧ (posted ≤ b → b ≤ now e → starts))) ∧
          (d.len ≠ 0 → d.cls ≠ 0 → (waitingE e p).isSome = true → gives (sendWaiting p r.1)) ∧
          (d.len ≠ 0 → d.cls ≠ 0 → waitingE e p = none → portOver e p q d = true → gives (markWaiting q r.1)) ∧
          (d.len ≠ 0 → d.cls ≠ 0 → waitingE e p = none → portOver e p q d = false → (∀ z ∈ portsOf e p frame, fitsNow e z d.len = true) → starts) ∧
          (d.len ≠ 0 → d.cls ≠ 0 → waitingE e p = none → portOver e p q d = false → (∃ z ∈ portsOf e p frame, fitsNow e z d.len = false) →
            gives r.1)))) ∧
    (∀ u : Fin 16, q = canTxQ u →
      let serves := enabled = true ∧ canQueueOk s u = true ∧ canOnline s u = true
      let free := (List.finRange 32).find? fun (b : Fin 32) => s.can[u].txb[b].frame.isNone && getF s (Reg.CAN_TXB_STAT u b) Reg.CAN_TXB_STAT_owner == 0
      (∀ b v a, serves → free = some b → qTake q e = some (v, a) → (fetchDesc q a v).2 = false →
        let d := readDesc s a
        let f := readFrame s d.buf
        (d.cls = 1 ∨ d.cls = 2) → d.len ≠ 0 → (engineRead (qEng q).1 (qEng q).2 d.buf d.len (fetchDesc q a v).1).2 = false →
        validFrame (canMode s u) (ld s.store (d.buf + 5) 1) f = true →
        ∃ t, exec (.queueFrameSend n q) s = .next t ∧ t.can[u].txb[b] = { frame := some f, desc := some a, order := s.can[u].taken } ∧
          flag t (Reg.CAN_TXB_STAT u b) Reg.CAN_TXB_STAT_pend = true ∧ (∀ w, w ≠ u → t.can[w] = s.can[w]) ∧ t.out = s.out) ∧
      (serves → free = none → gives e) ∧
      (∀ x, ¬serves → s.que[q].fly = [x] → x.takenAt = none → x.outcome = none →
        let a := descAddrOf s q (qHead s q)
        ∀ v, qTake q e = some (v, a) → (fetchDesc q a v).2 = false → gives (qComplete q a 3 0 false (fetchDesc q a v).1))) ∧
    (¬isPlainQueue q → 12 ≤ q.val → ¬(24 ≤ q.val ∧ q.val < 40) →
      (enabled = true → gives e) ∧ (enabled = false → gives (refuseNext q e)))

/-- DESCRIPTOR_COMPLETE writes SENT or SENT_LATE with its ticks, B_WAIT_EXPIRY writes REFUSED_BUDGET for a frame still over budget, and own is
cleared (R17, R19, Table 1.6, Table 1.8). -/
def Obligations.DescriptorsCompleteWithTheirOutcome : Prop :=
  ∀ (n : Nat) (q : Fin 128) (s : State), Inv s → s.held = false →
    let now' := entry n s
    let c := now'.time.c
    (∀ (e : Fly) (l : List Fly), s.que[q].fly = e :: l → e.outcome = none → (∀ f ∈ l, f.outcome = none) →
      let ended := fun (i : Instr) (a word : Nat) (heads : Nat) => ∃ t, exec i s = .next t ∧ ld t.store (a + 12) 4 = word ∧
        (ld t.store (a + 7) 1).testBit 7 = false ∧ t.que[q].fly = l ∧ (∀ p : Fin 128, p ≠ q → t.que[p] = s.que[p]) ∧
        getF t (Reg.QUE_HEAD q) Reg.QUE_HEAD_done = (getF s (Reg.QUE_HEAD q) Reg.QUE_HEAD_done + 1) % 65536 ∧
        qHead t q = (qHead s q + heads) % 65536 ∧ ((readDesc s a).irq = true → t.irqQueue = true)
      (∀ a, e.takenAt = some a → Completable s q a → (∀ f ∈ l, f.takenAt ≠ some a) →
        let ticks := 4 * (c - e.postC) / 31250
        ended (.descriptorComplete n q) a ((if (readDesc s a).cls = 0 ∨ ticks = 0 then 0 else 1 + min 65535 ticks * 65536) +
          if e.poisoned then 4 else 0) 0) ∧
      (e.takenAt = none → q.val < 12 → Completable s q (descAddrOf s q (qHead s q)) → (∀ f ∈ l, f.takenAt ≠ some (descAddrOf s q (qHead s q))) →
        bWaited s q e (fastPeriod now') = true → portOver now' q q (readDesc s (descAddrOf s q (qHead s q))) = true →
        ended (.bWaitExpiry n q) (descAddrOf s q (qHead s q)) (3 + if e.poisoned then 4 else 0) 1)) ∧
    (qServing q s = none → exec (.descriptorComplete n q) s = .next (tick n s)) ∧
    (∀ e, qServing q s = some e →
      let a := e.takenAt.getD 0
      let ticks := 4 * (c - e.postC) / 31250
      let sent := (readDesc s a).cls = 0 ∨ ticks = 0
      exec (.descriptorComplete n q) s =
        .next { qComplete q a (if sent then 0 else 1) (if sent then 0 else ticks) e.poisoned now' with pending := s.pending }) ∧
    (q.val < 12 →
      (∀ a x, qPeek q s = some (a, x) →
        (bWaited s q x (fastPeriod now') = true → portOver now' q q (readDesc s a) = true →
          exec (.bWaitExpiry n q) s = .next { endNext q 3 false now' with pending := s.pending }) ∧
        ((bWaited s q x (fastPeriod now') = false ∨ portOver now' q q (readDesc s a) = false) → exec (.bWaitExpiry n q) s = .next (tick n s))) ∧
      (qPeek q s = none → exec (.bWaitExpiry n q) s = .next (tick n s))) ∧
    (∀ (u : Fin 16) (b : Fin 32) (a : Nat) (f : CanFrame), q = canTxQ u → s.can[u].txb[b].frame = some f → s.can[u].txb[b].desc = some a →
      s.can[u].txb[b].onBus = false → s.can[u].txb[b].later = none → canOver now' u a f = true →
      (s.que[q].fly.any fun e => e.takenAt == some a && e.outcome.isNone && bWaited s q e (fastPeriod now')) = true →
      (∀ d : Fin 32, d ≠ b → s.can[u].txb[d].desc ≠ some a) →
      ∃ t, exec (.bWaitExpiry n q) s = .next t ∧ t.can[u].txb[b].frame = none ∧ t.can[u].txb[b].desc = none ∧
        flag t (Reg.CAN_TXB_STAT u b) Reg.CAN_TXB_STAT_pend = false ∧ (∀ e ∈ t.que[q].fly, e.takenAt = some a → e.outcome ≠ none) ∧
        (∀ w, w ≠ u → t.can[w] = s.can[w]) ∧ (∀ p : Fin 128, p ≠ q → t.que[p] = s.que[p]) ∧ t.out = s.out) ∧
    (12 ≤ q.val → ¬(24 ≤ q.val ∧ q.val < 40) → exec (.bWaitExpiry n q) s = .next (tick n s))

/-- RX_FRAME_RECEIVE fills the next posted buffer, with a Feger port's timestamp after the frame, and completes it SENT, or drops and counts the frame
where none is posted, the queue is out of service or the pool is short (R18, R21, R306, Table 1.8). -/
def Obligations.ReceivedFrameFillsThePostedBuffer : Prop :=
  ∀ (n : Nat) (q : Fin 128) (classB : Bool) (frame : List Byte) (s : State), Inv s → s.held = false → isRxQueue q →
    let e := entry n s
    let ts := rxTrailer e q frame
    let need := max 1 ((frame.length + ts.length + 2047) / 2048)
    let pool := getF s Reg.QUE_POOL Reg.QUE_POOL_free
    let short := (classB = true ∧ pool < poolReserve s) ∨ pool < need ∨ flag s (Reg.QUE_CFG q) Reg.QUE_CFG_enable = false
    let tail := (frame.length + 7) / 8 * 8
    (short ∨ qTake q s = none → ∃ t, exec (.rxFrameReceive n q classB frame) s = .next t ∧
      flag t (Reg.QUE_STATUS q) Reg.QUE_STATUS_refused = true ∧ getF t (Reg.QUE_COUNT q) Reg.QUE_COUNT_refused_cnt =
        min (getF s (Reg.QUE_COUNT q) Reg.QUE_COUNT_refused_cnt + 1) (2 ^ Reg.QUE_COUNT_refused_cnt.w - 1) ∧
      RegsBut [Reg.QUE_STATUS q, Reg.QUE_COUNT q] s t ∧ t = { tick n s with regs := t.regs }) ∧
    (∀ x l, ¬short → s.que[q].fly = x :: l → x.takenAt = none → x.outcome = none → x.poisoned = false → (∀ f ∈ l, f.outcome = none) →
      let a := descAddrOf s q (qHead s q)
      let d := readDesc s a
      (fetchDesc q a e).2 = false → Writable s q d.buf frame.length → Writable s q (d.buf + tail) ts.length → Writable s q (a + 4) 4 →
      Completable s q a → (∀ f ∈ l, f.takenAt ≠ some a) → frame.length < 2 ^ 14 → (d.buf + tail + 8 ≤ a ∨ a + 16 ≤ d.buf) →
      ∃ t, exec (.rxFrameReceive n q classB frame) s = .next t ∧ ldBytes t.store d.buf frame.length = frame ∧
        ldBytes t.store (d.buf + tail) ts.length = ts ∧
        ld t.store (a + 4) 4 % 2 ^ 14 = frame.length ∧ ld t.store (a + 12) 4 = 0 ∧ (ld t.store (a + 7) 1).testBit 7 = false ∧
        getF t Reg.QUE_POOL Reg.QUE_POOL_free = pool - need ∧ t.que[q].bufs = s.que[q].bufs ++ [need] ∧
        t.que[q].fly = l ∧ (∀ p : Fin 128, p ≠ q → t.que[p] = s.que[p])) ∧
    (∀ u a, ¬short → qTake q e = some (u, a) →
      let v := fetchDesc q a (poolTake q need u)
      let d := readDesc s a
      let gives := fun (t : State) => exec (.rxFrameReceive n q classB frame) s = .next { t with pending := s.pending }
      (v.2 = true → gives (rxDrop q (qComplete q a 0 0 true v.1))) ∧
      (v.2 = false →
        let w := engineWrite q d.buf frame v.1
        let w := if ts = [] then w else engineWrite q (d.buf + tail) ts w
        gives (qComplete q a 0 0 false (engineWrite q (a + 4)
          (leBytes 4 (ld w.store (a + 4) 4 / 2 ^ 14 * 2 ^ 14 + frame.length % 2 ^ 14)) w))))

/-! ### Cycles, outputs, lanes -/

/-- CYCLE_START at a FAST T0 freezes the inputs and starts every class that is due, once, unless its last cycle still runs (R59, R60, R61,
R63, R64, R73). -/
def Obligations.CyclesStartAtTheirT0 : Prop :=
  ∀ (n : Nat) (s : State), Inv s → s.held = false → executing s = true →
    let e := entry n s
    let t0 := now e / (fastP s : Int) * (fastP s : Int)
    edgeAt e t0 = true → ((xchDue e t0 || laneDue e t0) && clsIdle s) = false → (∀ x, s.red.firstT0 = some x → x ≤ t0) →
    s.retain.startWaits = false →
    ∃ t, exec (.cycleStart n) s = .next t ∧
      (∀ k ∈ [Cls.fast, .mid, .slow],
        let c := s.cls.get k
        let due := s.img.hasCls k.code = true ∧ t0 % (max 1 (s.img.period k.code) : Nat) = 0 ∧ ∀ x, c.lastT0 = some x → x < t0
        (¬due → t.cls.get k = c) ∧ (due → c.running = true → t.cls.get k = { c with skipT0 := some t0 }) ∧
        (due → c.running = false → getR t (Reg.ENG_CLS_CYCLE k.code) = BitVec.ofNat 32 (cycleNo s k t0) ∧
          t.cls.get k = { c with
            lastT0 := some t0, snapT0 := some t0, prevT0 := c.snapT0, lastNo := some (cycleNo s k t0), elapsed := elapsedOf s k t0, running := true
            waves := (s.img.waves k.code).length, chainsDone := false, lseDone := false, complete := false, late := false
            injected := decide (0 < c.inject), inject := c.inject - 1 })) ∧
      (∀ c : Fin 32, t.io.di[c] = freezeDi s.io.di[c] t0) ∧ executing t = true ∧ t.img = s.img ∧ t.txn = s.txn ∧ t.lse = s.lse ∧
      t.store = s.store ∧ t.owner = s.owner ∧ t.io.dout = s.io.dout ∧ t.io.ao = s.io.ao ∧ RegsOut [0x00, 0x04, 0x10, 0x20, 0x71] s t

/-- WAVE_EVALUATE, STEP_SEQUENCER_RUN, LSE_UPDATE and CYCLE_COMPLETE take a running cycle to its end, one stage each (R65, R66, R91, R130,
R131, R168, R73). -/
def Obligations.CyclesEvaluateByWavesAndComplete : Prop :=
  ∀ (n : Nat) (k : Cls) (ups : List Upset) (ns : Word) (s : State), Inv s → s.held = false → engRuns s = true →
    (s.cls.get k).running = true →
    let e := entry n s
    let c := s.cls.get k
    let others := fun (t : State) => (∀ j, j ≠ k → t.cls.get j = s.cls.get j) ∧ t.img = s.img ∧ t.mode = s.mode ∧ t.io = s.io ∧ t.que = s.que ∧
      t.store = s.store ∧ t.prog.pub = s.prog.pub ∧ t.prog.cslots = s.prog.cslots ∧ t.cLse = s.cLse
    (0 < c.waves → aiPending s k = false → higherBusy s k = false →
      let w := (((s.img.waves k.code)[(s.img.waves k.code).length - c.waves]?).getD [])
      let r := (evalList k (units e) 0 w (struck ups e)).1
      ∃ t, exec (.waveEvaluate n k ups) s = .next t ∧ t.cls.get k = { c with waves := c.waves - 1 } ∧
        t.prog = r.prog ∧ t.lse = r.lse ∧ others t ∧ RegsOut [0x00, 0x04, 0x11, 0x80] s t) ∧
    (c.waves = 0 → c.chainsDone = false → aiPending s k = false →
      ∃ t, exec (.stepSequencerRun n k ups) s = .next t ∧ t.cls.get k = { c with chainsDone := true } ∧
        (∀ p ∈ s.img.clsChains k.code, chainOf t p.1 = (match chainTarget k c.elapsed (struck ups e) p.1 p.2 with
            | (x, none) => x
            | (x, some j) => { x with active := j, cis := 0, entered := true, final := (s.img.step p.2 j).final, moves := (x.moves + 1) % 2 ^ 32 }) ∧
          Tab.get? t.prog.latch p.1 = none) ∧
        t.lse = s.lse ∧ others t ∧ RegsOut [0x00, 0x04, 0x11, 0x80] s t) ∧
    (k = .fast → c.waves = 0 → c.lseDone = false → aiPending s k = false →
      ∃ t, exec (.lseUpdate n ns ups) s = .next t ∧ t.cls.get k = { c with lseDone := true } ∧ t.prog = s.prog ∧
        t.lse = (lseRun { p := fastP s, n := c.lastNo.getD 0, orAt := c.lastT0.getD 0 + fastP s + s.img.relofs 0, c := c.elapsed } ns
          (lseReads (struck ups e)).1).lse ∧
        getR t Reg.LSE_T_LAST = ns ∧ others t ∧ RegsOut [0x00, 0x04, 0x11, 0x12, 0x13, 0x80] s t) ∧
    (c.waves = 0 → (c.chainsDone = true ∨ s.img.clsChains k.code = []) → (k = .fast → c.lseDone = true) →
      let d := (now e - c.lastT0.getD 0).toNat
      ∃ t, exec (.cycleComplete n k) s = .next t ∧ t.cls.get k = { c with running := false, late := false, complete := !c.late } ∧
        getR t (Reg.ENG_CLS_LAST k.code) = BitVec.ofNat 32 d ∧
        getR t (Reg.ENG_CLS_MAX k.code) = BitVec.ofNat 32 (max (getR s (Reg.ENG_CLS_MAX k.code)).toNat d) ∧
        (∀ j, j ≠ k → t.cls.get j = s.cls.get j) ∧ RegsBut [Reg.ENG_CLS_LAST k.code, Reg.ENG_CLS_MAX k.code] s t ∧
        t = { tick n s with regs := t.regs, cls := t.cls, rcd := t.rcd })

/-- COMPARE_TIMEOUT is a lane fault with the write that waits; ENG_INJECT and LANE_INJECT arm an injection only in OPEN, while the engine
executes (R75, R228, R231, R234, R241, Table 9.2). -/
def Obligations.LaneFaultsAndInjections : Prop :=
  (∀ (n : Nat) (k : Cls) (src : UpsetSource) (u : Fin 8) (ref part : Nat) (laneB : Bool) (w : CmpWr) (s : State), Inv s → s.held = false →
    comparing s = true → engRuns s = true → (s.cls.get k).running = true → cmpWrite (entry n s) k src ref part = some w →
    ∃ t, exec (.compareTimeout n k u ⟨src, ref, part, laneB⟩) s = .next t ∧
      (∃ f, t.lane.fault = some f ∧ (k, ((s.cls.get k).lastT0).getD 0) ∈ f.classes ∧ (s.lane.fault = none → f.ready = partnerReady (entry n s)) ∧
        t.lane = { s.lane with fault := some f }) ∧
      getF t Reg.LANE_CNT Reg.LANE_CNT_faults = min (getF s Reg.LANE_CNT Reg.LANE_CNT_faults + 1) 65535 ∧
      (flag s Reg.LANE_MM_INFO Reg.LANE_MM_INFO_valid = false →
        getR t Reg.LANE_MM_INFO = (Reg.LANE_MM_INFO_valid.mk' 1 ||| Reg.LANE_MM_INFO_result.mk' 2 ||| Reg.LANE_MM_INFO_kind.mk' 5 |||
          Reg.LANE_MM_INFO_source.mk' (srcCode src) ||| Reg.LANE_MM_INFO_class.mk' k.code ||| Reg.LANE_MM_INFO_unit.mk' u |||
          Reg.LANE_MM_INFO_count.mk' 1) ∧
        getR t Reg.LANE_MM_REF = Reg.LANE_MM_REF_ref.mk' ref ∧ getR t Reg.LANE_MM_ADDR = Reg.LANE_MM_ADDR_offset.mk' w.off ∧
        getR t Reg.LANE_MM_CYCLE = BitVec.ofNat 32 ((s.cls.get k).lastNo.getD 0) ∧
        (if laneB then getR t Reg.LANE_MM_B_LO else getR t Reg.LANE_MM_A_LO) = BitVec.ofNat 32 w.val) ∧
      RegsOut [0x11] s t ∧ t = { tick n s with regs := t.regs, lane := t.lane, rcd := t.rcd, freeCtr := s.freeCtr + 1 }) ∧
  (∀ (n : Nat) (k : Cls) (src : UpsetSource) (u : Fin 8) (ref part : Nat) (laneB : Bool) (s : State), Inv s → s.held = false →
    cmpWrite (entry n s) k src ref part = none → exec (.compareTimeout n k u ⟨src, ref, part, laneB⟩) s = .next (tick n s)) ∧
  (∀ (r : Req) (v : Word) (s : State), Inv s → Granted r .write Reg.ENG_INJECT s →
    ∃ t, exec (.engInject r v) s = .next t ∧ t = { written r s with cls := t.cls } ∧
      ∀ k, t.cls.get k = if secOpen s = true ∧ executing s = true ∧ k ≠ .background ∧ v.toNat % 4 ≠ 3
        then { s.cls.get k with inject := if v.toNat % 4 = k.code then v.toNat / 16 % 16 else 0 } else s.cls.get k) ∧
  (∀ (r : Req) (v : Word) (s : State), Inv s → Granted r .write Reg.LANE_INJECT s →
    exec (.laneInject r v) s = .next { written r s with
      lane := if secOpen s = true ∧ executing s = true ∧ s.lane.split = false
        then { s.lane with inject := if v.getLsbD 31 then some (v.toNat % 65536) else none } else s.lane })

/-- OUTPUT_COMMIT commits each complete cycle at its OC for its OR, and OUTPUT_RELEASE hands its vector to the stages then (R68, R69, R72,
R158, R159, R349, R354). -/
def Obligations.OutputsCommitAtTheOcAndReleaseAtTheOr : Prop :=
  (∀ (n : Nat) (ups : List Cls) (s : State), Inv s → s.held = false → executing s = true → loaded s = true →
    let e := entry n s
    let due := ocOf e + 8000
    (∀ x, s.lastOc = some x → x < ocOf e) → s.red.hand.taking = false → s.red.hand.st ≠ .go → s.red.newer = false →
    (∀ k ∈ three, ocCase s due k = .notDue ∨ ocCase s due k = .commits) → tripped s = none → s.lane.fault = none →
    (∀ k ∈ ups, ocCase s due k ≠ .commits) → (.background ∈ ups → s.cls.background.complete = false) → deferredDue s = none →
    ∃ t, exec (.outputCommit n ups) s = .next t ∧ t.lastOc = some (ocOf e) ∧ t.mode = s.mode ∧ t.img = s.img ∧ t.owner = s.owner ∧
      (∀ k ∈ three, (ocCase s due k = .notDue → t.cls.get k = s.cls.get k) ∧
        (ocCase s due k = .commits → getF t Reg.ENG_OVR_STATUS (consecFld k) = 0 ∧
          t.cls.get k = { s.cls.get k with complete := false, orAt := some (clsOr s k (clsEnd s due k)), comT0 := (s.cls.get k).lastT0
                                           comNo := (s.cls.get k).lastNo.getD 0 }))) ∧
  (∀ (n : Nat) (s : State), Inv s → s.held = false →
    let due := fun (k : Cls) => ∃ x, (s.cls.get k).orAt = some x ∧ x ≤ now (entry n s)
    ∃ t, exec (.outputRelease n) s = .next t ∧
      (∀ c : Fin 32, (∀ v k, s.io.dout[c].shadow = some (v, k) → due k → t.io.dout[c].cmd = v ∧ t.io.dout[c].shadow = none) ∧
        ((∀ v k, s.io.dout[c].shadow = some (v, k) → ¬due k) → t.io.dout[c].cmd = s.io.dout[c].cmd ∧ t.io.dout[c].shadow = s.io.dout[c].shadow) ∧
        t.io.dout[c].stage = doDrive t c) ∧
      (∀ u : Fin 8, (∀ v k, s.io.ao[u].shadow = some (v, k) → due k → t.io.ao[u].cmd = v ∧ t.io.ao[u].released = true ∧ t.io.ao[u].shadow = none) ∧
        ((∀ v k, s.io.ao[u].shadow = some (v, k) → ¬due k) →
          t.io.ao[u].cmd = s.io.ao[u].cmd ∧ t.io.ao[u].released = s.io.ao[u].released ∧ t.io.ao[u].shadow = s.io.ao[u].shadow)) ∧
      (∀ k, (due k → t.cls.get k = { s.cls.get k with orAt := none }) ∧ (¬due k → t.cls.get k = s.cls.get k)) ∧
      RegsOut [0x40, 0x80] s t ∧ t.mode = s.mode ∧ t.img = s.img ∧ t.prog = s.prog ∧ t.io.di = s.io.di ∧ t.io.ai = s.io.ai)

/-- RETAIN_WRITE_COMPLETE writes the header of the capture in Ballast last, then begins a capture that waits or lets START go on (R137, R138). -/
def Obligations.RetainWriteCompletes : Prop :=
  ∀ (n b : Nat) (hd : List Byte) (s : State), Inv s → s.held = false → s.retain.writing = some (b, hd) →
    let done := stBytes s.ballast b hd
    (s.retain.pend = none → s.retain.startWaits = false → ∃ t, exec (.retainWriteComplete n) s = .next t ∧
      (s.pwr.st ≠ .holdup → t.rcd = s.rcd) ∧ (s.pwr.st = .holdup → t.rcd.flushing.isSome = true) ∧
      t = { tick n s with ballast := done, retain := { s.retain with writing := none }, rcd := t.rcd }) ∧
    (∀ c, s.retain.pend = some c →
      let u := { tick n s with ballast := done, retain := { s.retain with writing := none, pend := none } }
      let a := (retTarget u).1
      let q := (retTarget u).2
      (a = retCopy0 ∨ a = retCopy1) ∧ s.retain.seq < q ∧ exec (.retainWriteComplete n) s = .next { u with
        ballast := stBytes done (a + 64) c.data
        retain := { u.retain with
          writing := some (a, copyHeader lrrt (BitVec.ofNat 8 c.reason) q c.image c.data c.t0s c.hours), seq := q } }) ∧
    (s.retain.pend = none → s.retain.startWaits = true → ∃ t, exec (.retainWriteComplete n) s = .next t ∧ t.retain.startWaits = false ∧
      t.retain.writing = none ∧ t.ballast = done ∧ t.mode = s.mode ∧ t.img = s.img ∧ t.regs = s.regs ∧ t.io = s.io)

/-! ### Module commands, exchange, lane modes -/

/-- START, STOP, SAFE, SERVICE and HANDOVER act, wait for an OC, or are refused, as the module state says, each with its status (R79, R80,
R81, R82, R271, R371, Table 3.4). -/
def Obligations.ModuleCommandsStartStopSafeServiceHandover : Prop :=
  ∀ (r : Req) (s : State), Inv s → Granted r .write Reg.SYS_CMD s →
    let said := fun (t : State) (cmd : Nat) (m : Mode) (status : Nat) =>
      t.resp = .done ∧ getR t (pm r.m Reg.SYS_CMD_STATUS) = outcome cmd m status ∧ t.img = s.img
    let waits := fun (i : Instr) (cmd : Nat) (c : SysCmd) (red : Red) => ∃ t, exec i s = .next t ∧ said t cmd s.mode 2 ∧
      RegsBut [pm r.m Reg.SYS_CMD_STATUS] s t ∧
      t = { written r s with regs := t.regs, sysPend := some { cmd := c, masters := [r.m] }, red := red }
    (s.mode = .hold → loaded s = true → s.dbg.frozen = false → s.red.listen = none →
      ∃ t, exec (.sysStart r) s = .next t ∧ said t 1 .hold 0 ∧ t.mode = .hold ∧
        t.red.listen = some ((if secondary s then 6 else 3) * fastP s) ∧ t.red.listenAt = (if t.clk.ramping then none else some (now (entry r.t s))) ∧
        t.red.firstT0 = none ∧ getR t Reg.CLK_DIV = 0x28030505 ∧ t.cls = PerCls.all {} ∧ t.lane.bOff = false ∧ t.lane.hist = [] ∧
        (∀ g : Fin 4, t.io.grp[g].latched = false) ∧ (∀ u : Fin 8, t.io.ao[u].released = false) ∧
        RegsOut [0x00, 0x01, 0x10] s t) ∧
    ((s.mode = .standby ∨ s.mode = .detached ∨ s.mode = .safe ∨ s.mode = .service) →
      ∃ t, exec (.sysStop r) s = .next t ∧ said t 2 .hold 0 ∧ t.mode = .hold ∧ t.prev = s.mode ∧ t.cause = .command ∧ t.owner = false ∧
        flag t Reg.ENG_OVR_STATUS Reg.ENG_OVR_STATUS_wd_trip = false) ∧
    (s.mode = .solo → s.sysPend = none → waits (.sysStop r) 2 .stop s.red) ∧
    (executing s = true → s.sysPend = none → waits (.sysSafe r) 3 .safe s.red) ∧
    ((s.mode = .hold ∨ s.mode = .standby ∨ s.mode = .detached) →
      ∃ t, exec (.sysSafe r) s = .next t ∧ said t 3 .safe 0 ∧ t.mode = .safe ∧ t.prev = s.mode ∧ t.cause = .command ∧ t.owner = false) ∧
    ((s.mode = .hold ∨ s.mode = .safe) →
      ∃ t, exec (.sysService r) s = .next t ∧ said t 4 .service 0 ∧ t.mode = .service ∧ t.prev = s.mode ∧ t.cause = .command ∧
        t.owner = false ∧ ∀ c : Fin 32, t.io.dout[c].stage = false) ∧
    (s.mode = .active → s.sysPend = none → waits (.sysHandover r) 5 .handover { s.red with hand := { s.red.hand with attempts := 0 } }) ∧
    (∀ x ∈ [(Instr.sysStart r, 1, decide (s.mode ≠ .hold)), (.sysStop r, 2, s.mode == .boot || s.mode == .hold || s.mode == .active),
        (.sysSafe r, 3, s.mode == .boot || s.mode == .safe || s.mode == .service),
        (.sysService r, 4, s.mode != .hold && s.mode != .safe), (.sysHandover r, 5, s.mode != .active)],
      x.2.2 = true → ∃ t, exec x.1 s = .next t ∧ said t x.2.1 s.mode 1 ∧ RegsBut [pm r.m Reg.SYS_CMD_STATUS] s t ∧
        t = { written r s with regs := t.regs, rcd := t.rcd })

/-- EXCHANGE_SWITCH makes the delta the running image at a SLOW T0; CONFIRM archives it; REVERT waits for the next one and goes back (R217,
R218, R221, R222, R223, Table 8.1, Table 8.7). -/
def Obligations.OnlineExchangeSwitchesConfirmsAndReverts : Prop :=
  (∀ (n : Nat) (ns : Word) (m : Master) (g : Image) (s : State), Inv s → s.held = false →
    let e := entry n s
    let t0 := t0Of e (slowPeriod s.img)
    let x := s.txn.get m
    deltaDue e t0 = some m → switchEdge e t0 = true → x.cand = some g → commitFault m e = none →
    ∃ t, exec (.exchangeSwitch n ns) s = .next t ∧ t.img = g ∧ t.xch.st = .unconfirmed ∧ t.xch.base = s.img ∧ t.xch.map = x.map ∧
      t.xch.keepBase = s.img.id ∧ t.xch.cont = s.container ∧ t.xch.tBack = x.tBack ∧ t.red.markSwitch = s.red.markSwitch ||| 2 ∧
      t.mode = s.mode ∧ getR t Reg.XCH_T_LAST = ns ∧ getR t Reg.XCH_CNT_CARRY = BitVec.ofNat 32 (swCounts s.img g (x.map.map migRec)).1 ∧
      getR t Reg.XCH_CNT_CONV = BitVec.ofNat 32 (swCounts s.img g (x.map.map migRec)).2.1 ∧
      getR t Reg.XCH_CNT_INIT = BitVec.ofNat 32 (swCounts s.img g (x.map.map migRec)).2.2.1 ∧
      getR t Reg.XCH_CNT_DROP = BitVec.ofNat 32 (swCounts s.img g (x.map.map migRec)).2.2.2) ∧
  (∀ (r : Req) (s : State), Inv s → Granted r .write Reg.XCH_CMD s → s.xch.st = .unconfirmed →
    let said := fun (t : State) (cmd status : Nat) (l : List Nat) => t.resp = .done ∧
      getR t (pm r.m Reg.XCH_CMD_STATUS) = outcome cmd s.mode status ∧ RegsBut (pm r.m Reg.XCH_CMD_STATUS :: l) s t ∧
      t = { written r s with regs := t.regs, xch := t.xch, red := t.red }
    (s.mode ≠ .boot → s.mode ≠ .standby → s.mode ≠ .detached → ∃ t, exec (.xchConfirm r) s = .next t ∧ said t 1 0 [] ∧
      t.xch = { st := .archiving, keepBase := s.xch.keepBase, deferrals := s.xch.deferrals } ∧
      t.red = { s.red with markSwitch := s.red.markSwitch ||| 4 }) ∧
    (executing s = true → holdsBase s = true → ∃ t, exec (.xchRevert r) s = .next t ∧ said t 2 2 [Reg.XCH_T_BOUND] ∧ t.red = s.red ∧
      getR t Reg.XCH_T_BOUND = BitVec.ofNat 32 s.xch.tBack ∧
      t.xch = { s.xch with st := .reverting, revert := some (some r.m, now (entry r.t s)), deferrals := 0 }) ∧
    (executing s = true → holdsBase s = false → ∃ t, exec (.xchRevert r) s = .next t ∧ said t 2 6 [] ∧ t.xch = s.xch ∧ t.red = s.red)) ∧
  (∀ (n : Nat) (ns : Word) (mo : Option Master) (x : Int) (s : State), Inv s → s.held = false →
    let t0 := t0Of (entry n s) (slowPeriod s.img)
    s.xch.revert = some (mo, x) → x + 5000 ≤ t0 → switchEdge (entry n s) t0 = true → s.lane.fault = none →
    (holdsBase s = true → ∃ t, exec (.revertSwitch n ns) s = .next t ∧ t.img = s.xch.base ∧ t.container = s.xch.cont ∧
      t.xch = { deferrals := s.xch.deferrals } ∧ t.red.markSwitch = s.red.markSwitch ||| 8 ∧ t.mode = s.mode ∧ getR t Reg.XCH_T_LAST = ns ∧
      getR t Reg.XCH_T_BOUND = BitVec.ofNat 32 s.xch.tBack ∧ ∀ m, mo = some m → getR t (pm m Reg.XCH_CMD_STATUS) = outcome 2 s.mode 0) ∧
    (holdsBase s = false → ∃ t, exec (.revertSwitch n ns) s = .next t ∧ t.xch = { s.xch with revert := none, st := .unconfirmed } ∧
      (∀ m, mo = some m → getR t (pm m Reg.XCH_CMD_STATUS) = outcome 2 s.mode 6) ∧
      RegsBut (masters.map fun m => pm m Reg.XCH_CMD_STATUS) s t ∧ t = { tick n s with regs := t.regs, xch := t.xch })) ∧
  (∀ (n : Nat) (s : State), Inv s → s.held = false → s.xch.st = .archiving →
    (∃ t, exec (.exchangeArchiveDone n true) s = .next t ∧ t.xch = { deferrals := s.xch.deferrals } ∧ t.img = s.img ∧
      t.upd.slots[(bootRec s).otherSlot true] = ownPackage s.img (if s.container.isEmpty then s.img.container else s.container) ∧
      t.regs = s.regs) ∧
    (∃ t, exec (.exchangeArchiveDone n false) s = .next t ∧ t.xch = { deferrals := s.xch.deferrals } ∧
      flag t Reg.XCH_STATUS Reg.XCH_STATUS_arch_fail = true ∧ RegsBut [Reg.XCH_STATUS] s t ∧
      t = { tick n s with regs := t.regs, xch := t.xch, rcd := t.rcd }))

/-- SPLIT and LOCK take effect at once while the engine is halted, and at the hand-over instant while it executes (R237, R239, R240, Table
9.3). -/
def Obligations.LaneModesChangeWhereNoCycleRuns : Prop :=
  (∀ (r : Req) (split : Bool) (s : State), Inv s → Granted r .write Reg.LANE_CMD s → s.mode ≠ .boot → s.lane.pend = none →
    (split = true → s.lane.bOff = false) → (split = false → s.img.split = false) →
    let i := if split then Instr.laneSplit r else .laneLock r
    let said := fun (t : State) (status : Nat) => t.resp = .done ∧
      getR t (pm r.m Reg.LANE_CMD_STATUS) = outcome (if split then 1 else 2) s.mode status ∧ RegsBut [pm r.m Reg.LANE_CMD_STATUS] s t ∧
      t = { written r s with regs := t.regs, lane := t.lane }
    ((executing s = false ∨ s.lane.split = split) → ∃ t, exec i s = .next t ∧ said t 0 ∧ t.lane = { s.lane with split := split }) ∧
    (executing s = true → s.lane.split ≠ split → ∃ t, exec i s = .next t ∧ said t 2 ∧
      t.lane = { s.lane with pend := some (r.m, split, (entry r.t s).time.c) })) ∧
  (∀ (n c : Nat) (m : Master) (split : Bool) (s : State), Inv s → s.held = false → s.lane.pend = some (m, split, c) → executing s = true →
    let e := entry n s
    edgeAt e (t0Of e (slowPeriod s.img)) = true → clsIdle s = true → c + 1250 ≤ e.time.c → s.lane.fault = none →
    let void : Prop := split = false ∧ s.img.split = true
    ∃ t, exec (.laneModeHandover n) s = .next t ∧ t.lane = { s.lane with pend := none, split := if void then s.lane.split else split } ∧
      t.cls = { s.cls with background := { s.cls.background with running := false, waves := 0, complete := false, chainsDone := false } } ∧
      getR t (pm m Reg.LANE_CMD_STATUS) = outcome (if split then 1 else 2) s.mode (if void then 6 else 0) ∧
      RegsBut [pm m Reg.LANE_CMD_STATUS] s t ∧ t = { tick n s with regs := t.regs, lane := t.lane, cls := t.cls })

/-! ### The redundant pair -/

/-- TETHER_CRICKET_SEND sends the module's state on both lanes outside BOOT; RING_CRICKET_SEND sends it round a ring outside BOOT and HOLD
(R246, R249, R252, R280, R285, Table 10.3). -/
def Obligations.CricketsLeaveOnTetherAndRings : Prop :=
  (∀ (n : Nat) (s : State), Inv s → s.held = false → s.mode ≠ .boot →
    let e := entry n s
    let body := [BitVec.ofNat 8 s.mode.code, BitVec.ofNat 8 (b2n s.red.ready + 2 * b2n (lagNow e) + 4 * b2n s.red.leaving + 8 * b2n (executing s)),
        BitVec.ofNat 8 s.xch.st.code, BitVec.ofNat 8 s.fgr.rings] ++ beBytes 4 (getF s Reg.RED_CKPT Reg.RED_CKPT_value) ++ beBytes 8 (unsgn 64 (now e))
    exec (.tetherCricketSend n) s = .next { tick n s with
      out := .tether 1 (tetherFrame e 1 1 s.bal.epoch (fastNo e) body) :: .tether 0 (tetherFrame e 0 1 s.bal.epoch (fastNo e) body) :: s.out
      red := { s.red with lanes := s.red.lanes.map fun x => { x with seq := (x.seq + 1) % 2 ^ 32 } } }) ∧
  (∀ (n : Nat) (k : Fin 6) (s : State), Inv s → s.held = false → s.mode ≠ .boot → s.mode ≠ .hold → loaded s = true → s.img.ringUsed k = true →
    crkDue (entry n s) k = true → s.fgr.crkOut.getLsbD k = false →
    let e := entry n s
    let body := [BitVec.ofNat 8 s.mode.code, BitVec.ofNat 8 (b2n s.red.ready + 2 * b2n (executing s)), 0, 0] ++ beBytes 8 (unsgn 64 (now e))
    let sent := fun (p : Nat) => if portLink s p then
      [OutMsg.port p (fgrFrame e p 5 (ownId s) s.bal.epoch ((now e / (fastP s : Int)).toNat % 2 ^ 32) 0 body) true] else []
    exec (.ringCricketSend n k) s = .next { tick n s with
      out := sent (2 * k + 1) ++ sent (2 * k) ++ s.out
      fgr := { s.fgr with crkOut := s.fgr.crkOut ||| BitVec.ofNat 6 (2 ^ k.val) } })

/-- CRICKET_RECEIVE takes what the partner says of itself; a bad frame counts; 50 microseconds of silence, PCS loss or a lost SFP takes a lane
down (R246, R250, R251, R252, R254, Table 10.3). -/
def Obligations.TheTetherLanesHearThePartner : Prop :=
  (∀ (n : Nat) (l : Fin 2) (ok : Bool) (frame : List Byte) (s : State), Inv s → s.held = false →
    let e := entry n s
    (∀ f, Heard ok frame f s → f.typ = 1 → ∃ t, exec (.cricketReceive n l ok frame) s = .next t ∧
      let b := fun (i : Nat) => bit (beNat (slice f.body 1 1)) i
      let x := s.red.lanes[l]
      let run := crkRun x 1 e.time.c
      t.red.partner = { s.red.partner with
        at' := some e.time.c, state := beNat (slice f.body 0 1), ready := b 0, lagging := b 1, leaving := b 2, exec := b 3
        xch := beNat (slice f.body 2 1), rings := beNat (slice f.body 3 1) % 64, ckpt := beNat (slice f.body 4 4), sender := f.sender
        timeOk := decide ((now e - sgn 64 (beNat (slice f.body 8 8))).natAbs ≤ 40000), image := t.red.partner.image } ∧
      (t.red.partner.image = s.red.partner.image ∧ t.freeCtr = s.freeCtr ∨
        t.red.partner.image = (Config.partnerImage s.freeCtr).toNat ∧ t.freeCtr = s.freeCtr + 1) ∧
      t.red.lanes[l] = { x with
        lastGood := some e.time.c, lastCrk := some e.time.c, runFrom := run, pcs := true, partnerRx := f.rxOk, seq := t.red.lanes[l].seq
        up := x.up || run.any fun z => decide (z + 250000 ≤ e.time.c) } ∧
      t.isolated = false ∧ t.red.silence = (if intervalOpen e then s.red.silence else 0) ∧ t.red.isolation = 0 ∧ t.red.lifeAt = some (now e) ∧
      t.red.lifeBefore = signBefore e s.red.lifeAt s.red.lifeBefore ∧ t.red.lifeReady = (b 0 && !b 2) ∧
      (b 2 = true → flag t Reg.RED_ALARM Reg.RED_ALARM_leaving_seen = true) ∧ t.mode = s.mode ∧ t.img = s.img ∧
      RegsOut [0x00, 0x04, 0x14, 0x40, 0x80] s t) ∧
    (parseTether ok frame = none → ∃ t, exec (.cricketReceive n l ok frame) s = .next t ∧
      getF t (Reg.RED_LANE l) Reg.RED_LANE_bad_cnt = min (getF s (Reg.RED_LANE l) Reg.RED_LANE_bad_cnt + 1) 65535 ∧
      RegsBut [Reg.RED_LANE l] s t ∧ t = { tick n s with regs := t.regs })) ∧
  (∀ (n : Nat) (l : Fin 2) (s : State), Inv s → s.held = false →
    (laneHears (entry n s) l = true → exec (.tetherLaneTimeout n l) s = .next (tick n s)) ∧
    (laneHears (entry n s) l = false → s.red.lanes[l].up = false → exec (.tetherLaneTimeout n l) s = .next { tick n s with
      red := { s.red with lanes := s.red.lanes.set l { s.red.lanes[l] with runFrom := none } } }) ∧
    (laneHears (entry n s) l = false → s.red.lanes[l].up = true →
      ∃ t, exec (.tetherLaneTimeout n l) s = .next t ∧ t.red.lanes[l] = { s.red.lanes[l] with up := false, runFrom := none } ∧
        t.red.lanes[1 - l] = s.red.lanes[1 - l] ∧ flag t Reg.RED_ALARM Reg.RED_ALARM_tether_lane = true ∧
        (s.red.lanes[1 - l].up = false → flag t Reg.RED_ALARM Reg.RED_ALARM_tether_down = true ∧ t.red.paired = false ∧
          t.red.partner = { s.red.partner with ready := false } ∧ t.red.downAt = some (now (entry n s))) ∧
        RegsBut [Reg.RED_ALARM] s t ∧ t = { tick n s with regs := t.regs, red := t.red }) ∧
    (∃ t, exec (.tetherPcsLockLoss n l) s = .next t ∧ t.red.lanes[l] = { s.red.lanes[l] with up := false, runFrom := none, pcs := false } ∧
      t.red.lanes[1 - l] = s.red.lanes[1 - l] ∧ RegsBut [Reg.RED_ALARM] s t ∧ t = { tick n s with regs := t.regs, red := t.red }) ∧
    (∀ present los : Bool, ∃ t, exec (.sfpPresenceChange n l present los) s = .next t ∧
      t.red.lanes[l] = (if present && !los then { s.red.lanes[l] with present := present, los := los, pcs := true }
        else { s.red.lanes[l] with present := present, los := los, pcs := false, up := false, runFrom := none }) ∧
      t.red.lanes[1 - l] = s.red.lanes[1 - l] ∧ RegsBut [Reg.RED_ALARM] s t ∧ t = { tick n s with regs := t.regs, red := t.red }))

/-- CKPT_FRAME_SEND streams a delta within its budget; an ACK ends it or asks again; CKPT_ABORT gives it up; lag detaches a standby (R256,
R257, R258, R259, R260, Table 10.3). -/
def Obligations.CheckpointsAreStreamedByTheActive : Prop :=
  (∀ (n : Nat) (d : Delta) (s : State), Inv s → s.held = false →
    let e := entry n s
    let i := d.again.head?.getD d.next
    let rec' := d.frames.getD i []
    let used := if s.red.sentPeriod = fastPeriod e then s.red.sentBytes else 0
    let put := fun (x z : Delta) => if z.k = d.k then x else z
    let kept := fun (x : Delta) => { s.red with outDelta := s.red.outDelta.map (put x), unacked := s.red.unacked.map (put x) }
    let both := fun (typ : Nat) (b : List Byte) =>
      .tether 1 (tetherFrame e 1 typ s.bal.epoch d.k b) :: .tether 0 (tetherFrame e 0 typ s.bal.epoch d.k b) :: s.out
    let seqs := s.red.lanes.map fun x => ({ x with seq := (x.seq + 1) % 2 ^ 32 } : TLane)
    let aborts := fun (j : Instr) => ∃ t, exec j s = .next t ∧ flag t Reg.RED_ALARM Reg.RED_ALARM_ckpt_abort = true ∧
      t.out = both 4 (beBytes 4 d.k) ∧ t.red = { s.red with
        outDelta := s.red.outDelta.filter fun z => z.k != d.k, unacked := s.red.unacked.filter fun z => z.k != d.k, lanes := seqs
        base := d.words.foldl (fun m p => m.put p.1 (~~~p.2)) s.red.base, fullNext := s.red.fullNext || d.full
        markSwitch := s.red.markSwitch ||| (d.flags / 2 * 2) }
    (ckJob s = some d → ¬(d.ended = true ∧ d.again = []) →
      (∀ l : Fin 2, ckLane s i = some l → i < d.frames.length →
        (ckBudget s < used + rec'.length → exec (.ckptFrameSend n) s = .next (tick n s)) ∧
        (used + rec'.length ≤ ckBudget s → (ckReads d e).2 = false → exec (.ckptFrameSend n) s = .next { (ckReads d e).1 with
          pending := s.pending
          out := .tether l (tetherFrame e l 2 s.bal.epoch d.k (beBytes 4 d.k ++ beBytes 2 i ++ beBytes 2 rec'.length ++ rec')) :: s.out
          red := { kept (if d.again = [] then { d with next := d.next + 1 } else { d with again := d.again.tail }) with
            sentBytes := used + rec'.length, sentPeriod := fastPeriod e
            lanes := s.red.lanes.set l { s.red.lanes[l] with seq := (s.red.lanes[l].seq + 1) % 2 ^ 32 } } }) ∧
        (used + rec'.length ≤ ckBudget s → (ckReads d e).2 = true → aborts (.ckptFrameSend n))) ∧
      ((ckLane s i).isSome = true → d.frames.length ≤ i → exec (.ckptFrameSend n) s = .next { tick n s with
        out := both 3 (beBytes 4 d.k ++ beBytes 4 d.frames.length ++ beBytes 4 d.bytes ++ beBytes 4 d.crc.toNat ++
          d.last.flatMap (beBytes 4) ++ [BitVec.ofNat 8 d.flags])
        red := { kept { d with ended := true } with lanes := seqs } }) ∧
      (ckLane s i = none → aborts (.ckptFrameSend n))) ∧
    (s.red.outDelta = some d → (executing s = true ∧ d.ended = false → aborts (.ckptAbort n)) ∧
      (¬(executing s = true ∧ d.ended = false) → exec (.ckptAbort n) s = .next (tick n s)))) ∧
  (∀ (n : Nat) (s : State), Inv s → s.held = false → (ckJob s = none ∨ ∃ d, ckJob s = some d ∧ d.ended = true ∧ d.again = []) →
    exec (.ckptFrameSend n) s = .next (tick n s)) ∧
  (∀ (n : Nat) (s : State), Inv s → s.held = false →
    (s.red.outDelta = none → exec (.ckptAbort n) s = .next { tick n s with red := { s.red with inDelta := none } }) ∧
    (s.mode = .standby → s.red.lagging = true → 64 ≤ s.red.lag → ∃ t, exec (.lagTimeout n) s = .next t ∧ t.mode = .detached ∧ t.prev = .standby ∧
      t.cause = .tether ∧ t.red.ready = false ∧ t.red.inDelta = none ∧ t.red.inOld = [] ∧ flag t Reg.RED_ALARM Reg.RED_ALARM_lag_timeout = true ∧
      flag t Reg.RED_ALARM Reg.RED_ALARM_detached = true ∧ t.img = s.img ∧ RegsOut [0x14, 0x71] s t)) ∧
  (∀ (n : Nat) (l : Fin 2) (ok : Bool) (frame : List Byte) (f : TFrm) (s : State), Inv s → s.held = false → Heard ok frame f s →
    (∀ d, f.typ = 5 → ckSent s (beNat (slice f.body 0 4)) = some d → ∃ t, exec (.ckptAckReceive n l ok frame) s = .next t ∧
      (beNat (slice f.body 4 1) = 0 → getF t Reg.RED_CKPT Reg.RED_CKPT_value = d.k ∧ t.red.ckAt = some d.k ∧ t.red.ckImage = s.img.id ∧
        t.red.outDelta = (s.red.outDelta.filter fun z => !(z.k == d.k && z.ended)) ∧
        (∀ z ∈ t.red.unacked, z ∈ s.red.unacked) ∧ ((∀ z, s.red.outDelta = some z → z.k ≠ d.k) → s.red.unacked.head? = some d →
          t.red.unacked = s.red.unacked.tail)) ∧
      (beNat (slice f.body 4 1) ≠ 0 → getR t Reg.RED_CKPT = getR s Reg.RED_CKPT ∧
        let x := { d with
          again := ((List.range (beNat (slice f.body 7 2))).map (· + beNat (slice f.body 5 2))).filter fun i => decide (i < d.frames.length) }
        t.red.outDelta = (s.red.outDelta.map fun z => if z.k = d.k then x else z) ∧
        t.red.unacked = s.red.unacked.map fun z => if z.k = d.k then x else z) ∧
      t.mode = s.mode ∧ RegsOut [0x00, 0x04, 0x14, 0x40, 0x80] s t) ∧
    (f.typ = 6 → executing s = true → ∃ t, exec (.resyncReqReceive n l ok frame) s = .next t ∧ t.red.fullNext = true ∧
      t.red.outDelta = s.red.outDelta ∧ t.red.partner.image = (if beNat (slice f.body 0 1) = 3 then s.img.id else s.red.partner.image) ∧
      t.mode = s.mode ∧ RegsOut [0x00, 0x04, 0x14, 0x40, 0x80] s t))

/-- A standby stages the frames of a delta and takes it once complete; it asks for missing ones; images from the partner arrive in order
(R244, R257, R258, R259). -/
def Obligations.CheckpointsAreTakenByTheStandby : Prop :=
  (∀ (n : Nat) (l : Fin 2) (ok : Bool) (frame : List Byte) (f : TFrm) (s : State), Inv s → s.held = false → Heard ok frame f s →
    let w := fun (i : Nat) => beNat (slice f.body i 4)
    let takes := fun (i : Instr) (g : DeltaIn → DeltaIn) =>
      let l := if ((staging s).any fun d => d.k == w 0) then (staging s).map (fun d => if d.k = w 0 then g d else d) else staging s ++ [g { k := w 0 }]
      ∃ t, exec i s = .next t ∧
      ((takesCkpt s = false ∨ ckNext l = none) → staging t = l ∧ t.red.ckAt = s.red.ckAt ∧ getR t Reg.RED_CKPT = getR s Reg.RED_CKPT ∧
        t.mode = s.mode ∧ RegsOut [0x14] s t) ∧
      (∀ d, l = [d] → d.complete = true → takesCkpt s = true → bit d.flags 1 = false → staging t = [] ∧ t.red.ckAt = some d.k ∧
        t.red.ckLast = d.last ∧ getR t Reg.RED_CKPT = BitVec.ofNat 32 d.k ∧ (s.mode = .standby → t.mode = .standby) ∧
        ∃ (x : Nat) (a : List Byte), .tether x a ∈ t.out ∧ slice a 15 1 = [5] ∧ slice a 34 9 = beBytes 4 d.k ++ [0, 0, 0, 0, 0])
    (standsBy s = true → f.typ = 2 → wantsDelta s (w 0) = true → takes (.ckptDataReceive n l ok frame) fun d => { d with
      frames := Tab.put d.frames (beNat (slice f.body 4 2)) (f.body.drop 8) }) ∧
    (standsBy s = true → f.typ = 3 → wantsDelta s (w 0) = true → takes (.ckptEndReceive n l ok frame) fun d => { d with
      ended := true, nFrames := w 4, nBytes := w 8, crc := BitVec.ofNat 32 (w 12), last := [w 16, w 20, w 24, w 28]
      flags := beNat (slice f.body 32 1) }) ∧
    (f.typ = 10 → (s.mode = .standby ∨ s.mode = .detached ∨ s.mode = .hold) →
      let kind := beNat (slice f.body 0 1)
      let total := w 1
      let off := w 5
      let data := f.body.drop 9
      ∃ t, exec (.imageFrameReceive n l ok frame) s = .next t ∧ t.mode = s.mode ∧ t.img = s.img ∧
        (off ≠ 0 → (∀ m, s.red.imgRx ≠ some (kind, total, m, off)) → t.red.imgRx = none ∧ t.txn = s.txn ∧ t.store = s.store) ∧
        (∀ m, (if off = 0 then m = SMap.empty else s.red.imgRx = some (kind, total, m, off)) →
          (off + data.length < total → t.red.imgRx = some (kind, total, stBytes m off data, off + data.length) ∧ t.txn = s.txn ∧ t.store = s.store) ∧
          (total ≤ off + data.length → t.red.imgRx = none ∧
            let c := ldBytes (stBytes m off data) 0 total
            (kind = 0 → t.red.partner.image = (header (listRd c)).id) ∧
            (¬(kind = 0 ∧ (header (listRd c)).id = s.img.id) → lockHolder s .tether Reg.CTU_IMAGE_BASE = none →
              storeLocked { s with txn := s.txn.set .tether {} } (imgPlace total) total = false → total ≤ storeSize - freeBase →
              s.art.waiting.contains .tether = false →
              (t.txn.get .tether).st = .verifying ∧ ldBytes t.store (imgPlace total) total = c ∧ ∀ m, m ≠ .tether → t.txn.get m = s.txn.get m))))) ∧
  (∀ (n a : Nat) (m : List Nat) (d : DeltaIn) (s : State), Inv s → s.held = false → standsBy s = true →
    (staging s).find? (fun d => d.ended && !d.missing.isEmpty) = some d → d.missing = a :: m →
    let e := entry n s
    let l : Fin 2 := if s.red.lanes[0].up then 0 else 1
    exec (.ckptMissingTimeout n) s = .next { tick n s with
      out := .tether l (tetherFrame e l 5 s.bal.epoch d.k (beBytes 4 d.k ++ [1] ++ beBytes 2 a ++ beBytes 2 (runLen (a :: m)))) :: s.out
      red := { s.red with lanes := s.red.lanes.set l { s.red.lanes[l] with seq := (s.red.lanes[l].seq + 1) % 2 ^ 32 } } })

/-- Silence is counted; a ready standby claims with a new epoch after three silent cycles or a RELEASE; START claims or stands by; isolation
is flagged (R254, R261, R264, R265, R266, R269, R271). -/
def Obligations.AStandbyClaimsTheLine : Prop :=
  (∀ (n : Nat) (s : State), Inv s → s.held = false →
    let e := entry n s
    let t0 := t0Of e (fastP s)
    let claims := fun (i : Instr) (trigger missed : Nat) (why : Cause) => ∃ t, exec i s = .next t ∧ t.mode = .solo ∧ t.prev = s.mode ∧ t.cause = why ∧
      t.owner = true ∧ t.bal.epoch = t.red.epoch ∧
      t.red.epoch = min 0xFFFFFFFF (max s.bal.epoch (getF s Reg.RED_EPOCH_SEEN Reg.RED_EPOCH_SEEN_value) + 1) ∧
      t.red.firstT0 = some (gridUp (fastP s) (now e + 31250)) ∧ t.red.listen = none ∧ t.red.silence = 0 ∧
      getR t Reg.RED_LAST_TAKEOVER = (Reg.RED_LAST_TAKEOVER_trigger.mk' trigger ||| Reg.RED_LAST_TAKEOVER_missed.mk' missed) ∧
      getF t Reg.RED_EVENTS Reg.RED_EVENTS_claims = min (getF s Reg.RED_EVENTS Reg.RED_EVENTS_claims + 1) 255 ∧
      ∀ l : Fin 2, ∃ a, .tether l.val a ∈ t.out ∧ slice a 15 1 = [7] ∧ slice a 22 4 = beBytes 4 t.red.epoch
    (loaded s = true → s.mode ≠ .boot → edgeAt e t0 = true → s.red.endT0 ≠ some t0 → ∃ t, exec (.standbyIntervalEnd n) s = .next t ∧
      t.red.silence = (if (s.mode = .standby ∨ s.mode = .detached ∨ s.red.listen.isSome = true) ∧ seenIn e t0 s.red.lifeAt s.red.lifeBefore = false
        then min 6 (s.red.silence + 1) else 0) ∧ t.red.endT0 = some t0 ∧ t.red.listen = s.red.listen ∧ t.red.lifeAt = s.red.lifeAt ∧
      t.red.isolation = (if executing s = true ∧ (∀ x, s.red.lifeAt = some x → x < t0 - fastP s) ∧ s.red.lifeReady = true
        then min 4 (s.red.isolation + 1) else 0)) ∧
    ((s.mode = .boot ∨ loaded s = false ∨ edgeAt e t0 = false ∨ s.red.endT0 = some t0) → exec (.standbyIntervalEnd n) s = .next (tick n s)) ∧
    (∀ trigger, silenceTrigger s = some trigger → ∀ i ∈ [Instr.claimBySilence n, .claim n],
      (s.mode = .standby → standbyReady e = true →
        claims i trigger (missedReleases s (cycleNo s .fast (gridUp (fastP s) (now e + 31250)))) .claim)) ∧
    ((silenceTrigger s).isSome = true → (s.mode = .detached ∨ s.mode = .standby ∧ standbyReady e = false) →
      ∃ t, exec (.claimBySilence n) s = .next t ∧ flag t Reg.RED_ALARM Reg.RED_ALARM_no_claim = true ∧ RegsBut [Reg.RED_ALARM] s t ∧
        t = { tick n s with regs := t.regs }) ∧
    (s.mode = .hold → listenOver e = true → s.red.sawExec = false → claims (.startListenEnd n) 4 0 .command) ∧
    (s.mode = .hold → listenOver e = true → s.red.sawExec = true → ∃ t, exec (.startListenEnd n) s = .next t ∧ t.mode = .standby ∧
      t.prev = .hold ∧ t.cause = .command ∧ t.red.listen = none ∧ t.red.lagging = true ∧ t.red.resyncLeft = 2 ∧ t.red.ckAt = none ∧ t.owner = s.owner) ∧
    (executing s = true → s.isolated = false → 4 ≤ s.red.isolation → ∃ t, exec (.isolation n) s = .next t ∧ t.isolated = true ∧
      flag t Reg.RED_ALARM Reg.RED_ALARM_isolated = true ∧ RegsBut [Reg.RED_ALARM] s t ∧ t = { tick n s with regs := t.regs, isolated := true })) ∧
  (∀ (n : Nat) (p : Fin 12) (ok : Bool) (frame : List Byte) (f : TFrm) (s : State), Inv s → s.held = false → Heard ok frame f s →
    (f.typ = 8 → s.mode = .standby → standbyReady (entry n s) = true → s.red.lanes[if p.val % 2 = 0 then (0 : Fin 2) else 1].up = true →
      ∃ t, exec (.releaseReceive n false p ok frame) s = .next t ∧ t.mode = .solo ∧ t.cause = .claim ∧ t.owner = true ∧
        t.red.epoch = min 0xFFFFFFFF (max (max s.bal.epoch f.epoch) (getF s Reg.RED_EPOCH_SEEN Reg.RED_EPOCH_SEEN_value) + 1) ∧ getF t Reg.RED_LAST_TAKEOVER Reg.RED_LAST_TAKEOVER_trigger = 1) ∧
    (f.typ = 7 → ∃ t, exec (.claimReceive n false p ok frame) s = .next t ∧ t.red.sawExec = true ∧ t.red.lifeAt = some (now (entry n s)) ∧
      t.red.seenPair = (if pairNewer (f.epoch, f.sender) s.red.seenPair then (f.epoch, f.sender) else s.red.seenPair) ∧
      (executing s = true → pairNewer (f.epoch, f.sender) (ownPair s) = true → t.red.newer = true) ∧ t.mode = s.mode)) ∧
  (∀ (n i : Nat) (p : Fin 12) (ok : Bool) (frame : List Byte) (f : Sys2Proof.Machine.Frm) (s : State), Inv s → s.held = false → OnRing p ok frame f s →
    (∃ q, modSrc f.src = some (i, q)) → i ≠ ownId s → pairNewer (knownPair s) (f.epoch, f.owner) = false →
    (f.typ = 4 → s.mode = .standby → standbyReady (entry n s) = true → ∃ t, exec (.releaseReceive n true p ok frame) s = .next t ∧ t.mode = .solo ∧
      t.cause = .claim ∧ t.owner = true ∧
      t.red.epoch = min 0xFFFFFFFF (max (max s.bal.epoch f.epoch) (getF s Reg.RED_EPOCH_SEEN Reg.RED_EPOCH_SEEN_value) + 1) ∧ getF t Reg.RED_LAST_TAKEOVER Reg.RED_LAST_TAKEOVER_trigger = 1) ∧
    (f.typ = 3 → ∃ t, exec (.claimReceive n true p ok frame) s = .next t ∧ t.red.sawExec = true ∧ t.red.lifeAt = some (now (entry n s)) ∧
      t.red.ringAt = some (now (entry n s)) ∧
      (executing s = true → pairNewer (f.epoch, f.owner) (ownPair s) = true → t.red.newer = true) ∧ t.mode = s.mode))

/-- HANDOVER is proposed for the last FAST cycle before a SLOW T0; GO, NOGO and REQUEST act as R274 to R276 say; the hold-off asks for it
(R270, R273, R274, R275, R276). -/
def Obligations.APlannedHandoverIsProposedAndGoes : Prop :=
  (∀ (n : Nat) (s : State), Inv s → s.held = false →
    let e := entry n s
    let h := s.red.hand
    let sent := fun (t : State) (body : List Byte) => t.out = .tether 1 (tetherFrame e 1 9 s.bal.epoch (fastNo e) body) ::
      .tether 0 (tetherFrame e 0 9 s.bal.epoch (fastNo e) body) :: s.out
    let seqs := s.red.lanes.map fun x => ({ x with seq := (x.seq + 1) % 2 ^ 32 } : TLane)
    (flag s Reg.RED_CFG Reg.RED_CFG_ring_handover = true → 3 ≤ s.red.ringWorse → s.mode = .active → s.sysPend = none →
      exec (.ringHandoverTrigger n) s = .next { tick n s with
        sysPend := some { cmd := .handover, masters := [] }, red := { s.red with ringWorse := 0, hand := { h with attempts := 0 } } }) ∧
    (edgeAt e (t0Of e (fastP s)) = true → handWaits s = true → (h.st = .idle ∨ h.st = .done ∨ h.st = .cancelled) →
      s.xch.st ≠ .pending → s.xch.st ≠ .reverting →
      let N := unsgn 32 ((cycleNo s .fast (gridUp (slowPeriod s.img) (t0Of e (fastP s) + 2 * fastP s)) : Int) - 1)
      (s.mode = .active → partnerReady e = true → ∃ t, exec (.handoverPropose n) s = .next t ∧ sent t (1 :: beBytes 4 N) ∧
        t = { tick n s with
          out := t.out, red := { s.red with lanes := seqs, hand := { h with st := .proposed, n := N, undo := none, taking := false } } }) ∧
      ((s.mode ≠ .active ∨ partnerReady e = false) → ∃ t, exec (.handoverPropose n) s = .next t ∧ t.sysPend = none ∧
        t.red = { s.red with hand := { h with st := .cancelled, undo := none } } ∧
        (∀ p m, s.sysPend = some p → m ∈ p.masters → getR t (pm m Reg.SYS_CMD_STATUS) = outcome 5 s.mode 6) ∧ t.out = s.out ∧ t.mode = s.mode)) ∧
    (∀ t0, s.mode = .standby → h.st = .proposed → handT0 e = some t0 → t0 + goDeadline s ≤ now e →
      (s.red.ckAt = some h.n → standbyReady e = true → ∃ t, exec (.handoverGoDeadline n) s = .next t ∧ sent t (2 :: beBytes 4 h.n) ∧
        t.red.hand = { h with st := .go, taking := true, goSent := true } ∧ engRuns t = true ∧ t.mode = .standby) ∧
      ((s.red.ckAt ≠ some h.n ∨ standbyReady e = false) → ∃ t, exec (.handoverGoDeadline n) s = .next t ∧ sent t (3 :: beBytes 4 h.n) ∧
        t = { tick n s with out := t.out, red := (if 16 ≤ h.attempts + 1 then { s.red with
          lanes := seqs, hand := { h with st := .idle, attempts := 0 }, requested := false, readySince := s.red.readySince.map fun _ => e.time.c }
          else { s.red with lanes := seqs, hand := { h with st := .idle, attempts := h.attempts + 1 } }) })) ∧
    (s.mode = .standby → secondary s = false → s.red.ready = true → 0 < holdoffS s → holdoffLeft e = 0 → s.red.readySince.isSome = true →
      s.red.requested = false →
      ∃ t, exec (.holdoffExpiry n) s = .next t ∧ sent t (4 :: beBytes 4 0) ∧
        t = { tick n s with out := t.out, red := { s.red with lanes := seqs, requested := true } })) ∧
  (∀ (n : Nat) (l : Fin 2) (ok : Bool) (frame : List Byte) (f : TFrm) (s : State), Inv s → s.held = false → Heard ok frame f s → f.typ = 9 →
    let h := s.red.hand
    let N := beNat (slice f.body 1 4)
    let sub := beNat (slice f.body 0 1)
    ∃ t, exec (.handoverFrameReceive n l ok frame) s = .next t ∧ t.mode = s.mode ∧
      (sub = 1 → s.mode = .standby → h.taking = false → t.red.hand = { st := .proposed, n := N, attempts := h.attempts }) ∧
      (∀ t0, sub = 2 → s.mode = .active → h.st = .streaming → h.n = N → handT0 (entry n s) = some t0 → now (entry n s) < t0 + fastP s - 10000 →
        t.red.hand = { h with st := .go, undo := none } ∧
        ∀ u, h.undo = some u → t.prog = u.prog ∧ t.lse = u.lse ∧ t.cls = u.cls) ∧
      (sub = 3 → s.mode = .active → h.n = N → (h.st = .proposed ∨ h.st = .streaming) →
        (h.attempts < 15 → t.red.hand = { h with st := .idle, undo := none, attempts := h.attempts + 1 } ∧ t.sysPend = s.sysPend) ∧
        (15 ≤ h.attempts → t.red.hand = { h with st := .cancelled, undo := none, attempts := h.attempts + 1 } ∧ t.sysPend = none ∧
          flag t Reg.RED_ALARM Reg.RED_ALARM_handover_failed = true)) ∧
      (sub = 4 → s.mode = .active → secondary s = true → s.sysPend = none →
        t.sysPend = some { cmd := .handover, masters := [] } ∧ t.red.hand = { h with attempts := 0 }))

/-! ### Feger rings -/

/-- DOWNLINK_SEND sends a frame of the set on both ports; frames are forwarded and counted; PTP goes on with its correction; IDENTIFY repeats
(R279, R283, R287, R290, R292, R310, Table 11.3, Table 11.10). -/
def Obligations.RingsCarryFramesOut : Prop :=
  (∀ (n f : Nat) (k : Fin 6) (segs : List (Nat × FSeg)) (x : Int) (s : State), Inv s → s.held = false → ringPort s (2 * k) = true →
    ((setImg s).dlFrames k)[f]? = some segs → dlStartIn s k f = some x →
    let flags := b2n s.fgr.safeSet + 2 * b2n (!(segs.any fun p => ((Tab.get? (setSegs s) p.1).getD {}).fresh))
    let sent := fun (p : Nat) => if portLink s p then
      [OutMsg.port p (fgrFrame s p 1 (ownId s) s.red.epoch s.fgr.cycle flags (dlBody s segs f ((setImg s).dlFrames k).length)) true] else []
    let due : Prop := sendsDownlink s = true ∧ x ≤ now (entry n s) ∧ (k.val, f) ∉ s.fgr.sent
    (due → exec (.downlinkSend n k f) s = .next { tick n s with
      out := sent (2 * k + 1) ++ sent (2 * k) ++ s.out, fgr := { s.fgr with sent := (k.val, f) :: s.fgr.sent } }) ∧
    (¬due → exec (.downlinkSend n k f) s = .next (tick n s))) ∧
  (∀ (n : Nat) (p : Fin 12) (ok : Bool) (l : List Byte) (res : BitVec 10) (s : State), Inv s → s.held = false → ringPort s p = true →
    portLink s p = true →
    let own : Prop := ∃ q, modSrc (beNat (slice l 6 6)) = some (ownId s, q) ∧ s.img.role q = 1
    let fgr := etherType l = getF s Reg.FGR_ETYPE Reg.FGR_ETYPE_etype
    let ptp := etherType l = 0x88F7
    let tc := tcCode s p = 3 ∨ tcCode s p = 4
    let on := fun (i : Instr) (a : List Byte) => ∃ t, exec i s = .next t ∧ getR t (Reg.FGR_P_FWD p) = getR s (Reg.FGR_P_FWD p) + 1 ∧
      RegsBut [Reg.FGR_P_FWD p] s t ∧ t = { tick n s with regs := t.regs, out := .port (otherPort p) a ok :: s.out }
    (¬own → portLink s (otherPort p) = true → ((¬ptp ∧ fgr) ∨ (ptp ∧ ¬tc)) → on (.ringFrameForward n p ok l) l) ∧
    ((own ∨ portLink s (otherPort p) = false) → ((¬ptp ∧ fgr) ∨ (ptp ∧ ¬tc)) → exec (.ringFrameForward n p ok l) s = .next (tick n s)) ∧
    (¬ptp → ¬fgr → ∃ t, exec (.ringFrameForward n p ok l) s = .next t ∧
      (if etherType l = 0x8100 then getF t (Reg.FGR_P_ERR p) Reg.FGR_P_ERR_bad_format = min (getF s (Reg.FGR_P_ERR p) Reg.FGR_P_ERR_bad_format + 1) 65535
        else getF t (Reg.FGR_P_VIOL p) Reg.FGR_P_VIOL_foreign = min (getF s (Reg.FGR_P_VIOL p) Reg.FGR_P_VIOL_foreign + 1) 255) ∧
      RegsBut [Reg.FGR_P_ERR p, Reg.FGR_P_VIOL p] s t ∧ t = { tick n s with regs := t.regs }) ∧
    (∀ o, ptpAt s p l = some o → tc → ok = true → ¬own → portLink s (otherPort p) = true → bit (s.img.ptp p) 5 = false →
      ¬(tcCode s p = 4 ∧ (ptpType l o = 2 ∨ ptpType l o = 3 ∨ ptpType l o = 10)) →
      on (.ptpFrameReceive n p ok l res) (tcCorrect s p res.toNat l)) ∧
    (∀ o, ptpAt s p l = some o → ok = true → tcCode s p = 4 → (ptpType l o = 2 ∨ ptpType l o = 3 ∨ ptpType l o = 10) →
      exec (.ptpFrameReceive n p ok l res) s = .next { portDeliver p (if ownClock s p && ptpType l o == 3 then addCf l o (asym s p) else l)
        (entry n s) with pending := s.pending }) ∧
    (ptpAt s p l = none → exec (.ptpFrameReceive n p ok l res) s = .next (tick n s))) ∧
  (∀ (n o : Nat) (p : Fin 12) (l : List Byte) (res : BitVec 10) (s : State), Inv s → s.held = false → s.mode ≠ .boot → loaded s = true →
    s.img.role p ≠ 0 → s.img.role p ≠ 1 → portLink s p = true → ptpAt s p l = some o →
    exec (.ptpFrameReceive n p true l res) s = .next { portDeliver p
      (if ownClock s p && (ptpType l o == 0 || ptpType l o == 3) then addCf l o (asym s p) else l) (entry n s) with pending := s.pending }) ∧
  (∀ (n : Nat) (s : State), Inv s → s.held = false → s.owner = true → (executing s = true ∨ s.mode = .safe) →
    let e := entry n s
    let asks := fun (i : Nat) => (∀ c, (staOf s i).identAt = some c → c + 250000000 ≤ e.time.c) ∧ ((staOf s i).st = .returning ∨
      ((staOf s i).st = .lost ∧ ((staOf s i).heard = true ∨ (staOf s i).heardLast = true)))
    ∃ t, exec (.identifyRepeat n) s = .next t ∧ t = { tick n s with fgr := t.fgr, out := t.out } ∧
      (∀ i, (i < s.img.stas.length → asks i → staOf t i = { staOf s i with identAt := some e.time.c } ∧
          ∀ p, p / 2 = (s.img.sta i).ring → ringPort s (2 * (p / 2)) = true → portLink s p = true →
            ∃ a, (.port p a true ∈ t.out ∨ (p, a) ∈ t.fgr.urgent) ∧ slice a 15 1 = [7] ∧ slice a 30 4 = beBytes 2 (s.img.sta i).addr ++ [1, 0]) ∧
        (¬(i < s.img.stas.length ∧ asks i) → staOf t i = staOf s i))) ∧
  (∀ (n : Nat) (p : Fin 12) (up : Bool) (s : State), Inv s → s.held = false →
    ∃ t, exec (.fegerPortLinkChange n p up) s = .next t ∧ t.fgr.link = s.fgr.link.set p up ∧ t.mode = s.mode ∧ t.img = s.img ∧
      ((up = true ∨ s.que[(⟨p.val, by omega⟩ : Fin 128)].fly = []) → t = { tick n s with fgr := { s.fgr with
        link := s.fgr.link.set p up, urgent := if up then s.fgr.urgent else s.fgr.urgent.filter fun q => q.1 != p.val } }))

/-- UPLINK_RECEIVE takes a station's first good copy; the partner's frames are signs of life; a Cricket back closes its ring; PARAM and DIAG
go to firmware (R254, R280, R284, R285, R291, R292, R293, R299). -/
def Obligations.RingsBringFramesIn : Prop :=
  ∀ (n : Nat) (p : Fin 12) (ok : Bool) (l : List Byte) (f : Sys2Proof.Machine.Frm) (s : State), Inv s → s.held = false → OnRing p ok l f s →
    let e := entry n s
    let x := firstByte e p l.length
    let counted := fun (t : State) => getR t (Reg.FGR_P_RX p) = getR s (Reg.FGR_P_RX p) + 1 ∧ t.mode = s.mode ∧ t.img = s.img ∧
      RegsOut [0x00, 0x04, 0x14, 0x20, 0x40, 0x80] s t
    let viol := fun (t : State) (g : Fld) => counted t ∧ getF t (Reg.FGR_P_VIOL p) g = min (getF s (Reg.FGR_P_VIOL p) g + 1) 255 ∧
      t = { tick n s with regs := t.regs }
    (f.typ = 2 →
      let addr := beNat (slice f.body 0 2)
      (∀ q i r, (slotsAt e p x).find? (fun q => q.2.1 == addr) = some q → s.img.staAt (p.val / 2) addr = some (i, r) →
        let y := staOf s i
        let segs := (parseUp f.body.length (f.body.drop 4)).getD []
        ∃ t, exec (.uplinkReceive n p ok l) s = .next t ∧
          (y.src.isSome = true → y.src ≠ some f.src → counted t ∧ (staOf t i).conflict = true ∧ (staOf t i).heard = true ∧
            (∀ j, j ≠ i → staOf t j = staOf s j) ∧ flag t (Reg.FGR_RING_ALARM (s.img.sta i).ring) Reg.FGR_RING_ALARM_conflict = true) ∧
          ((y.src = none ∨ y.src = some f.src) → segsMatch (slotImg e x) q.2.2 segs = true → y.conflict = false →
            (∀ b, s.fgr.before = some b → rxStamp e p < b.1 → crossingT0 s ≠ some b.1) →
            let z := staOf t i
            counted t ∧ (∀ j, j ≠ i → staOf t j = staOf s j) ∧ z.heard = true ∧
            z.got = (if y.got.isSome then y.got else some { ts := rxStamp e p, status := f.body.getD 2 0, segs := segs }) ∧
            z.st = (if y.st = .lost then .returning else y.st) ∧
            z.src = (if y.st = .returning ∧ y.entered = false ∧ y.src = none then some f.src else y.src) ∧
            z.seenA = (y.seenA || p.val % 2 == 0) ∧ z.seenB = (y.seenB || p.val % 2 == 1) ∧ z.conflict = false)) ∧
      (slotsAt e p x = [] → ∃ t, exec (.uplinkReceive n p ok l) s = .next t ∧ viol t Reg.FGR_P_VIOL_slot ∧
        flag t (Reg.FGR_RING_ALARM (p.val / 2)) Reg.FGR_RING_ALARM_slot_violation = true)) ∧
    (∀ i ∈ [Instr.downlinkReceive n p ok l, .ringCricketReceive n p ok l], f.typ = (if i = .downlinkReceive n p ok l then 1 else 5) →
      (∀ o q, modSrc f.src = some (o, q) → o ≠ ownId s →
        (if f.typ = 5 then (knownPair s).1 ≤ f.epoch else pairNewer (knownPair s) (f.epoch, f.owner) = false) →
        ∃ t, exec i s = .next t ∧ counted t ∧ t.red.lifeAt = some (now e) ∧ t.red.ringAt = some (now e) ∧ t.red.isolation = 0 ∧
          t.red.silence = (if intervalOpen e then s.red.silence else 0) ∧ t.isolated = false ∧
          t.red.lifeReady = (if f.typ = 5 then bit (beNat (slice f.body 1 1)) 0 else s.red.partner.ready) ∧
          t.red.sawExec = (s.red.sawExec || f.typ == 1 || bit (beNat (slice f.body 1 1)) 1)) ∧
      (modSrc f.src = none → ∃ t, exec i s = .next t ∧ viol t Reg.FGR_P_VIOL_rogue ∧
        flag t (Reg.FGR_RING_ALARM (p.val / 2)) Reg.FGR_RING_ALARM_rogue = true)) ∧
    (f.typ = 5 → modSrc f.src = some (ownId s, otherPort p) → ∃ t, exec (.ringCricketReceive n p ok l) s = .next t ∧ counted t ∧
      t.fgr = { s.fgr with crkBack := s.fgr.crkBack ||| BitVec.ofNat 12 (2 ^ p.val), closed := s.fgr.closed ||| BitVec.ofNat 6 (2 ^ (p.val / 2)) } ∧
      t.red = s.red) ∧
    ((f.typ = 6 ∨ f.typ = 7) → modSrc f.src = none →
      let addr := beNat (slice f.body 0 2)
      let tag := if f.typ = 6 then beNat (slice f.body 2 2) else 0x10000 + beNat (slice f.body 2 1)
      let fresh := s.fgr.recent.filter fun z => decide (e.time.c < z.2.2.2 + 250000)
      ∀ w, s.img.staAt (p.val / 2) addr = some w →
        (inEvents e p addr l.length x = false → ∃ t, exec (.paramDiagReceive n p ok l) s = .next t ∧ viol t Reg.FGR_P_VIOL_slot) ∧
        (inEvents e p addr l.length x = true → (∀ z ∈ fresh, ¬(z.1 = p.val / 2 ∧ z.2.1 = addr ∧ z.2.2.1 = tag)) →
          (f.typ = 6 → beNat (slice f.body 4 1) = 3 → s.fgr.tags.contains (p.val / 2, addr, tag) = true) →
          ∃ t, exec (.paramDiagReceive n p ok l) s = .next t ∧ counted t ∧ t.fgr.recent = (p.val / 2, addr, tag, e.time.c) :: fresh ∧
            t.que[(⟨12 + p.val, by omega⟩ : Fin 128)] = (portDeliver p l e).que[(⟨12 + p.val, by omega⟩ : Fin 128)] ∧
            (f.typ = 7 → beNat (slice f.body 2 1) = 2 →
              let r := s.img.sta w.1
              let same : Prop := (r.vendor = 0 ∨ r.vendor = beNat (slice f.body 4 4)) ∧ (r.product = 0 ∨ r.product = beNat (slice f.body 8 4)) ∧
                (r.hold = 0 ∨ r.hold = beNat (slice f.body 20 4))
              (same → (staOf t w.1).idOk = true ∧ (staOf t w.1).idMismatch = false) ∧
              (¬same → (staOf t w.1).idMismatch = true ∧ (staOf t w.1).st = .lost))))

/-! ### Time, captures, triggers -/

/-- A write of TIME_INC_HI applies the rate, within the bound of the mode; a write of TIME_STEP_HI steps local time, in STEP_SLEW only when
armed (R302, R303). -/
def Obligations.TimeIsSteeredByRateAndStep : Prop :=
  (∀ (r : Req) (v : Word) (s : State), Inv s → s.held = false →
    (Granted r .write Reg.TIME_INC_LO s → ∃ t, exec (.registerWrite r Reg.TIME_INC_LO ⟨4, false⟩ (v.setWidth 64)) s = .next t ∧ getR t Reg.TIME_INC_LO = v ∧
      RegsBut [Reg.TIME_INC_LO] s t ∧ t = { written r s with regs := t.regs }) ∧
    (Granted r .write Reg.TIME_INC_HI s →
      let want := (getR s Reg.TIME_INC_LO).toNat + 2 ^ 32 * (v.toNat % 2 ^ 16)
      let bound := if flag s Reg.TIME_CTRL Reg.TIME_CTRL_mode then 439804651 else 4398046511
      let inc := max (2 ^ 42 - bound) (min (2 ^ 42 + bound) want)
      let now' := (entry r.t s).time
      ∃ t, exec (.timeRateChange r v) s = .next t ∧ t.time = { now' with ab := now'.a now'.c, cb := now'.c, inc := inc } ∧
        getF t Reg.TIME_INC_HI Reg.TIME_INC_HI_value = v.toNat % 2 ^ 16 ∧
        (inc ≠ want → flag t Reg.TIME_STATUS Reg.TIME_STATUS_inc_clamped = true) ∧
        (inc = want → getR t Reg.TIME_STATUS = getR s Reg.TIME_STATUS) ∧
        RegsBut [Reg.TIME_INC_HI, Reg.TIME_STATUS] s t ∧ t = { written r s with regs := t.regs, time := t.time }) ∧
    (Granted r .write Reg.TIME_STEP_HI s →
      let slew := flag s Reg.TIME_CTRL Reg.TIME_CTRL_mode
      let armed := flag s Reg.TIME_CTRL Reg.TIME_CTRL_arm
      ∃ t, exec (.timeStep r v) s = .next t ∧ t.time.c = (entry r.t s).time.c ∧ t.time.inc = s.time.inc ∧ t.time.ab = s.time.ab ∧ t.time.cb = s.time.cb ∧
        ((slew = false ∨ armed = true) →
          t.time.off = s.time.off + BitVec.ofNat 64 ((getR s Reg.TIME_STEP_LO).toNat + 2 ^ 32 * v.toNat) ∧
          getF t Reg.TIME_STATUS Reg.TIME_STATUS_steps = (getF s Reg.TIME_STATUS Reg.TIME_STATUS_steps + 1) % 256 ∧
          flag t Reg.TIME_CTRL Reg.TIME_CTRL_mode = slew ∧ flag t Reg.TIME_CTRL Reg.TIME_CTRL_arm = (armed && !slew) ∧
          RegsOut [0x10, 0x30, 0x31] s t ∧ t = { written r s with regs := t.regs, time := t.time }) ∧
        (slew = true → armed = false → flag t Reg.TIME_STATUS Reg.TIME_STATUS_step_refused = true ∧
          getF t Reg.TIME_STATUS Reg.TIME_STATUS_refused_cnt = min (getF s Reg.TIME_STATUS Reg.TIME_STATUS_refused_cnt + 1) 255 ∧
          RegsBut [Reg.TIME_STATUS] s t ∧ t = { written r s with regs := t.regs })) ∧
    (Granted r .write Reg.TIME_CTRL s →
      ∃ t, exec (.timeCtrlWrite r v) s = .next t ∧ flag t Reg.TIME_CTRL Reg.TIME_CTRL_mode = v.getLsbD 0 ∧
        flag t Reg.TIME_CTRL Reg.TIME_CTRL_arm = (flag s Reg.TIME_CTRL Reg.TIME_CTRL_arm || v.getLsbD 1 ||
          (v.getLsbD 0 && !flag s Reg.TIME_CTRL Reg.TIME_CTRL_mode)) ∧
        RegsBut [Reg.TIME_CTRL] s t ∧ t = { written r s with regs := t.regs })) ∧
  flag State.reset Reg.TIME_CTRL Reg.TIME_CTRL_mode = true ∧ flag State.reset Reg.TIME_CTRL Reg.TIME_CTRL_arm = true

/-- Captures keep the instant of their event, ARMED only in a window; a trigger that is due fires, marks itself and acts on its target (R307,
R311, R316, R317, R349). -/
def Obligations.CapturesAndTriggersActAtTheirInstants : Prop :=
  (∀ (r : Req) (p : Fin 12) (s : State), Inv s → Granted r .read (Reg.PTP_TXTS_HI p) s → capture? s r.m (Reg.PTP_TXTS_HI p) = none →
    exec (.txtsPop r p) s = .next { written r s with
      resp := .data (match s.time.txts[p] with
        | [] => 0
        | x :: _ => (x.ts >>> 32).setWidth 32)
      time := { (entry r.t s).time with txts := s.time.txts.set p s.time.txts[p].tail } }) ∧
  (∀ (n : Nat) (c : Fin 16) (s : State), Inv s → s.held = false →
    let taken := fun (i : Instr) (x : Int) => ∃ t, exec i s = .next t ∧
      getR t (Reg.TIME_CAP_LO c) = BitVec.ofNat 32 (unsgn 64 x) ∧ getF t (Reg.TIME_CAP_HI c) Reg.TIME_CAP_HI_wrap = unsgn 64 x / 2 ^ 32 % 2 ^ 16 ∧
      flag t (Reg.TIME_CAP_HI c) Reg.TIME_CAP_HI_valid = true ∧
      getF t (Reg.TIME_CAP_HI c) Reg.TIME_CAP_HI_seq = (getF s (Reg.TIME_CAP_HI c) Reg.TIME_CAP_HI_seq + 1) % 256 ∧
      RegsBut [Reg.TIME_CAP_LO c, Reg.TIME_CAP_HI c] s t ∧ t = { tick n s with regs := t.regs, time := t.time } ∧
      let within := s.time.caps[c].openAt.any fun o => decide (o ≤ x) && decide (x < s.time.caps[c].closeAt)
      t.time = { (tick n s).time with
        caps := if within then s.time.caps.set c { s.time.caps[c] with took := true } else s.time.caps }
    (∀ x, capStamp s c = some x →
      (flag s (Reg.TIME_CAP_CFG c) Reg.TIME_CAP_CFG_mode = false → taken (.captureEvent n c) x) ∧
      (flag s (Reg.TIME_CAP_CFG c) Reg.TIME_CAP_CFG_mode = true → s.time.caps[c].openAt = none → exec (.captureEvent n c) s = .next (tick n s)) ∧
      (∀ o, flag s (Reg.TIME_CAP_CFG c) Reg.TIME_CAP_CFG_mode = true → s.time.caps[c].openAt = some o →
        (o ≤ x → x < s.time.caps[c].closeAt → s.time.caps[c].took = false → taken (.captureEvent n c) x) ∧
        ((x < o ∨ s.time.caps[c].closeAt ≤ x ∨ s.time.caps[c].took = true) → exec (.captureEvent n c) s = .next (tick n s)))) ∧
    (∀ o, s.time.caps[c].openAt = some o → s.time.caps[c].closeAt ≤ now (entry n s) → ∃ t, exec (.captureWindowClose n c) s = .next t ∧
      flag t (Reg.TIME_CAP_HI c) Reg.TIME_CAP_HI_missed = (if flag s (Reg.TIME_CAP_CFG c) Reg.TIME_CAP_CFG_mode then !s.time.caps[c].took
        else flag s (Reg.TIME_CAP_HI c) Reg.TIME_CAP_HI_missed) ∧ RegsBut [Reg.TIME_CAP_HI c] s t ∧
      t = { tick n s with regs := t.regs, time := { (tick n s).time with caps := s.time.caps.set c {} } })) ∧
  (∀ (r : Req) (c : Fin 16) (v : Word) (s : State), Inv s → Granted r .write (Reg.TIME_CAP_CFG c) s →
    ∃ t, exec (.captureSnap r c v) s = .next t ∧ getF t (Reg.TIME_CAP_CFG c) Reg.TIME_CAP_CFG_src = v.toNat % 64 ∧
      getF t (Reg.TIME_CAP_CFG c) Reg.TIME_CAP_CFG_edge = v.toNat / 256 % 4 ∧ flag t (Reg.TIME_CAP_CFG c) Reg.TIME_CAP_CFG_mode = v.getLsbD 12 ∧
      (v.getLsbD 16 = false → RegsBut [Reg.TIME_CAP_CFG c] s t ∧ t = { written r s with regs := t.regs }) ∧
      (v.getLsbD 16 = true → v.getLsbD 12 = false → getR t (Reg.TIME_CAP_LO c) = BitVec.ofNat 32 (unsgn 64 (now (entry r.t s))) ∧
        flag t (Reg.TIME_CAP_HI c) Reg.TIME_CAP_HI_valid = true ∧
        RegsBut [Reg.TIME_CAP_CFG c, Reg.TIME_CAP_LO c, Reg.TIME_CAP_HI c] s t ∧ t = { written r s with regs := t.regs, time := t.time }) ∧
      (v.getLsbD 16 = true → v.getLsbD 12 = true →
        let u := s.time.caps[c]
        let x := now (entry r.t s)
        if u.openAt.any (fun o => decide (o ≤ x) && decide (x < u.closeAt) && !u.took)
        then getR t (Reg.TIME_CAP_LO c) = BitVec.ofNat 32 (unsgn 64 x) ∧
          flag t (Reg.TIME_CAP_HI c) Reg.TIME_CAP_HI_valid = true ∧ t.time.caps = s.time.caps.set c { u with took := true } ∧
          RegsBut [Reg.TIME_CAP_CFG c, Reg.TIME_CAP_LO c, Reg.TIME_CAP_HI c] s t ∧ t = { written r s with regs := t.regs, time := t.time }
        else RegsBut [Reg.TIME_CAP_CFG c] s t ∧ t.time.caps = s.time.caps ∧ t = { written r s with regs := t.regs, time := t.time })) ∧
  (∀ (n : Nat) (i : Fin 16) (x : Int) (s : State), Inv s → s.held = false → s.time.trigs[i].next = some x → x ≤ now (entry n s) →
    ¬(s.mode = .boot ∧ flag s (Reg.TTRG_CTL i) Reg.TTRG_CTL_image = true) →
    let here := now (entry n s)
    let arg := (getR s (Reg.TTRG_ARG i)).toNat
    let w : Int := (getR s (Reg.TTRG_WIDTH i)).toNat
    let target := getF s (Reg.TTRG_CTL i) Reg.TTRG_CTL_target
    let c : Fin 32 := ⟨arg % 32, Nat.mod_lt _ (by decide)⟩
    let k : Fin 16 := ⟨arg % 16, Nat.mod_lt _ (by decide)⟩
    ∃ t, exec (.triggerFire n i) s = .next t ∧ flag t (Reg.TTRG_STATUS i) Reg.TTRG_STATUS_fired = true ∧
      (s.time.trigs[i].late = true → flag t (Reg.TTRG_STATUS i) Reg.TTRG_STATUS_late = true) ∧
      getR t (Reg.TTRG_LAST_LO i) = BitVec.ofNat 32 (unsgn 64 here) ∧ getR t (Reg.TTRG_LAST_HI i) = BitVec.ofNat 32 (unsgn 64 here / 2 ^ 32) ∧
      getF t (Reg.TTRG_COUNT i) Reg.TTRG_COUNT_fires = (getF s (Reg.TTRG_COUNT i) Reg.TTRG_COUNT_fires + 1) % 65536 ∧
      (∀ j, j ≠ i → t.time.trigs[j] = s.time.trigs[j]) ∧
      t.time.trigs[i] = (match s.time.trigs[i].resume with
        | z :: l => { next := some z.1, late := z.2, resume := l }
        | [] => { next := match getF s (Reg.TTRG_CTL i) Reg.TTRG_CTL_timing with
            | 2 => some (x + (getR s (Reg.TTRG_PERIOD i)).toNat)
            | 3 => trigNextFrom s i (x + 1)
            | _ => none }) ∧
      (target = 1 → ∀ u : Fin 8, t.io.ai[u] = if arg.testBit u = true ∧ aiBusy (entry n s) u = false ∧ s.io.ai[u].startC ≠ some (entry n s).time.c
        then { s.io.ai[u] with conv := some here, startC := some (entry n s).time.c } else s.io.ai[u]) ∧
      (target = 2 → executing s = true → doHeldOff s c = false → t.io.dout[c].stage = true ∧
        t.io.dout[c].pulseEnd = some (match s.io.dout[c].pulseEnd with
          | some y => max y (here + w)
          | none => here + w)) ∧
      (target = 2 → (executing s = false ∨ doHeldOff s c = true) → flag t (Reg.TTRG_STATUS i) Reg.TTRG_STATUS_suppressed = true ∧ t.io = s.io) ∧
      (target = 3 → t.time.caps[k] = (match s.time.caps[k].openAt with
        | some _ => { s.time.caps[k] with closeAt := max s.time.caps[k].closeAt (here + w) }
        | none => { openAt := some here, closeAt := here + w, took := false })) ∧
      RegsBut [Reg.TTRG_STATUS i, Reg.TTRG_LAST_LO i, Reg.TTRG_LAST_HI i, Reg.TTRG_COUNT i] s t ∧
      t = { tick n s with regs := t.regs, time := t.time, io := t.io }) ∧
  (∀ (n : Nat) (c : Fin 32) (x : Int) (s : State), Inv s → s.held = false → s.io.dout[c].pulseEnd = some x → x ≤ now (entry n s) →
    ∃ t, exec (.doPulseEnd n c) s = .next t ∧ t.io.dout[c].pulseEnd = none ∧ t.io.dout[c].stage = (s.io.dout[c].cmd && !doHeldOff s c) ∧
      (∀ d, d ≠ c → t.io.dout[d] = s.io.dout[d]) ∧ t = { tick n s with io := { s.io with dout := t.io.dout } })

/-! ### CAN -/

/-- Class C, queue and reference frames start on an idle bus when their rules allow; each end, miss and cancel leaves the result of Table 13.3
(R326, R328, R330, R331, R332, R337, R338, Table 13.3). -/
def Obligations.CanFramesAreSent : Prop :=
  (∀ (n : Nat) (u : Fin 16) (b : Fin 32) (f : CanFrame) (s : State), Inv s → s.held = false → s.can[u].txb[b].frame = some f →
    let e := entry n s
    let x := s.can[u].txb[b]
    let starts := fun (i : Instr) => ∃ t, exec i s = .next t ∧ t.can[u].txb[b] = { x with onBus := true, sof := now e } ∧
      getF t (Reg.CAN_TXB_STAT u b) Reg.CAN_TXB_STAT_attempts = min (getF s (Reg.CAN_TXB_STAT u b) Reg.CAN_TXB_STAT_attempts + 1) 255 ∧
      (∀ d, d ≠ b → t.can[u].txb[d] = s.can[u].txb[d]) ∧ RegsBut [Reg.CAN_TXB_STAT u b] s t ∧
      t = { tick n s with regs := t.regs, can := t.can, out := .can u f :: s.out }
    (canOwner s = true → busIdleNow s u = true → getF s (Reg.CAN_TXB_STAT u b) Reg.CAN_TXB_STAT_owner = 1 → x.opensAt ≤ now e →
      now e + canLen s u f ≤ x.bound → starts (.canWindowOpen n u b true)) ∧
    (x.onBus = false → getF s (Reg.CAN_TXB_STAT u b) Reg.CAN_TXB_STAT_owner = 1 → x.bound < now e + canLen s u f →
      ∃ t, exec (.canMissedWindow n u b) s = .next t ∧ t.can[u].txb[b] = { x with frame := none } ∧
        getF t (Reg.CAN_TXB_STAT u b) Reg.CAN_TXB_STAT_result = 5 ∧ flag t (Reg.CAN_TXB_STAT u b) Reg.CAN_TXB_STAT_pend = false ∧
        flag t (Reg.CAN_ALARM u) Reg.CAN_ALARM_window_missed = true ∧ (∀ d, d ≠ b → t.can[u].txb[d] = s.can[u].txb[d]) ∧
        RegsBut [Reg.CAN_TXB_STAT u b, Reg.CAN_ALARM u] s t ∧ t = { tick n s with regs := t.regs, can := t.can }) ∧
    (s.can[u].st ≠ .integrating → qTake (canTxQ u) s = none → bestQueue s u = some (b, f) → canQueueOk s u = true → busIdleNow s u = true →
      (∀ y, nextSpan e u s.img.msgCls = some y → now e + canLen s u f ≤ y) →
      ((readDesc s (x.desc.getD 0)).cls = 2 → canBUsed e u + canLen s u f ≤ (getR s (Reg.CAN_B_TIME u)).toNat) →
      starts (.canQueueFrameStart n u)) ∧
    (∀ (how : CanEnd) (tecUp : BitVec 9) (recUp : BitVec 8), ((List.finRange 32).find? fun d => s.can[u].txb[d].onBus) = some b →
      let a := Reg.CAN_TXB_STAT u b
      let req := flag s a Reg.CAN_TXB_STAT_cancel_req
      let counts := fun (t : State) (tec rec : Nat) => canMonitor s u = false →
        getR t (Reg.CAN_ERRCNT u) = (Reg.CAN_ERRCNT_rec.mk' rec ||| Reg.CAN_ERRCNT_tec.mk' tec)
      ∃ t, exec (.canFrameEnd n u how tecUp recUp) s = .next t ∧
        (¬((how = .error ∨ how = .clash) ∧ goesBusOff s u tecUp.toNat = true) → (∀ d, d ≠ b → t.can[u].txb[d] = s.can[u].txb[d]) ∧
          (x.desc = none → x.later = none → t.can[u].txb[b].frame = none ∧ t.can[u].txb[b].onBus = false ∧ flag t a Reg.CAN_TXB_STAT_pend = false ∧
            getF t a Reg.CAN_TXB_STAT_result = (match how with
              | .sent => 1 | .lostArb => 2 | .error => 3 | .clash => 7) ∧
            (req = true → getF t a Reg.CAN_TXB_STAT_cancel = if how = .sent then 2 else 1)) ∧
          (∀ g o y, x.desc = none → x.later = some (g, o, y) → t.can[u].txb[b] = { frame := some g, opensAt := o, bound := y } ∧
            flag t a Reg.CAN_TXB_STAT_pend = true ∧ getF t a Reg.CAN_TXB_STAT_attempts = 0 ∧ getF t a Reg.CAN_TXB_STAT_result = (match how with
              | .sent => 1 | .lostArb => 2 | .error => 3 | .clash => 7)) ∧
          (x.desc.isSome = true → how ≠ .sent → req = false → canQueueOk s u = true → t.can[u].txb[b] = { x with onBus := false } ∧ t.que = s.que ∧
            getR t a = getR s a) ∧
          (x.desc.isSome = true → how ≠ .sent → req = true → x.later = none → t.can[u].txb[b].frame = none ∧
            getF t a Reg.CAN_TXB_STAT_result = (if how = .lostArb then 4 else 3) ∧ getF t a Reg.CAN_TXB_STAT_cancel = 1) ∧
          (x.desc.isSome = true → how = .sent → x.later = none → t.can[u].txb[b].frame = none ∧ getF t a Reg.CAN_TXB_STAT_result = 1)) ∧
        (how = .sent → counts t (canTec s u - 1) (canRecCnt s u)) ∧ (how = .lostArb → getR t (Reg.CAN_ERRCNT u) = getR s (Reg.CAN_ERRCNT u)) ∧
        ((how = .error ∨ how = .clash) → counts t (min 256 (canTec s u + tecUp.toNat)) (min 255 (canRecCnt s u + recUp.toNat))) ∧
        (how = .sent → getF s a Reg.CAN_TXB_STAT_owner = 2 → getR t (Reg.CAN_REF_MARK_LO u) = BitVec.ofNat 32 (unsgn 64 x.sof) ∧
          getR t (Reg.CAN_REF_MARK_HI u) = BitVec.ofNat 32 (unsgn 64 x.sof / 2 ^ 32)) ∧
        ((how = .error ∨ how = .clash) → goesBusOff s u tecUp.toNat = true → getF t a Reg.CAN_TXB_STAT_result = 6 ∧
          flag t (Reg.CAN_ALARM u) Reg.CAN_ALARM_bus_off = true ∧ (∀ d : Fin 32, t.can[u].txb[d].frame = none) ∧
          t.can[u].st = if flag s (Reg.CAN_CFG u) Reg.CAN_CFG_auto_recover then .recovering else .busOff))) ∧
  (∀ (n : Nat) (u : Fin 16) (b : Fin 32) (f : CanFrame) (s : State), Inv s → s.held = false →
    let e := entry n s
    let v := canFill u 32 (canSync u e)
    let isB := (readDesc v (v.can[u].txb[b].desc.getD 0)).cls = 2
    let used := canBUsed v u + canLen v u f
    bestQueue v u = some (b, f) → canQueueOk v u = true → busIdleNow v u = true → (∀ y, nextSpan v u s.img.msgCls = some y → now e + canLen v u f ≤ y) →
    (isB → used ≤ (getR v (Reg.CAN_B_TIME u)).toNat) →
    exec (.canQueueFrameStart n u) s = .next { txStart u b f
      (if isB then setCan v u { v.can[u] with bUsed := used, bPeriod := fastPeriod v } else v) with pending := s.pending }) ∧
  (∀ (n : Nat) (u : Fin 16) (ref : CanRef) (s : State), Inv s → s.held = false → s.img.canRef u = some ref → canOwner s = true →
    busIdleNow s u = true → s.can[u].txb[0].frame = none →
    let e := entry n s
    let p : Int := (max 1 (s.img.period ref.cls) : Nat)
    let t0 := (now e - ref.offset) / p * p
    ((edgeAt e (t0 + ref.offset) = false ∨ s.can[u].refT0 = some t0) → exec (.canReferenceSend n u) s = .next (tick n s)) ∧
    (edgeAt e (t0 + ref.offset) = true → s.can[u].refT0 ≠ some t0 →
      (refBlocked e u = true → ∃ t, exec (.canReferenceSend n u) s = .next t ∧ getF t (Reg.CAN_REF_STATUS u) Reg.CAN_REF_STATUS_role = 2 ∧
        flag t (Reg.CAN_ALARM u) Reg.CAN_ALARM_ref_backup = true ∧ RegsBut [Reg.CAN_REF_STATUS u, Reg.CAN_ALARM u] s t ∧
        t = { tick n s with regs := t.regs, can := s.can.set u { s.can[u] with refT0 := some t0 } }) ∧
      (refBlocked e u = false →
        let cc := ((t0 / p) % 2 ^ 32).toNat % (ref.ccMax + 1)
        let f : CanFrame := { id := BitVec.ofNat 29 (ref.id + ref.prio), ide := ref.ide, rtr := false, fdf := false, brs := false, esi := false, dlc := 1
                              data := [BitVec.ofNat 8 (cc % 64)] }
        ∃ t, exec (.canReferenceSend n u) s = .next t ∧ t.can[u].txb[0] = { frame := some f, onBus := true, sof := now e } ∧
          t.can[u].refT0 = some t0 ∧ getF t (Reg.CAN_REF_STATUS u) Reg.CAN_REF_STATUS_role = 1 ∧
          RegsBut [Reg.CAN_REF_STATUS u, Reg.CAN_TXB_STAT u 0] s t ∧
          t = { tick n s with regs := t.regs, can := t.can, out := .can u f :: s.out }))) ∧
  (∀ (r : Req) (u : Fin 16) (mask : Word) (s : State), Inv s → Granted r .write (Reg.CAN_TXB_CANCEL u) s →
    ∃ t, exec (.canCancel r u mask) s = .next t ∧ t.resp = .done ∧ ∀ b : Fin 32,
      let a := Reg.CAN_TXB_STAT u b
      let x := s.can[u].txb[b]
      let owner := getF s a Reg.CAN_TXB_STAT_owner
      let asked := mask.getLsbD b = true ∧ flag s a Reg.CAN_TXB_STAT_cancel_req = false
      (¬asked → getR t a = getR s a ∧ t.can[u].txb[b] = x) ∧
      (asked → (owner = 1 ∨ owner = 2) → getF t a Reg.CAN_TXB_STAT_cancel = 4 ∧ t.can[u].txb[b] = x) ∧
      (asked → owner ≠ 1 → owner ≠ 2 → x.frame = none → getF t a Reg.CAN_TXB_STAT_cancel = 3 ∧ t.can[u].txb[b] = x) ∧
      (asked → owner ≠ 1 → owner ≠ 2 → x.frame.isSome = true → x.onBus = true → flag t a Reg.CAN_TXB_STAT_cancel_req = true ∧ t.can[u].txb[b] = x) ∧
      (asked → owner ≠ 1 → owner ≠ 2 → x.frame.isSome = true → x.onBus = false → getF t a Reg.CAN_TXB_STAT_cancel = 1 ∧
        getF t a Reg.CAN_TXB_STAT_result = 4 ∧ flag t a Reg.CAN_TXB_STAT_pend = false ∧ t.can[u].txb[b] = {}))

/-- CAN_FRAME_RECEIVE feeds the ring and the message; errors are counted and confined; recovery; the receive window locks, releases and times
out (R333, R334, R335, R336, R338, Table 13.4). -/
def Obligations.CanFramesAreReceivedAndFaultsConfined : Prop :=
  (∀ (n sof : Nat) (u : Fin 16) (f : CanFrame) (s : State), Inv s → s.held = false → s.mode ≠ .boot → canMode s u ≠ 0 →
    (canOnline s u = true ∨ s.can[u].st = .integrating) →
    (f.fdf = true → canMode s u = 1 → ∃ t, exec (.canFrameReceive n u sof f) s = .next t ∧ flag t (Reg.CAN_ALARM u) Reg.CAN_ALARM_proto_exc = true ∧
      getF t (Reg.CAN_ERRS u) Reg.CAN_ERRS_proto = min (getF s (Reg.CAN_ERRS u) Reg.CAN_ERRS_proto + 1) 255 ∧
      RegsBut [Reg.CAN_ALARM u, Reg.CAN_ERRS u] s t ∧ t = { tick n s with regs := t.regs, can := s.can.set u { s.can[u] with
        st := if s.can[u].st = .integrating then .errorActive else s.can[u].st } }) ∧
    (¬(f.fdf = true ∧ canMode s u = 1) →
      let isRefMsg : Bool := match s.img.canRef u with
        | some r => isRef r f && !f.data.isEmpty && !f.rtr
        | none => false
      let d := rxDeliver (canRxQ u) false (frameRecord f false isRefMsg (now (entry n s))) [] (canSync u (entry n s))
      ∃ t, exec (.canFrameReceive n u sof f) s = .next t ∧ t.mode = s.mode ∧
      RegsOut [0x00, 0x04, 0x40, 0x80] s t ∧ (∀ v, v ≠ u → t.can[v] = s.can[v]) ∧ t.store = d.1.store ∧ t.que = d.1.que ∧
      (d.2 = true → t.can[u].held = s.can[u].held ++ [descAddrOf s (canRxQ u) (qHead s (canRxQ u))]) ∧
      (d.2 = false → flag t (Reg.CAN_ALARM u) Reg.CAN_ALARM_rx_drop = true ∧ t.can[u].held = s.can[u].held) ∧
      (s.que[canRxQ u].fly = [] → d.2 = false ∧ t.store = s.store ∧ t.que = s.que) ∧
      (canMonitor s u = false → canRecCnt s u < 128 → getR t (Reg.CAN_ERRCNT u) =
        (Reg.CAN_ERRCNT_rec.mk' (canRecCnt s u - 1) ||| Reg.CAN_ERRCNT_tec.mk' (min 256 (canTec s u)))) ∧
      (∀ r, isRefMsg = true → s.img.canRef u = some r →
        let m := unsgn 64 ((entry n s).time.localAt sof)
        getR t (Reg.CAN_REF_MARK_LO u) = BitVec.ofNat 32 m ∧ getR t (Reg.CAN_REF_MARK_HI u) = BitVec.ofNat 32 (m / 2 ^ 32) ∧
        t.can[u].refAt = some (now (entry n s))) ∧
      (∀ m k, ((s.img.canMsgs.zipIdx).find? fun m => !f.rtr && !m.1.tx && m.1.unit == u.val && m.1.id == f.id.toNat && m.1.ide == f.ide && m.1.fdf == f.fdf) =
          some (m, k) →
        (m.len = f.data.length → ∃ y, t.canRx.get? k = some y ∧ y.cur = some (now (entry n s), f.data) ∧
          y.prev = ((s.canRx.get? k).getD {}).cur) ∧
        (m.len ≠ f.data.length → t.canRx = s.canRx ∧
          getF t (Reg.CAN_ERRS u) Reg.CAN_ERRS_len_mismatch = min (getF s (Reg.CAN_ERRS u) Reg.CAN_ERRS_len_mismatch + 1) 255)))) ∧
  (∀ (n : Nat) (u : Fin 16) (err : CanErr) (tecUp : BitVec 9) (recUp : BitVec 8) (s : State), Inv s → s.held = false → s.mode ≠ .boot → canMode s u ≠ 0 →
    let tec := min 256 (canTec s u + tecUp.toNat)
    let rc := min 255 (canRecCnt s u + recUp.toNat)
    ∃ t, exec (.canBusError n u err tecUp recUp) s = .next t ∧ t.mode = s.mode ∧ (∀ v, v ≠ u → t.can[v] = s.can[v]) ∧
      RegsOut [0x00, 0x04, 0x40, 0x80] s t ∧
      (err = .bit → getF t (Reg.CAN_ERRS u) Reg.CAN_ERRS_bit = min (getF s (Reg.CAN_ERRS u) Reg.CAN_ERRS_bit + 1) 255) ∧
      (err ≠ .bit → getF t (Reg.CAN_ERRS u) Reg.CAN_ERRS_proto = min (getF s (Reg.CAN_ERRS u) Reg.CAN_ERRS_proto + 1) 255) ∧
      (err = .protocolException → flag t (Reg.CAN_ALARM u) Reg.CAN_ALARM_proto_exc = true) ∧
      (canMonitor s u = true → getR t (Reg.CAN_ERRCNT u) = 0 ∧ (canOnline s u = true → t.can[u] = { s.can[u] with st := .errorActive })) ∧
      (canMonitor s u = false → getR t (Reg.CAN_ERRCNT u) = (Reg.CAN_ERRCNT_rec.mk' rc ||| Reg.CAN_ERRCNT_tec.mk' tec) ∧
        (canOnline s u = false → t.can = s.can) ∧
        (canOnline s u = true → tec < 128 → rc < 128 → t.can[u] = { s.can[u] with st := .errorActive }) ∧
        (canOnline s u = true → (128 ≤ tec ∨ 128 ≤ rc) → tec < 256 → t.can[u] = { s.can[u] with st := .errorPassive } ∧
          (s.can[u].st ≠ .errorPassive → flag t (Reg.CAN_ALARM u) Reg.CAN_ALARM_error_passive = true)) ∧
        (canOnline s u = true → 256 ≤ tec → flag t (Reg.CAN_ALARM u) Reg.CAN_ALARM_bus_off = true ∧ (∀ b : Fin 32, t.can[u].txb[b].frame = none) ∧
          t.can[u].st = if flag s (Reg.CAN_CFG u) Reg.CAN_CFG_auto_recover then .recovering else .busOff))) ∧
  (∀ (r : Req) (u : Fin 16) (v : Word) (s : State), Inv s → Granted r .write (Reg.CAN_CTRL u) s →
    ∃ t, exec (.canRecover r u v) s = .next t ∧ t.resp = .done ∧ flag t (Reg.CAN_CTRL u) Reg.CAN_CTRL_svc_tx = v.getLsbD 1 ∧
      t.can[u].st = (if v.getLsbD 0 = true ∧ s.can[u].st = .busOff then .recovering else s.can[u].st) ∧ RegsOut [0x00, 0x04, 0x40, 0x80] s t) ∧
  (∀ (n : Nat) (u : Fin 16) (s : State), Inv s → s.held = false →
    (s.can[u].st = .recovering → ∃ t, exec (.canRecoveryDone n u) s = .next t ∧ getR t (Reg.CAN_ERRCNT u) = 0 ∧ RegsBut [Reg.CAN_ERRCNT u] s t ∧
      t = { tick n s with regs := t.regs, can := s.can.set u { s.can[u] with st := .errorActive } }) ∧
    (s.can[u].st = .integrating → exec (.canRecoveryDone n u) s = .next { tick n s with can := s.can.set u { s.can[u] with st := .errorActive } }) ∧
    (∀ m c, s.can[u].lock = some (m, c) →
      (c + 25000 ≤ (entry n s).time.c → ∃ t, exec (.canRxwLockTimeout n u) s = .next t ∧ flag t (Reg.CAN_RX_STATUS u) Reg.CAN_RX_STATUS_lock_timeout = true ∧
        RegsBut [Reg.CAN_RX_STATUS u] s t ∧ t = { tick n s with regs := t.regs, can := s.can.set u { s.can[u] with lock := none } }) ∧
      ((entry n s).time.c < c + 25000 → exec (.canRxwLockTimeout n u) s = .next (tick n s)))) ∧
  (∀ (r : Req) (u : Fin 16) (s : State), Inv s →
    (Granted r .read (Reg.CAN_RXW u 0) s → capture? s r.m (Reg.CAN_RXW u 0) = none →
      (∀ m c, s.can[u].lock = some (m, c) → m ≠ r.m → exec (.canRxwLockRead r u) s = .next { written r s with resp := .busError }) ∧
      ((∀ m c, s.can[u].lock = some (m, c) → m = r.m) → flag s (Reg.CAN_RX_CFG u) Reg.CAN_RX_CFG_window = true → s.can[u].held ≠ [] →
        exec (.canRxwLockRead r u) s = .next { written r s with
          resp := .data (rxwWord s u 0), can := s.can.set u { s.can[u] with lock := some (r.m, (entry r.t s).time.c) } })) ∧
    (∀ c a l, s.can[u].lock = some (r.m, c) → s.can[u].held = a :: l → flag s (Reg.CAN_RX_CFG u) Reg.CAN_RX_CFG_window = true → rxwLast s u < 20 →
      Writable s (canRxQ u) (a + 7) 1 →
      Granted r .read (Reg.CAN_RXW u (rxwLast s u)) s → capture? s r.m (Reg.CAN_RXW u (rxwLast s u)) = none →
      ∃ t, exec (.canRxwReleaseRead r u) s = .next t ∧ t.resp = .data (rxwWord s u (rxwLast s u)) ∧ t.can[u].held = l ∧ t.can[u].lock = none ∧
        (ld t.store (a + 7) 1).testBit 7 = true ∧ (∀ v, v ≠ u → t.can[v] = s.can[v]) ∧ RegsOut [0x80] s t) ∧
    (∀ i : Fin 20, Granted r .read (Reg.CAN_RXW u i) s → capture? s r.m (Reg.CAN_RXW u i) = none → (∀ m c, s.can[u].lock = some (m, c) → m = r.m) →
      (flag s (Reg.CAN_RX_CFG u) Reg.CAN_RX_CFG_window = false ∨ s.can[u].held = [] ∨ (i.val ≠ 0 ∧ s.can[u].lock = none)) →
      exec (.registerReadClear r (Reg.CAN_RXW u i) ⟨4, false⟩) s = .next { written r s with resp := .data (rxwWord s u i) }))

/-! ### Digital I/O -/

/-- An input edge is a crossing, or a level held for the filter time; it is stamped with the compensated crossing plus the filter time, and
counted (R343, R344, R348). -/
def Obligations.InputEdgesCarryCompensatedInstants : Prop :=
  (∀ (n : Nat) (c : Fin 32) (s : State), Inv s → s.held = false →
    let x := s.io.di[c]
    let f : Nat := match getF s (Reg.DIO_CH_CFG c) Reg.DIO_CH_CFG_filter with
      | 1 => 1000 | 2 => 10000 | 3 => 100000 | 4 => 1000000 | 5 => 3000000 | _ => 0
    let late := fun (ts : Int) => (crossingT0 (entry n s)).any fun t0 => executing s && decide (ts < t0)
    let edge := fun (i : Instr) (ts : Int) (rise : Bool) => ∃ t, exec i s = .next t ∧
      t.io.di[c].raw = rise ∧ t.io.di[c].level = rise ∧ t.io.di[c].lastRise = rise ∧ t.io.di[c].cross = none ∧
      (executing s = true → late ts = false → t.io.di[c].wait = x.wait ++ [(ts, rise)] ∧ t.io.di[c].fzLevel = x.fzLevel ∧
        t.io.di[c].fzRises = x.fzRises ∧ t.io.di[c].fzFalls = x.fzFalls ∧ t.io.di[c].fzRise = x.fzRise ∧ t.io.di[c].fzFall = x.fzFall) ∧
      (executing s = false → (∀ e ∈ t.io.di[c].wait, ts < e.1) ∧ t.io.di[c].fzLevel = rise ∧
        (if rise then t.io.di[c].fzRise else t.io.di[c].fzFall) = some ts) ∧
      getR t (Reg.DIO_CH_TS_LO c) = BitVec.ofNat 32 (unsgn 64 ts) ∧ getR t (Reg.DIO_CH_TS_HI c) = BitVec.ofNat 32 (unsgn 64 ts / 2 ^ 32) ∧
      getR t (if rise then Reg.DIO_CH_RISE c else Reg.DIO_CH_FALL c) = getR s (if rise then Reg.DIO_CH_RISE c else Reg.DIO_CH_FALL c) + 1 ∧
      (∀ d, d ≠ c → t.io.di[d] = s.io.di[d]) ∧
      (late ts = false → RegsBut [Reg.DIO_CH_TS_LO c, Reg.DIO_CH_TS_HI c, if rise then Reg.DIO_CH_RISE c else Reg.DIO_CH_FALL c] s t ∧
        t = { tick n s with regs := t.regs, io := { s.io with di := t.io.di } }) ∧
      (∀ t0, crossingT0 (entry n s) = some t0 → late ts = true → t.io.di[c].fzLevel = rise ∧
        (if rise then t.io.di[c].fzRise else t.io.di[c].fzFall) = some ts ∧ (∀ e ∈ t.io.di[c].wait, t0 ≤ e.1) ∧
        let u : State := { tick n s with io := { s.io with di := s.io.di.set c { x with wait := x.wait ++ [(ts, rise)] } } }
        t.prog = (refill t0 (fun e j => (e.kind == 4 || e.kind == 5 || e.kind == 6) && e.unit + j == c.val)
          (setDi u c (freezeDi u.io.di[c] t0))).prog ∧
        t = { tick n s with regs := t.regs, io := { s.io with di := t.io.di }, prog := t.prog, ecc := t.ecc, art := t.art, rcd := t.rcd })
    let only := fun (i : Instr) (y : DiCh) => exec i s = .next { tick n s with io := { s.io with di := s.io.di.set c y } }
    (∀ high, x.raw = high → exec (.diCrossing n c high) s = .next (tick n s)) ∧
    (∀ high, x.raw ≠ high →
      let ts := (now (entry n s) * 16 - (getF s (Reg.DIO_CH_DELAY c) Reg.DIO_CH_DELAY_delay : Int)) / 16
      (s.io.grp[diGrp c].undervolt = true → only (.diCrossing n c high) { x with raw := high, cross := none }) ∧
      (s.io.grp[diGrp c].undervolt = false → f ≠ 0 →
        only (.diCrossing n c high) { x with raw := high, cross := some (ts, (entry n s).time.c) }) ∧
      (s.io.grp[diGrp c].undervolt = false → f = 0 → edge (.diCrossing n c high) ts high)) ∧
    (x.cross = none → exec (.diFilterAccept n c) s = .next (tick n s)) ∧
    (∀ ts k, x.cross = some (ts, k) →
      (4 * ((entry n s).time.c - k) < f → exec (.diFilterAccept n c) s = .next (tick n s)) ∧
      (f ≤ 4 * ((entry n s).time.c - k) → x.raw = x.level → only (.diFilterAccept n c) { x with cross := none }) ∧
      (f ≤ 4 * ((entry n s).time.c - k) → x.raw ≠ x.level → edge (.diFilterAccept n c) (ts + (f : Int)) x.raw))) ∧
  (∀ (n : Nat) (c : Fin 32) (mA : BitVec 16) (readback atLimit : Bool) (junction : Int) (s : State), Inv s → s.held = false →
    let x := s.io.dout[c]
    let here := (entry n s).time.c
    let lasted := fun (k : Option Nat) (d : Nat) => ∃ y, k = some y ∧ y + d ≤ here
    ∃ t, exec (.doDiagSample n c mA readback atLimit junction) s = .next t ∧
      let y := t.io.dout[c]
      y.mA = mA.toNat ∧ y.readback = readback ∧
      y.limSince = since (atLimit && (x.stage || lowSide s c)) x.limSince here ∧
      y.lowSince = since (decide (mA.toNat < 3) && owJudged s c) x.lowSince here ∧ y.highSince = since (decide (3 ≤ mA.toNat)) x.highSince here ∧
      y.rbOnSince = since (readback && !x.stage && extJudged s c) x.rbOnSince here ∧ y.rbOffSince = since (!readback) x.rbOffSince here ∧
      y.okSince = since (x.stage && !atLimit) x.okSince here ∧ y.coolSince = since (x.stage && decide (junction < 150)) x.coolSince here ∧
      (y.overload = true ↔ x.overload = true ∧ ¬lasted y.okSince (msT 100)) ∧ (y.overtemp = true ↔ x.overtemp = true ∧ ¬lasted y.coolSince (msT 100)) ∧
      (y.openWire = true ↔ x.openWire = true ∧ ¬lasted y.highSince (msT 100)) ∧ (y.extDrive = true ↔ x.extDrive = true ∧ ¬lasted y.rbOffSince (msT 1)) ∧
      (y.stage, y.cmd, y.pulseEnd, y.ovlUntil, y.otUntil, y.isoLost) = (x.stage, x.cmd, x.pulseEnd, x.ovlUntil, x.otUntil, x.isoLost) ∧
      t.io.grp[doGrp c] = { s.io.grp[doGrp c] with
        mA := grpCurrent t (doGrp c), highSince := since (decide (7000 < grpCurrent t (doGrp c))) s.io.grp[doGrp c].highSince here } ∧
      (∀ g, g ≠ doGrp c → t.io.grp[g] = s.io.grp[g]) ∧ (∀ d, d ≠ c → t.io.dout[d] = s.io.dout[d]) ∧
      t = { tick n s with io := { s.io with dout := t.io.dout, grp := t.io.grp } })

/-- OVERLOAD and OVERTEMP turn a channel off for 100 ms and latch; its drive returns when no cause holds it; OPEN_WIRE and EXT_DRIVE only tell
(R348, R349, R352). -/
def Obligations.OutputDiagnosticsActOnTheirChannel : Prop :=
  ∀ (n : Nat) (c : Fin 32) (s : State), Inv s → s.held = false →
    let x := s.io.dout[c]
    let here := (entry n s).time.c
    let diag := Reg.DIO_CH_DIAG (32 + c)
    let judged := flag s (Reg.DIO_CH_CFG (32 + c)) Reg.DIO_CH_CFG_paralleled = false ∧ s.io.grp[doGrp c].undervolt = false
    let hold : Nat := if flag s (Reg.DIO_CH_CFG (32 + c)) Reg.DIO_CH_CFG_mode then 250000 else 1250000
    let latched := fun (t : State) (f : Fld) => flag t diag f = true ∧ getR t diag &&& ~~~(f.mk' 1) = getR s diag &&& ~~~(f.mk' 1) ∧
      RegsBut [diag] s t ∧ (∀ d, d ≠ c → t.io.dout[d] = s.io.dout[d]) ∧
      t = { tick n s with regs := t.regs, io := { s.io with dout := t.io.dout } }
    (∀ k, x.limSince = some k → k + hold ≤ here → ∃ t, exec (.overload n c) s = .next t ∧ t.io.dout[c].overload = true ∧
      t.io.dout[c].ovlUntil = some (here + 25000000) ∧ t.io.dout[c].limSince = none ∧ t.io.dout[c].stage = false ∧ t.io.dout[c].pulseEnd = none ∧
      t.io.dout[c].cmd = x.cmd ∧ t.io.dout[c].otUntil = x.otUntil ∧ latched t Reg.DIO_CH_DIAG_overload) ∧
    ((∀ k, x.limSince = some k → here < k + hold) → exec (.overload n c) s = .next (tick n s)) ∧
    (∃ t, exec (.overtemp n c) s = .next t ∧ t.io.dout[c].overtemp = true ∧
      t.io.dout[c].otUntil = some (x.otUntil.getD (here + 25000000)) ∧ t.io.dout[c].stage = false ∧ t.io.dout[c].pulseEnd = none ∧
      t.io.dout[c].cmd = x.cmd ∧ t.io.dout[c].ovlUntil = x.ovlUntil ∧ latched t Reg.DIO_CH_DIAG_overtemp) ∧
    (∀ junction : Int, ∃ t, exec (.doOffPeriodEnd n c junction) s = .next t ∧
      t.io.dout[c].ovlUntil = (if x.ovlUntil.any (· ≤ here) then none else x.ovlUntil) ∧
      t.io.dout[c].otUntil = (if x.otUntil.any (· ≤ here) then if junction < 135 then none else some (here + 25000000) else x.otUntil) ∧
      (t.io.dout[c].cmd, t.io.dout[c].pulseEnd, t.io.dout[c].overload, t.io.dout[c].overtemp) = (x.cmd, x.pulseEnd, x.overload, x.overtemp) ∧
      t.io.dout[c].stage = doDrive t c ∧ (x.ovlUntil.isSome = true → t.io.dout[c].stage = (x.cmd && !doHeldOff t c)) ∧
      (∀ d, d ≠ c → t.io.dout[d] = s.io.dout[d]) ∧ t = { tick n s with io := { s.io with dout := t.io.dout } }) ∧
    (∀ k, judged → flag s (Reg.DIO_CH_CFG (32 + c)) Reg.DIO_CH_CFG_ow_en = true → x.lowSince = some k → k + 25000000 ≤ here →
      ∃ t, exec (.openWire n c) s = .next t ∧ t.io.dout[c] = { x with openWire := true } ∧ latched t Reg.DIO_CH_DIAG_open_wire) ∧
    (∀ k, judged → x.rbOnSince = some k → k + 250000 ≤ here →
      ∃ t, exec (.extDrive n c) s = .next t ∧ t.io.dout[c] = { x with extDrive := true } ∧ latched t Reg.DIO_CH_DIAG_ext_drive) ∧
    (¬judged → exec (.openWire n c) s = .next (tick n s) ∧ exec (.extDrive n c) s = .next (tick n s))

/-- SAG, UNDERVOLT and GROUP_OVL raise alarms and latch in the group's channels; the last two turn a DO group off until its policy lets it
drive again (R344, R348, R350, R351). -/
def Obligations.GroupSuppliesTurnGroupsOffAndPoliciesRestore : Prop :=
  (∀ (n : Nat) (g : Fin 4) (s : State), Inv s → s.held = false →
    let x := s.io.grp[g]
    let here := (entry n s).time.c
    let alarm := Reg.DIO_GRP_ALARM g
    let chans := (List.range 16).map fun i => Reg.DIO_CH_DIAG (16 * g + i)
    let grpIs := fun (t : State) (y : DioGrp) => t.io.grp = s.io.grp.set g y
    let told := fun (t : State) (a f : Fld) => flag t alarm a = true ∧ getR t alarm &&& ~~~(a.mk' 1) = getR s alarm &&& ~~~(a.mk' 1) ∧
      (∀ k ∈ chans, flag t k f = true ∧ getR t k &&& ~~~(f.mk' 1) = getR s k &&& ~~~(f.mk' 1)) ∧ RegsBut (alarm :: chans) s t
    let off := fun (t : State) => ∀ d, if doGrp d = g then t.io.dout[d].stage = false ∧ t.io.dout[d].pulseEnd = none ∧ t.io.dout[d].cmd = s.io.dout[d].cmd
      else t.io.dout[d] = s.io.dout[d]
    let policy := fun (y : DioGrp) => if g.val < 2 then y else
      if flag s (Reg.DIO_GRP_CFG g) Reg.DIO_GRP_CFG_policy then { y with latched := true } else { y with awaitOr := true }
    let good := ∃ k, x.goodSince = some k ∧ k + 2500000 ≤ here
    (∀ mV : BitVec 16, exec (.supplySample n g mV) s = .next { tick n s with io := { s.io with grp := s.io.grp.set g { x with
      mV := mV.toNat, low19 := if mV.toNat < 19200 then min 5 (x.low19 + 1) else 0, low15 := if mV.toNat < 15000 then min 5 (x.low15 + 1) else 0,
      goodSince := if mV.toNat < 19200 then none else some (x.goodSince.getD here) } } }) ∧
    (5 ≤ x.low19 → x.sag = false → ∃ t, exec (.sag n g) s = .next t ∧ told t Reg.DIO_GRP_ALARM_sag Reg.DIO_CH_DIAG_sag ∧
      t = { tick n s with regs := t.regs, io := { s.io with grp := s.io.grp.set g { x with sag := true } } }) ∧
    (5 ≤ x.low15 → x.undervolt = false → ∃ t, exec (.undervolt n g) s = .next t ∧ told t Reg.DIO_GRP_ALARM_undervolt Reg.DIO_CH_DIAG_undervolt ∧
      grpIs t { x with undervolt := true } ∧ off t ∧
      (∀ d, t.io.di[d] = if diGrp d = g then { s.io.di[d] with cross := none } else s.io.di[d]) ∧
      t = { tick n s with regs := t.regs, io := { s.io with grp := t.io.grp, dout := t.io.dout, di := t.io.di } }) ∧
    (x.low19 < 5 → exec (.sag n g) s = .next (tick n s)) ∧ (x.low15 < 5 → exec (.undervolt n g) s = .next (tick n s)) ∧
    (good → x.undervolt = true → ∃ t, exec (.supplyRestore n g) s = .next t ∧ grpIs t (policy { x with sag := false, undervolt := false }) ∧
      (∀ d, diGrp d ≠ g → t.io.di[d] = s.io.di[d]) ∧
      (∀ d, diGrp d = g → t.io.di[d].level = s.io.di[d].raw ∧ t.io.di[d].fzLevel = s.io.di[d].raw ∧ t.io.di[d].cross = none ∧
        t.io.di[d].raw = s.io.di[d].raw ∧ t.io.di[d].lastRise = s.io.di[d].lastRise ∧
        t.io.di[d].wait = s.io.di[d].wait.filter fun e => decide (now (entry n s) + 1 ≤ e.1)) ∧
      t = { tick n s with io := { s.io with grp := t.io.grp, di := t.io.di } }) ∧
    (good → x.undervolt = false → x.sag = true →
      exec (.supplyRestore n g) s = .next { tick n s with io := { s.io with grp := s.io.grp.set g { x with sag := false } } }) ∧
    (¬good → exec (.supplyRestore n g) s = .next (tick n s) ∧ exec (.groupOvlEnd n g) s = .next (tick n s)) ∧
    (∀ k, 2 ≤ g.val → x.ovl = false → x.highSince = some k → k + 2500000 ≤ here → ∃ t, exec (.groupOvl n g) s = .next t ∧
      told t Reg.DIO_GRP_ALARM_group_ovl Reg.DIO_CH_DIAG_group_ovl ∧ grpIs t { x with ovl := true, ovlUntil := here + 25000000, highSince := none } ∧ off t ∧
      t = { tick n s with regs := t.regs, io := { s.io with grp := t.io.grp, dout := t.io.dout } }) ∧
    (2 ≤ g.val → x.ovl = true → x.ovlUntil ≤ here → good →
      exec (.groupOvlEnd n g) s = .next { tick n s with io := { s.io with grp := s.io.grp.set g (policy { x with ovl := false }) } })) ∧
  (∀ (r : Req) (g : Fin 4) (v : Word) (s : State), Inv s → Granted r .write (Reg.DIO_GRP_ACK g) s →
    let x := s.io.grp[g]
    let good := ∃ k, x.goodSince = some k ∧ k + 2500000 ≤ (entry r.t s).time.c
    let grpIs := fun (y : DioGrp) => exec (.dioGrpAck r g v) s = .next { written r s with io := { s.io with grp := s.io.grp.set g y } }
    (v.getLsbD 0 = true → ¬good → grpIs { x with ackRefused := true }) ∧
    (v.getLsbD 0 = true → good → x.latched = true → grpIs { x with latched := false, awaitOr := true, ackRefused := false }) ∧
    (v.getLsbD 0 = false ∨ (good ∧ x.latched = false) → exec (.dioGrpAck r g v) s = .next (written r s)))

/-! ### Current loops and analog inputs -/

/-- Current loops time and latch COMPL, OPEN_LOOP and THERMAL; an analog conversion delivers value, instant and faults; shunts open and are
tested (R341, R355, R356, R358, R359). -/
def Obligations.AnalogUnitsMeasureAndDiagnose : Prop :=
  ∀ (n : Nat) (u : Fin 8) (s : State), Inv s → s.held = false →
    let x := s.io.ao[u]
    let y := s.io.ai[u]
    let here := (entry n s).time.c
    let ao := fun (t : State) => (∀ v, v ≠ u → t.io.ao[v] = s.io.ao[v]) ∧ t = { tick n s with regs := t.regs, io := { s.io with ao := t.io.ao } }
    let ai := fun (t : State) => (∀ v, v ≠ u → t.io.ai[v] = s.io.ai[v]) ∧ t = { tick n s with regs := t.regs, io := { s.io with ai := t.io.ai } }
    let latched := fun (t : State) (a : Nat) (f : Fld) => flag t a f = true ∧ getR t a &&& ~~~(f.mk' 1) = getR s a &&& ~~~(f.mk' 1) ∧ RegsBut [a] s t
    let quiet := fun (p : Option Nat) (d : Nat) => ∀ k, p = some k → here < k + d
    (∀ (current : Word) (vcomp temp : BitVec 16) (atMax : Bool), ∃ t, exec (.aoReadSample n u current vcomp temp atMax) s = .next t ∧
      let z := t.io.ao[u]
      z.read = current ∧ z.readAt = some (now (entry n s)) ∧ z.vcomp = vcomp.toNat ∧ z.temp = temp ∧ z.atMax = atMax ∧
      (z.compl = true ↔ x.compl = true ∧ quiet z.okSince (msT 100)) ∧
      (z.openLoop = true ↔ x.openLoop = true ∧ Dy.lt (Dy.mul (F32.dy current) (Dy.ofInt 2)) (Dy.ofInt 1) = true) ∧
      (z.thermal = true ↔ x.thermal = true ∧ 140 ≤ temp.toInt) ∧
      (z.cmd, z.released, z.isoLost, z.parOff, z.parEnd) = (x.cmd, x.released, x.isoLost, x.parOff, x.parEnd) ∧ t.regs = s.regs ∧ ao t) ∧
    (∀ k, aoJudged (entry n s) u = true → x.openLoop = false → x.compl = false → x.shortSince = some k → k + 25000000 ≤ here →
      ∃ t, exec (.compl n u) s = .next t ∧ t.io.ao[u] = { x with compl := true } ∧ latched t (Reg.AO_DIAG u) Reg.AO_DIAG_compl ∧ ao t) ∧
    (∀ k, aoJudged (entry n s) u = true → x.openLoop = false → x.lowSince = some k → k + 2500000 ≤ here →
      ∃ t, exec (.openLoop n u) s = .next t ∧ t.io.ao[u] = { x with openLoop := true } ∧ latched t (Reg.AO_DIAG u) Reg.AO_DIAG_open_loop ∧ ao t) ∧
    (aoJudged (entry n s) u = false ∨ x.openLoop = true → exec (.compl n u) s = .next (tick n s) ∧ exec (.openLoop n u) s = .next (tick n s)) ∧
    (aoParOff s u = true ∨ (∃ e, x.parEnd = some e ∧ here < e + 25000000) → aoJudged (entry n s) u = false) ∧
    (x.thermal = false → ∃ t, exec (.thermal n u) s = .next t ∧ t.io.ao[u] = { x with thermal := true } ∧
      latched t (Reg.AO_DIAG u) Reg.AO_DIAG_thermal ∧ ao t) ∧
    (∀ code : BitVec 16, y.conv = none ∨ quiet y.startC (usT 2) ∧ y.startC.isSome = true → exec (.aiConversionDone n u code) s = .next (tick n s)) ∧
    (∀ (code : BitVec 16) (ts : Int) (k : Nat), y.conv = some ts → y.startC = some k → k + 500 ≤ here →
      ∃ t, exec (.aiConversionDone n u code) s = .next t ∧
      let range := getF s (Reg.AI_CFG u) Reg.AI_CFG_range
      let z := t.io.ai[u]
      let d := Reg.AI_DIAG u
      let rises := fun (f : Fld) (old new : Bool) => flag t d f = (flag s d f || new && !old)
      let v : Word := F32.ofDy ⟨code.toInt * 25, if range < 2 then -16 else -15⟩
      z.conv = none ∧ z.code = code ∧ z.seq = y.seq + 1 ∧ z.prev = y.cur ∧ z.shunt = y.shunt ∧ z.overR = aiOver range code ∧ z.underR = aiUnder range code ∧
      (z.wire = true ↔ range = 2 ∧ flag s (Reg.AI_CFG u) Reg.AI_CFG_ow_en = true ∧ code.toInt * 25 < 32768) ∧
      z.cur = some ⟨ts, v, z.overR || z.underR || z.wire || z.shunt⟩ ∧ getR t (Reg.AI_VALUE u) = v ∧
      getR t (Reg.AI_TS_LO u) = BitVec.ofNat 32 (unsgn 64 ts) ∧ getR t (Reg.AI_TS_HI u) = BitVec.ofNat 32 (unsgn 64 ts / 2 ^ 32) ∧
      getF t (Reg.AI_RAW u) Reg.AI_RAW_code = code.toNat ∧ getF t (Reg.AI_RAW u) Reg.AI_RAW_seq = z.seq.toNat ∧
      rises Reg.AI_DIAG_over_range y.overR z.overR ∧ rises Reg.AI_DIAG_under_range y.underR z.underR ∧ rises Reg.AI_DIAG_wire_break y.wire z.wire ∧
      flag t d Reg.AI_DIAG_shunt_open = flag s d Reg.AI_DIAG_shunt_open ∧
      (pubWaits (entry n s) = [] → RegsBut [Reg.AI_VALUE u, Reg.AI_RAW u, Reg.AI_TS_LO u, Reg.AI_TS_HI u, d] s t ∧ ai t) ∧
      (pubWaits (entry n s) ≠ [] → (∀ v, v ≠ u → t.io.ai[v] = s.io.ai[v]) ∧
        t = { aiFill (entry n s) u (aiConversionDone u code (entry n s)) with pending := s.pending } ∧
        (pubWaits t = [] → (getF t Reg.IMG_PUB_SEQ Reg.IMG_PUB_SEQ_seq) % 2 = (getF s Reg.IMG_PUB_SEQ Reg.IMG_PUB_SEQ_seq + 1) % 2))) ∧
    (2 ≤ getF s (Reg.AI_CFG u) Reg.AI_CFG_range → y.shunt = false → ∃ t, exec (.shuntOpen n u) s = .next t ∧
      t.io.ai[u] = { y with shunt := true, shuntAt := here } ∧ latched t (Reg.AI_DIAG u) Reg.AI_DIAG_shunt_open ∧ ai t) ∧
    (∀ still : Bool, y.shunt = true → y.shuntAt + 250000000 ≤ here → exec (.shuntTest n u still) s = .next { tick n s with
      io := { s.io with ai := s.io.ai.set u { y with shunt := still, shuntAt := here } } }) ∧
    (∀ still : Bool, y.shunt = false ∨ here < y.shuntAt + 250000000 → exec (.shuntTest n u still) s = .next (tick n s)) ∧
    (∀ unit : Fin 72, unit.val = 64 + u.val → exec (.isolatorPowerLoss n unit) s = .next { tick n s with
      io := { s.io with ao := s.io.ao.set u { x with isoLost := true } } }) ∧
    (∀ (c : Fin 32) (unit : Fin 72), unit.val = 32 + c.val → ∃ t, exec (.isolatorPowerLoss n unit) s = .next t ∧
      t.io.dout[c].isoLost = true ∧ t.io.dout[c].stage = false ∧ t.io.dout[c].pulseEnd = none ∧ t.io.dout[c].cmd = s.io.dout[c].cmd ∧
      (∀ d, d ≠ c → t.io.dout[d] = s.io.dout[d]) ∧ t = { tick n s with io := { s.io with dout := t.io.dout } }) ∧
    (∀ unit : Fin 72, unit.val < 32 → exec (.isolatorPowerLoss n unit) s = .next (tick n s)) ∧ (x.isoLost = true → aoDriving s u = false)

/-! ### Clocks and power -/

/-- Each lane is judged by its counts; REF leaves a lost or suspect lane by the rules of R366; switches count; PLL0 holds over and relocks
(R364, R365, R366, R367, R368, Table 15.1). -/
def Obligations.TheRackLanesAreJudgedAndRefFollows : Prop :=
  ∀ (n : Nat) (s : State), Inv s →
    let k := s.clk
    let here := (entry n s).time.c
    let lane := fun (b : Bool) (c : Clocks) => if b then c.b else c.a
    let only := fun (t : State) => RegsBut [Reg.CLK_REF_ALARM] s t ∧ t = { tick n s with regs := t.regs, clk := t.clk }
    let judged := fun (x y : RefLane) (c : Nat) (pass : Bool) =>
      (x.st = .down → y = x) ∧
      (x.st ≠ .down → y.count = c ∧ y.run = (if pass then min 255 (x.run + 1) else 0) ∧
        (x.st = .good → y.st = if pass then .good else .suspect) ∧
        (x.st = .judging → y.st = if pass ∧ 2 ≤ x.run then .good else .judging) ∧
        (x.st = .suspect → y.st = if pass ∧ 2 ≤ x.run then .good else .suspect) ∧
        y.goodWin = (if x.st = .good ∧ pass then min 255 (x.goodWin + 1) else 0))
    (∀ (countA countB : Nat), s.held = false → ∃ t, exec (.judgeWindowEnd n countA countB) s = .next t ∧
      let ok := fun (c : Nat) => decide (152573 ≤ c ∧ c ≤ 152603)
      let near := decide (countA ≤ countB + 7 ∧ countB ≤ countA + 7)
      judged k.a t.clk.a countA (ok countA && (k.b.st == .down || near)) ∧ judged k.b t.clk.b countB (ok countB && (k.a.st == .down || near)) ∧
      flag t Reg.CLK_REF_ALARM Reg.CLK_REF_ALARM_disagree = (flag s Reg.CLK_REF_ALARM Reg.CLK_REF_ALARM_disagree ||
        (k.a.st != .down && k.b.st != .down && ok countA && ok countB && !near)) ∧
      (let sel := lane k.selB t.clk
       let spare := lane (!k.selB) t.clk
       let pref := getF s Reg.CLK_REF_CFG Reg.CLK_REF_CFG_pref
       (sel.st = .suspect → spare.st = .good → t.clk.pendSel = some (!k.selB, false)) ∧
       (¬(sel.st = .suspect ∧ spare.st = .good) → pref = (if k.selB then 0 else 1) → spare.st = .good → 16 ≤ spare.goodWin →
         t.clk.pendSel = some (!k.selB, false)) ∧
       (¬(sel.st = .suspect ∧ spare.st = .good) → ¬(pref = (if k.selB then 0 else 1) ∧ spare.st = .good ∧ 16 ≤ spare.goodWin) →
         t.clk.pendSel = k.pendSel)) ∧
      t.clk = { k with a := t.clk.a, b := t.clk.b, pendSel := t.clk.pendSel } ∧ only t) ∧
    (∀ b : Bool, ∃ t, exec (.refFastLoss n b) s = .next t ∧ lane b t.clk = {} ∧
      flag t Reg.CLK_REF_ALARM (if b then Reg.CLK_REF_ALARM_lost_b else Reg.CLK_REF_ALARM_lost_a) = true ∧
      (k.selB = b → (lane (!b) k).st = .good ∨ (lane (!b) k).st = .suspect → t.clk.pendSel = some (!b, true) ∧
        ((lane (!b) k).st = .suspect → flag t Reg.CLK_REF_ALARM Reg.CLK_REF_ALARM_suspect_used = true)) ∧
      ((k.selB ≠ b ∨ (lane (!b) k).st = .down ∨ (lane (!b) k).st = .judging) → t.clk.pendSel = k.pendSel) ∧
      t.clk = (if b then { k with b := {}, pendSel := t.clk.pendSel } else { k with a := {}, pendSel := t.clk.pendSel }) ∧ only t) ∧
    (∀ b : Bool, (lane b k).st = .down → ∃ t, exec (.refLockRegained n b) s = .next t ∧ (lane b t.clk).st = .judging ∧ (lane b t.clk).run = 0 ∧
      lane (!b) t.clk = lane (!b) k ∧ t = { tick n s with clk := if b then { k with b := t.clk.b } else { k with a := t.clk.a } }) ∧
    (∀ b : Bool, (lane b k).st ≠ .down → exec (.refLockRegained n b) s = .next (tick n s)) ∧
    (∀ (seen b forced : Bool), k.pendSel = some (b, forced) → ∃ t, exec (.refSwitch n seen) s = .next t ∧
      getF t Reg.CLK_SWITCH_CNT Reg.CLK_SWITCH_CNT_switches = min (getF s Reg.CLK_SWITCH_CNT Reg.CLK_SWITCH_CNT_switches + 1) 65535 ∧
      getF t Reg.CLK_SWITCH_CNT Reg.CLK_SWITCH_CNT_forced = min (getF s Reg.CLK_SWITCH_CNT Reg.CLK_SWITCH_CNT_forced + b2n forced) 65535 ∧
      RegsBut [Reg.CLK_SWITCH_CNT] s t ∧ t = { tick n s with regs := t.regs, clk := { k with selB := b, pendSel := none } }) ∧
    (∀ seen, k.pendSel = none → exec (.refSwitch n seen) s = .next (tick n s)) ∧
    (k.holdAt = none → ∃ t, exec (.pll0Holdover n) s = .next t ∧ t.clk = { k with holdAt := some here, pll0 := false, pll1 := false } ∧
      flag t Reg.CLK_REF_ALARM Reg.CLK_REF_ALARM_holdover = true ∧ only t) ∧
    (∀ c, k.holdAt = some c → exec (.pll0Holdover n) s = .next (tick n s) ∧
      exec (.pll0Relock n) s = .next { tick n s with clk := { k with holdAt := none, pll0 := true, pll1 := true } })

/-- A ramp moves a divider by 1 a step; ratios outside R373 stop the model; gates open under an open parent and close when unused and idle
(R371, R372, R373, R374, R375, R376). -/
def Obligations.DividersRampAndGatesOpenAndClose : Prop :=
  (∀ (n : Nat) (d : DivDomain) (s : State), Inv s → s.held = false →
    let v := divNow s.clk d
    let lo : Nat := match d with | .core => 5 | .store => 5 | .mgmt => 3 | .io => 20
    let hi : Nat := match d with | .core => 20 | .store => 20 | .mgmt => 15 | .io => 160
    let goal := max lo (min hi (getF s Reg.CLK_DIV (match d with
      | .core => Reg.CLK_DIV_core | .store => Reg.CLK_DIV_store | .mgmt => Reg.CLK_DIV_mgmt | .io => Reg.CLK_DIV_io)))
    let k := setDiv s.clk d (if v < goal then v + 1 else if goal < v then v - 1 else v)
    let undefined := ¬((k.divStore = k.divCore ∨ k.divCore = 2 * k.divStore) ∧ 4 * k.divCore ≤ k.divIo ∧ 3 * k.divMgmt ≤ 2 * k.divCore)
    (s.clk.ramping = false → exec (.divRampStep n d) s = .next (tick n s)) ∧
    (s.clk.ramping = true → (divSettled s k = false ∨ ¬undefined) →
      exec (.divRampStep n d) s = .next { tick n s with clk := { k with ramping := !divSettled s k } }) ∧
    (s.clk.ramping = true → divSettled s k = true → undefined → exec (.divRampStep n d) s = .fault .clockRatioUndefined)) ∧
  (∀ (r : Req) (gate : BitVec 6) (s : State), Inv s → Granted r .write Reg.CLK_GATE_CMD s →
    let g := gate.toNat
    let res := pm r.m Reg.CLK_GATE_RESULT
    let said := fun (i : Instr) (status blocker : Nat) (waiting : Bool) (c : Clocks) => ∃ t, exec i s = .next t ∧
      getF t res Reg.CLK_GATE_RESULT_status = status ∧ getF t res Reg.CLK_GATE_RESULT_blocker = blocker ∧
      flag t res Reg.CLK_GATE_RESULT_waiting = waiting ∧ getF t res Reg.CLK_GATE_RESULT_gate = g ∧
      RegsBut [res] s t ∧ t = { written r s with regs := t.regs, clk := c }
    let opened := { s.clk with gates := s.clk.gates ||| (1#64 <<< g) }
    (s.clk.req.isSome = true → said (.clkGateOpen r gate) 6 0 false s.clk ∧ said (.clkGateClose r gate) 6 0 false s.clk) ∧
    (s.clk.req = none → g < 4 ∨ gateExists g = false → said (.clkGateOpen r gate) 5 0 false s.clk ∧ said (.clkGateClose r gate) 5 0 false s.clk) ∧
    (s.clk.req = none → 4 ≤ g → gateExists g = true →
      (∀ p, gateParent g = some p → s.clk.gates.getLsbD p = false → said (.clkGateOpen r gate) 4 0 false s.clk) ∧
      ((∀ p, gateParent g = some p → s.clk.gates.getLsbD p = true) → said (.clkGateOpen r gate) 0 0 false opened) ∧
      (gateUsed s g = true → said (.clkGateClose r gate) 2 0 false s.clk) ∧
      (∀ c, gateUsed s g = false → (openChildren s g).find? (gateUsed s) = some c → said (.clkGateClose r gate) 3 c false s.clk) ∧
      (gateUsed s g = false → (∀ c ∈ openChildren s g, gateUsed s c = false) →
        (s.clk.gates.getLsbD g = true → said (.clkGateClose r gate) 0 0 true { s.clk with
          req := some { m := r.m, gate := g, todo := openChildren s g ++ [g], startC := (entry r.t s).time.c } }) ∧
        (s.clk.gates.getLsbD g = false → said (.clkGateClose r gate) 0 0 false s.clk)))) ∧
  (∀ (n g : Nat) (l : List Nat) (q : GateReq) (s : State), Inv s → s.held = false → s.clk.req = some q → q.todo = g :: l →
    let here := (entry n s).time.c
    let res := pm q.m Reg.CLK_GATE_RESULT
    let shut := s.clk.gates &&& ~~~(1#64 <<< g)
    let ended := fun (t : State) (status blocker : Nat) => getF t res Reg.CLK_GATE_RESULT_status = status ∧
      getF t res Reg.CLK_GATE_RESULT_blocker = blocker ∧ flag t res Reg.CLK_GATE_RESULT_waiting = false ∧ RegsBut [res] s t
    (here ≤ q.startC + gateWait g → l ≠ [] → exec (.clkGateCloseIdle n) s = .next { tick n s with
      clk := { s.clk with gates := shut, req := some { q with todo := l, startC := here } } }) ∧
    (here ≤ q.startC + gateWait g → l = [] → ∃ t, exec (.clkGateCloseIdle n) s = .next t ∧ ended t 0 0 ∧
      t = { tick n s with regs := t.regs, clk := { s.clk with gates := shut, req := none } }) ∧
    (q.startC + gateWait g < here → exec (.clkGateCloseIdle n) s = .next (tick n s)) ∧
    (q.startC + gateWait g ≤ here → ∃ t, exec (.clkGateCloseTimeout n) s = .next t ∧ ended t 1 (g % 64) ∧
      t = { tick n s with regs := t.regs, clk := { s.clk with req := none } }) ∧
    (here < q.startC + gateWait g → exec (.clkGateCloseTimeout n) s = .next (tick n s)))

/-- HOLDUP begins at the third low sample, ends by return of the supply, or in a stop that resets the module and records its cause (R356,
R369, R377, R378, R379, R380, R381, R382). -/
def Obligations.PowerFailsRidesThroughAndReturns : Prop :=
  ∀ (n : Nat) (s : State), Inv s →
    let here := (entry n s).time.c
    let stopped := fun (t : State) => t.held = true ∧ t.mode = State.reset.mode ∧ t.owner = false ∧ t.io = State.reset.io ∧ t.cls = State.reset.cls ∧
      t.img = {} ∧ t.txn = PerMaster.all {} ∧ t.xch.st = .none ∧ t.can = State.reset.can ∧ t.red = State.reset.red ∧ t.svc = State.reset.svc ∧
      t.dbg = State.reset.dbg ∧ t.rtc = { s.rtc with secC := 0 } ∧ (∀ a ∈ keyAddrs, getR t a = getR s a) ∧
      (∀ a, a ∉ keyAddrs → a ≠ Reg.PWR_BANK → getR t a = getR State.reset a) ∧
      t.bal.xchLost = (s.bal.xchLost || s.xch.st != .none) ∧ t.ballast = s.ballast ∧ t.upd = { slots := s.upd.slots } ∧
      t.rcd = { archives := s.rcd.archives } ∧ t.retain = {} ∧ t.txn = PerMaster.all {} ∧ t.bist = none
    let recorded := fun (t : State) (cause : Nat) => t.bal.cause = (if s.bal.cause = 0 then cause else s.bal.cause) ∧
      t.bal.also = (if s.bal.cause ≠ 0 ∧ s.bal.cause ≠ cause ∧ s.bal.also = 0 then cause else s.bal.also)
    (∀ (feedA feedB supply bank vcore tj : BitVec 16), ∃ t, exec (.powerSample n feedA feedB supply bank vcore tj) s = .next t ∧
      let low := fun (x : State) (f : Fld) => decide (getF x Reg.PWR_FEED f < 18000) && decide (18000 ≤ getF x Reg.PWR_BANK Reg.PWR_BANK_supply)
      let out := fun (x : State) => let v := getF x Reg.PWR_CORE Reg.PWR_CORE_vcore; v != 0 && (decide (v < 780) || decide (820 < v))
      let hot := fun (x : State) => decide (105 ≤ sgn 16 (getF x Reg.PWR_CORE Reg.PWR_CORE_tj))
      let rises := fun (f : Fld) (old new : Bool) => flag t Reg.PWR_ALARM f = (flag s Reg.PWR_ALARM f || new && !old)
      getR t Reg.PWR_FEED = feedB ++ feedA ∧ getR t Reg.PWR_BANK = bank ++ supply ∧ getR t Reg.PWR_CORE = tj ++ vcore ∧
      rises Reg.PWR_ALARM_feed_a_low (low s Reg.PWR_FEED_feed_a) (low t Reg.PWR_FEED_feed_a) ∧
      rises Reg.PWR_ALARM_feed_b_low (low s Reg.PWR_FEED_feed_b) (low t Reg.PWR_FEED_feed_b) ∧
      rises Reg.PWR_ALARM_core_range (out s) (out t) ∧ rises Reg.PWR_ALARM_hot (hot s) (hot t) ∧
      t.pwr.low = (if supply.toNat < 18000 then min 3 (s.pwr.low + 1) else 0) ∧
      t.pwr.goodSince = (if supply.toNat < 19000 then none else some (s.pwr.goodSince.getD here)) ∧
      RegsBut [Reg.PWR_FEED, Reg.PWR_BANK, Reg.PWR_CORE, Reg.PWR_ALARM] s t ∧
      t = { tick n s with regs := t.regs, pwr := { s.pwr with low := t.pwr.low, goodSince := t.pwr.goodSince } }) ∧
    (s.held = false → s.pwr.st = .main → 3 ≤ s.pwr.low → ∃ t, exec (.holdupEntry n) s = .next t ∧
      t.pwr = { s.pwr with st := .holdup, entryC := here, stopped := false } ∧ t.red.leaving = true ∧ t.retain.writing.isSome = true ∧
      t.retain.pend = none ∧ t.svc.session = none ∧ t.dbg.st = 0 ∧ t.dbg.frozen = false ∧ t.bist = none ∧ t.bal.opH = s.rtc.opH ∧
      t.bal.opS = s.rtc.opS ∧ flag t Reg.PWR_ALARM Reg.PWR_ALARM_holdup = true ∧
      getF t Reg.PWR_EVENTS Reg.PWR_EVENTS_holdups = min (getF s Reg.PWR_EVENTS Reg.PWR_EVENTS_holdups + 1) 255 ∧
      t.io = s.io ∧ t.cls = s.cls ∧ t.mode = s.mode ∧ t.img = s.img ∧ t.owner = s.owner ∧ t.clk = s.clk ∧ t.held = false) ∧
    (s.held = false → (s.pwr.st ≠ .main ∨ s.pwr.low < 3) → exec (.holdupEntry n) s = .next (tick n s)) ∧
    (∀ c, s.pwr.st = .holdup → s.pwr.goodSince = some c → c + 250000 ≤ here →
      (s.pwr.stopped = false → s.held = false → ∃ t, exec (.supplyReturn n) s = .next t ∧
        getR t Reg.PWR_LAST_HOLDUP = BitVec.ofNat 32 ((here - s.pwr.entryC) / 250) ∧ flag t Reg.PWR_ALARM Reg.PWR_ALARM_returned = true ∧
        getF t Reg.PWR_EVENTS Reg.PWR_EVENTS_returns = min (getF s Reg.PWR_EVENTS Reg.PWR_EVENTS_returns + 1) 255 ∧
        RegsBut [Reg.PWR_LAST_HOLDUP, Reg.PWR_ALARM, Reg.PWR_EVENTS] s t ∧
        t = { tick n s with regs := t.regs, pwr := { s.pwr with st := .main }, red := { s.red with leaving := false }
                            rcd := if s.rcd.archPend = true ∧ s.rcd.archiving = false then { s.rcd with archiving := true, archPend := false } else s.rcd }) ∧
      (s.pwr.stopped = true → exec (.supplyReturn n) s = .next { tick n s with pwr := {}, clk := {} }) ∧
      (s.pwr.stopped = false → s.held = true →
        (s.clk.a.st ≠ .good → s.clk.b.st ≠ .good → exec (.supplyReturn n) s = .next { tick n s with pwr := {} }) ∧
        ((s.clk.a.st = .good ∨ s.clk.b.st = .good) → ∃ t, exec (.supplyReturn n) s = .next t ∧ t.held = false ∧ t.mode = .boot ∧ t.cause = .powerUp ∧
          t.pwr = {} ∧ t.clk.pll0 = true ∧ t.clk.pll1 = true ∧
          getF t Reg.PWR_RESET Reg.PWR_RESET_cause = (if s.bal.cause = 0 then getF s Reg.PWR_RESET Reg.PWR_RESET_cause else s.bal.cause % 16) ∧
          t.bal.cause = 0 ∧ t.bal.also = 0 ∧ t.bal.xchLost = false ∧
          flag t Reg.XCH_STATUS Reg.XCH_STATUS_lost = (flag s Reg.XCH_STATUS Reg.XCH_STATUS_lost || s.bal.xchLost)))) ∧
    (s.pwr.st ≠ .holdup ∨ s.pwr.goodSince = none → exec (.supplyReturn n) s = .next (tick n s)) ∧
    (s.pwr.st = .holdup → s.pwr.stopped = false → s.pwr.entryC + 250 * min 10000 (getF s Reg.PWR_CFG Reg.PWR_CFG_ride_us) ≤ here →
      ∃ t, exec (.rideThroughStop n) s = .next t ∧ recorded t 2 ∧ t.bal.stops = min 255 (s.bal.stops + 1) ∧
        t.pwr = { s.pwr with stopped := true } ∧ t.time.c = here ∧
        (s.held = false → stopped t ∧ getR t Reg.PWR_BANK = getR s Reg.PWR_BANK ∧ t.clk = { s.clk with req := none, gates := 0x8F } ∧ t.out = s.out) ∧
        (s.held = true → t = { tick n s with pwr := t.pwr, bal := t.bal })) ∧
    (s.pwr.st ≠ .holdup ∨ s.pwr.stopped = true ∨ here < s.pwr.entryC + 250 * min 10000 (getF s Reg.PWR_CFG Reg.PWR_CFG_ride_us) →
      exec (.rideThroughStop n) s = .next (tick n s)) ∧
    (∀ c, s.clk.holdAt = some c → c + 5000 ≤ here →
      (s.held = true → (s.bal.cause = 3 ∨ s.bal.also = 3) → exec (.clockLossStop n) s = .next (tick n s)) ∧
      ((s.held = false ∨ s.bal.cause ≠ 3 ∧ s.bal.also ≠ 3) →
      ∃ t, exec (.clockLossStop n) s = .next t ∧ recorded t 3 ∧ t.bal.clockStops = min 255 (s.bal.clockStops + 1) ∧ t.pwr = s.pwr ∧ t.time.c = here ∧
        (s.held = false → stopped t ∧ getR t Reg.PWR_BANK = getR s Reg.PWR_BANK ∧ t.clk = { s.clk with req := none } ∧
          t.out = (leavingCricket (entry n s)).out) ∧
        (s.held = true → t = { tick n s with bal := t.bal }))) ∧
    ((∀ c, s.clk.holdAt = some c → here < c + 5000) → exec (.clockLossStop n) s = .next (tick n s)) ∧
    (s.pwr.st = .holdup → getF s Reg.PWR_BANK Reg.PWR_BANK_bank ≤ 12000 → ∃ t, exec (.backupEntry n) s = .next t ∧ stopped t ∧
      t.pwr = { st := .backup } ∧ t.clk = {} ∧ t.bal = { s.bal with xchLost := t.bal.xchLost }) ∧
    (s.pwr.st ≠ .holdup ∨ 12000 < getF s Reg.PWR_BANK Reg.PWR_BANK_bank → exec (.backupEntry n) s = .next (tick n s)) ∧
    (∀ mV : BitVec 16, s.held = false → ∃ t, exec (.supplyLow n mV) s = .next t ∧ t.io.loopMv = mV.toNat ∧ t.io.loopLow = decide (mV.toNat < 20000) ∧
      (∀ u : Fin 8, flag t (Reg.AO_DIAG u) Reg.AO_DIAG_supply_low =
        (flag s (Reg.AO_DIAG u) Reg.AO_DIAG_supply_low || t.io.loopLow && !s.io.loopLow)) ∧
      RegsBut ((List.range 8).map fun i => Reg.AO_DIAG i) s t ∧
      t = { tick n s with regs := t.regs, io := { s.io with loopMv := mV.toNat, loopLow := t.io.loopLow } })

/-! ### Time of day and the recorder -/

/-- RTC_SECOND loads a pending set or goes to the next second of the Gregorian calendar, then compares the alarms; sets and alarms are checked
(R383, R384, R385, R386, R388, R389, R390, R391, R392). -/
def Obligations.TimeOfDayRunsByTheCalendar : Prop :=
  (∀ (n : Nat) (s : State), Inv s → ∃ t, exec (.rtcSecond n) s = .next t ∧
    let r := s.rtc
    let q := t.rtc
    let clock := fun (c : Cal) => 86400 * dayNumber c + 3600 * c.hour + 60 * c.min + c.sec
    let hit := fun (i : Fin 2) => bit r.alarms[i].date.toNat 31 && !r.alarms[i].unreach && alarmMatches r.alarms[i] q.cal
    (∀ c, r.pendSet = some c → q.cal = c ∧ q.pendSet = none ∧ q.timeValid = true ∧ q.integrity = true ∧ q.rolled = r.rolled) ∧
    (r.pendSet = none → q.pendSet = none ∧ q.integrity = r.integrity ∧
      (r.cal.valid = true → clock r.cal + 1 < 86400 * 146097 → q.cal.valid = true ∧ clock q.cal = clock r.cal + 1 ∧
        q.timeValid = r.timeValid ∧ q.rolled = r.rolled) ∧
      (r.cal.valid = true → clock r.cal + 1 = 86400 * 146097 → q.cal = {} ∧ q.timeValid = false ∧ q.rolled = true)) ∧
    q.secC = (entry n s).time.c ∧ (∀ i : Fin 2, q.alarms[i] = { r.alarms[i] with fired := r.alarms[i].fired || hit i }) ∧
    q.irq = (r.irq || hit 0 || hit 1) ∧
    (s.pwr.st = .backup → q.opS = r.opS ∧ q.opH = r.opH) ∧
    (s.pwr.st ≠ .backup → r.opS < 3599 → q.opS = r.opS + 1 ∧ q.opH = r.opH) ∧
    (s.pwr.st ≠ .backup → 3599 ≤ r.opS → q.opS = 0 ∧ q.opH.toNat = min 0xFFFFFFFF (r.opH.toNat + 1)) ∧
    (s.held = true → t.rcd = s.rcd) ∧ t = { tick n s with rtc := q, rcd := t.rcd }) ∧
  (∀ (r : Req) (v : Word) (s : State), Inv s → Granted r .write Reg.RTC_SET_TIME s →
    let d := s.rtc.setDate.toNat
    let c : Cal := { year := d / 65536 % 512, month := d / 256 % 16, day := d % 32, hour := v.toNat / 65536 % 32, min := v.toNat / 256 % 64, sec := v.toNat % 64 }
    ∃ t, exec (.rtcSet r v) s = .next t ∧ t.rtc.setTime = v &&& 0x801F3F3F ∧ t = { written r s with rtc := t.rtc } ∧
      (c.valid = false → t.rtc = { s.rtc with setTime := t.rtc.setTime, dateInvalid := true }) ∧
      (c.valid = true → v.getLsbD 31 = false → t.rtc = { s.rtc with setTime := t.rtc.setTime, pendSet := some c }) ∧
      (c.valid = true → v.getLsbD 31 = true → t.rtc.cal = c ∧ t.rtc.timeValid = true ∧ t.rtc.integrity = true ∧ t.rtc.pendSet = none ∧
        t.rtc.secC = (entry r.t s).time.c ∧ t.rtc.dateInvalid = s.rtc.dateInvalid ∧
        (∀ i : Fin 2, t.rtc.alarms[i].fired = (s.rtc.alarms[i].fired ||
          bit s.rtc.alarms[i].date.toNat 31 && !s.rtc.alarms[i].unreach && alarmMatches s.rtc.alarms[i] c)))) ∧
  (∀ (r : Req) (i : Fin 2) (v : Word) (s : State), Inv s → Granted r .write (Reg.RTC_ALM_DATE i) s →
    let time := s.rtc.almTime[i].toNat
    let day := v.toNat % 32
    let month := v.toNat / 256 % 16
    let bad := (v.getLsbD 24 = false ∧ 59 < time % 64) ∨ (v.getLsbD 25 = false ∧ 59 < time / 256 % 64) ∨ (v.getLsbD 26 = false ∧ 23 < time / 65536 % 32) ∨
      (v.getLsbD 27 = false ∧ day = 0) ∨ (v.getLsbD 28 = false ∧ (month = 0 ∨ 12 < month))
    let never := v.getLsbD 27 = false ∧ v.getLsbD 28 = false ∧ ((month = 2 ∧ 30 ≤ day) ∨ (month ∈ [4, 6, 9, 11] ∧ day = 31))
    (bad → exec (.rtcAlarmWrite r i v) s = .next { written r s with rtc := { s.rtc with alarmInvalid := true } }) ∧
    (¬bad → exec (.rtcAlarmWrite r i v) s = .next { written r s with rtc := { s.rtc with alarms := s.rtc.alarms.set i { s.rtc.alarms[i] with
      time := s.rtc.almTime[i], date := v &&& 0x9F000F1F, unreach := decide never } } })) ∧
  (∀ (supply cell : BitVec 16) (s : State), Inv s →
    let onCell := if s.rtc.onCell then decide (supply.toNat ≤ cell.toNat + 200) else decide (supply.toNat < cell.toNat + 100)
    let t := { tick s.time.c s with rtc := { s.rtc with
      onCell := onCell, integrity := s.rtc.integrity && !(s.rtc.onCell && decide (cell.toNat < 2000) && s.pwr.st == .backup) } }
    exec (.rtcSupplySwitch supply cell) s = .next t ∧ exec (.cellExhausted cell supply) s = .next t) ∧
  (∀ (n : Nat) (mV : BitVec 16) (s : State), Inv s → exec (.cellMeasure n mV) s = .next (if s.pwr.st = .main then
    { tick n s with rtc := { s.rtc with cellMv := mV, cellLow := decide (mV.toNat < 2600) } } else tick n s)) ∧
  (∀ (n : Nat) (s : State), Inv s → s.held = false → ∃ t, exec (.ophoursFlush n) s = .next t ∧
    t.bal = { s.bal with opH := s.rtc.opH, opS := s.rtc.opS } ∧
    ((bootRec s).unconfirmed = false → t.ballast = s.ballast ∧ t.upd = s.upd) ∧
    ((bootRec s).unconfirmed = true → t.upd = { s.upd with unconfS := opTotal s } ∧
      t.ballast = (bootMod (fun b => { b with unconfS := unconfNow s }) s).ballast) ∧
    t = { tick n s with bal := t.bal, ballast := t.ballast, upd := t.upd })

/-- RECORDER_UPDATE applies the oldest update to its histogram or record; flushes, archives and REC commands act or answer BUSY or REFUSED
(R393, R395, R396, R397, R398, R399, R400, Table 16.2). -/
def Obligations.TheRecorderCountsKeepsAndFlushes : Prop :=
  (∀ (n : Nat) (s : State), Inv s → s.held = false →
    let region := fun (a k : Nat) (m m' : SMap 8) => ∀ x, ¬(a ≤ x ∧ x < a + k) → m'.get x = m.get x
    (s.rcd.flushing.isSome = true ∨ s.rcd.archiving = true ∨ s.rcd.queue = [] → exec (.recorderUpdate n) s = .next (tick n s)) ∧
    (∀ u l, s.rcd.flushing = none → s.rcd.archiving = false → s.rcd.queue = u :: l → ∃ t, exec (.recorderUpdate n) s = .next t ∧
      t.rcd.queue = l ∧ getF t Reg.REC_SEQ Reg.REC_SEQ_value = (getF s Reg.REC_SEQ Reg.REC_SEQ_value + 2) % 2 ^ 32 ∧
      RegsOut [0x04, 0x61, 0x80] s t ∧ t = { tick n s with regs := t.regs, rcd := t.rcd, store := t.store, ecc := t.ecc } ∧
      (let quietly := RegsBut [Reg.REC_SEQ, Reg.REC_STATUS, Reg.REC_REFUSED] s t ∧ t.ecc = s.ecc
       let flushes := fun (sev : Nat) => t.rcd.flushing = (if 2 ≤ sev then some 4 else none) ∧ t.rcd.flushPend = s.rcd.flushPend
       (∀ code param sev, u = .event code param sev → code < 65536 → param < 2 ^ 32 → sev < 4 →
        (∀ i, recFind s code param = some i → Sound s (recAddr i) 32 → recValue t i = min 0xFFFFFFFF (recValue s i + 1) ∧ recCode t i = recCode s i ∧
          recParam t i = recParam s i ∧ ld t.store (recAddr i + 18) 2 = s.rtc.opS % 65536 ∧ ld t.store (recAddr i + 20) 4 = s.rtc.opH.toNat ∧
          region (recAddr i) 32 s.store t.store ∧ flushes sev ∧ t.rcd.used = s.rcd.used ∧ quietly) ∧
        (∀ i, recFind s code param = none → recSlot s sev = some i → Sound s (recAddr i) 32 → recCode t i = code ∧ recParam t i = param ∧
          recValue t i = 1 ∧ recSev t i = sev ∧ region (recAddr i) 32 s.store t.store ∧ flushes sev ∧
          t.rcd.used = s.rcd.used + (if recCode s i = 0 ∧ code ≠ 0 then 1 else 0) ∧ quietly) ∧
        (recFind s code param = none → recSlot s sev = none → Sound s (recBase + 0x1800C) 4 → Sound s (recBase + 0x18040) 16 →
          flag t Reg.REC_STATUS Reg.REC_STATUS_refused = true ∧
          (let f := if sev = 3 then Reg.REC_REFUSED_sev3 else Reg.REC_REFUSED_other
           getF t Reg.REC_REFUSED f = min (getF s Reg.REC_REFUSED f + 1) (2 ^ f.w - 1)) ∧
          ld t.store (recBase + 0x1800C) 4 = (getR t Reg.REC_REFUSED).toNat ∧ region (recBase + 0x1800C) 0x44 s.store t.store ∧
          t.rcd = { s.rcd with queue := l } ∧ quietly)) ∧
       (∀ h x, u = .sample h x → h < 256 → -(2 ^ 31 : Int) ≤ x → x < 2 ^ 31 →
        let a := recBase + 256 * h + 4 * histBin (getR s (Reg.REC_H_BASE h)).toInt (getR s (Reg.REC_H_WIDTH h)).toNat x
        let cfg := Reg.REC_H_CFG h
        let sev := getF s cfg Reg.REC_H_CFG_sev
        let low := 0xFF00
        let high := 0xFF01
        Sound s a 4 → ld t.store a 4 = min 0xFFFFFFFF (ld s.store a 4 + 1) ∧
          (ld s.store a 4 = 0xFFFFFFFF → flag t Reg.REC_STATUS Reg.REC_STATUS_h_sat = true) ∧
          (flag s cfg Reg.REC_H_CFG_extremes = false → region a 4 s.store t.store ∧ t.rcd = { s.rcd with queue := l } ∧ quietly) ∧
          (∀ i j, flag s cfg Reg.REC_H_CFG_extremes = true → recFind s low h = some i → recFind s high h = some j →
            Sound s (recAddr i) 32 → Sound s (recAddr j) 32 →
            recValue t i = (if x < sgn 32 (recValue s i) then unsgn 32 x else recValue s i) ∧
            recValue t j = (if sgn 32 (recValue s j) < x then unsgn 32 x else recValue s j) ∧
            (recCode t i, recParam t i, recCode t j, recParam t j) = (low, h, high, h) ∧ t.rcd.used = s.rcd.used ∧ quietly ∧
            (t.rcd.flushing.isSome = true ↔ 2 ≤ sev ∧ (x < sgn 32 (recValue s i) ∨ sgn 32 (recValue s j) < x))) ∧
          (∀ i j, flag s cfg Reg.REC_H_CFG_extremes = true → recFind s low h = none → recFind s high h = none →
            ((List.range 1024).find? fun k => recCode s k == 0) = some i → ((List.range 1024).find? fun k => k != i && recCode s k == 0) = some j →
            Sound s (recAddr i) 32 → Sound s (recAddr j) 32 →
            (recCode t i, recParam t i, recValue t i, recSev t i) = (low, h, unsgn 32 x, sev) ∧
            (recCode t j, recParam t j, recValue t j, recSev t j) = (high, h, unsgn 32 x, sev) ∧ t.rcd.used = s.rcd.used + 2 ∧ quietly ∧
            (t.rcd.flushing.isSome = true ↔ 2 ≤ sev))))) ∧
    exec (.recorderFlush n) s = .next { tick n s with rcd := match s.rcd.flushing with
      | none => { s.rcd with flushing := some 3 }
      | some _ => { s.rcd with flushPend := some (s.rcd.flushPend.getD 3) } } ∧
    (let goes := s.pwr.st ≠ .holdup ∨ s.rcd.archiving = true
     let later : Recorder := { s.rcd with archiving := s.rcd.archPend && s.pwr.st == .main, archPend := s.rcd.archPend && s.pwr.st != .main }
     (¬goes → ∀ ok, exec (.recorderArchiveHourly n ok) s = .next { tick n s with rcd := { s.rcd with archPend := true } }) ∧
     (goes → RecMay s .read recBase 0x18800 → ∃ t, exec (.recorderArchiveHourly n true) s = .next t ∧
       t.rcd = { later with archives := t.rcd.archives } ∧ t.rcd.archives.tail = s.rcd.archives.take 16383 ∧
       (∀ i, i < 0x18800 → (t.rcd.archives.headD SMap.empty).get i = s.store.get (recBase + i)) ∧ t = { tick n s with rcd := t.rcd }) ∧
     (goes → RecMay s .read recBase 0x18800 → ∃ t, exec (.recorderArchiveHourly n false) s = .next t ∧
       t.rcd = { later with queue := t.rcd.queue } ∧ flag t Reg.REC_STATUS Reg.REC_STATUS_arch_fail = true ∧
       RegsBut [Reg.REC_STATUS] s t ∧ t = { tick n s with regs := t.regs, rcd := t.rcd }) ∧
     (goes → ¬RecMay s .read recBase 0x18800 → ∀ ok, ∃ t, exec (.recorderArchiveHourly n ok) s = .next t ∧ t.rcd.archives = s.rcd.archives ∧
       flag t Reg.REC_STATUS Reg.REC_STATUS_arch_fail = true ∧ RegsOut [0x04, 0x61] s t ∧ t = { tick n s with regs := t.regs, rcd := t.rcd })) ∧
    (∀ reason, s.rcd.flushing = some reason →
      (RecMay s .read recBase recSize → ∃ t, exec (.recorderFlushDone n true) s = .next t ∧
        t.rcd = { s.rcd with flushing := s.rcd.flushPend, flushPend := none } ∧
        (let base := (nextCopy s.ballast recCopy0 recCopy1 lrrc).1
         (∀ i, i < recSize → t.ballast.get (base + 64 + i) = s.store.get (recBase + i)) ∧ ldBytes t.ballast base 4 = lrrc ∧
         region base (64 + recSize) s.ballast t.ballast) ∧ t = { tick n s with rcd := t.rcd, ballast := t.ballast }) ∧
      (RecMay s .read recBase recSize → ∃ t, exec (.recorderFlushDone n false) s = .next t ∧
        t.rcd = { s.rcd with flushing := s.rcd.flushPend, flushPend := none } ∧
        flag t Reg.REC_STATUS Reg.REC_STATUS_flush_fail = true ∧ RegsBut [Reg.REC_STATUS] s t ∧
        t = { tick n s with rcd := t.rcd, regs := t.regs }) ∧
      (¬RecMay s .read recBase recSize → ∀ ok, ∃ t, exec (.recorderFlushDone n ok) s = .next t ∧ t.ballast = s.ballast ∧
        flag t Reg.REC_STATUS Reg.REC_STATUS_flush_fail = true ∧ RegsOut [0x04, 0x61] s t ∧ t = { tick n s with rcd := t.rcd, regs := t.regs })) ∧
    (s.rcd.flushing = none → ∀ ok, exec (.recorderFlushDone n ok) s = .next (tick n s)) ∧
    (Sound s (recBase + 0x1800C) 4 → Sound s (recBase + 0x18040) 16 →
      (let kept := fun (t : State) => ld t.store (recBase + 0x18040) 4 = (getR t Reg.REC_SCRUB).toNat ∧
         ld t.store (recBase + 0x18044) 4 = (getR t Reg.REC_WEAR).toNat ∧ ld t.store (recBase + 0x18048) 4 = (getR t Reg.REC_WEAR_BAD).toNat ∧
         ld t.store (recBase + 0x1804C) 4 = t.rcd.ballastPasses % 2 ^ 32 ∧ ld t.store (recBase + 0x1800C) 4 = (getR t Reg.REC_REFUSED).toNat ∧
         region (recBase + 0x1800C) 0x44 s.store t.store
       (∀ (moved : Nat) (spare maxE meanE bad : BitVec 16), ∃ t, exec (.archivePatrolRead n moved spare maxE meanE bad) s = .next t ∧
        getF t Reg.REC_SCRUB Reg.REC_SCRUB_relocated = min (getF s Reg.REC_SCRUB Reg.REC_SCRUB_relocated + moved) (2 ^ Reg.REC_SCRUB_relocated.w - 1) ∧
        getF t Reg.REC_WEAR Reg.REC_WEAR_spare = spare.toNat ∧ getF t Reg.REC_WEAR Reg.REC_WEAR_max_erase = maxE.toNat ∧
        getF t Reg.REC_WEAR_BAD Reg.REC_WEAR_BAD_mean_erase = meanE.toNat ∧ getF t Reg.REC_WEAR_BAD Reg.REC_WEAR_BAD_bad = bad.toNat ∧
        flag t Reg.REC_STATUS Reg.REC_STATUS_wear_alarm =
          (flag s Reg.REC_STATUS Reg.REC_STATUS_wear_alarm || decide (spare.toNat < 64) || decide (54000 ≤ maxE.toNat)) ∧ kept t ∧
        RegsBut [Reg.REC_SCRUB, Reg.REC_WEAR, Reg.REC_WEAR_BAD, Reg.REC_STATUS] s t ∧
        t = { tick n s with regs := t.regs, rcd := t.rcd, store := t.store }) ∧
       ∃ t, exec (.ballastPatrolRead n) s = .next t ∧ t.rcd = { s.rcd with ballastPasses := s.rcd.ballastPasses + 1 } ∧ kept t ∧
        t = { tick n s with rcd := t.rcd, store := t.store }))) ∧
  (∀ (r : Req) (v : Word) (s : State), Inv s → Granted r .write Reg.REC_FEED s →
    let h := v.toNat % 256
    (getF s (Reg.REC_H_CFG h) Reg.REC_H_CFG_src = 0x7F → s.rcd.queue.length < recCap →
      exec (.recFeed r v) s = .next { written r s with rcd := { s.rcd with queue := s.rcd.queue ++ [.sample h (getR s Reg.REC_FEED_VAL).toInt] } }) ∧
    (getF s (Reg.REC_H_CFG h) Reg.REC_H_CFG_src ≠ 0x7F → exec (.recFeed r v) s = .next (written r s))) ∧
  (∀ (r : Req) (s : State), Inv s → Granted r .write Reg.REC_CMD s →
    let st := pm r.m Reg.REC_CMD_STATUS
    let said := fun (t : State) (cmd status : Nat) => getR t st = outcome cmd s.mode status ∧ RegsBut [st] s t ∧
      t = { written r s with regs := t.regs, rcd := t.rcd, store := t.store }
    (∀ x ∈ [(Instr.recFlushCmd r, 1), (.recArchiveCmd r, 2)], s.mode = .boot → ∃ t, exec x.1 s = .next t ∧ said t x.2 1 ∧ t.store = s.store) ∧
    (s.mode ≠ .boot → s.rcd.flushPend.isSome = true → ∃ t, exec (.recFlushCmd r) s = .next t ∧ said t 1 2 ∧ t.rcd = s.rcd ∧ t.store = s.store) ∧
    (s.mode ≠ .boot → s.rcd.flushPend = none → ∃ t, exec (.recFlushCmd r) s = .next t ∧ said t 1 0 ∧ t.store = s.store ∧
      t.rcd = (match s.rcd.flushing with
        | none => { s.rcd with flushing := some 0 }
        | some _ => { s.rcd with flushPend := some 0 })) ∧
    (s.mode ≠ .boot → s.rcd.archPend = true → ∃ t, exec (.recArchiveCmd r) s = .next t ∧ said t 2 2 ∧ t.rcd = s.rcd ∧ t.store = s.store) ∧
    (s.mode ≠ .boot → s.rcd.archPend = false → ∃ t, exec (.recArchiveCmd r) s = .next t ∧ said t 2 0 ∧ t.store = s.store ∧
      t.rcd = (if s.rcd.archiving = true ∨ s.pwr.st ≠ .main then { s.rcd with archPend := true } else { s.rcd with archiving := true })) ∧
    (s.mode ≠ .service → ∃ t, exec (.recClearCmd r) s = .next t ∧ said t 3 1 ∧ t.store = s.store) ∧
    (s.mode = .service → RecMay s .write recBase 0x1800C → Sound s (recBase + 0x1800C) 4 → Sound s (recBase + 0x18040) 16 →
      ∃ t, exec (.recClearCmd r) s = .next t ∧ getR t st = outcome 3 s.mode 0 ∧ RegsBut [st] s t ∧
      t = { written r s with regs := t.regs, rcd := t.rcd, store := t.store, ecc := t.ecc } ∧ t.rcd.used = 0 ∧ t.rcd.flushing.isSome = true ∧
      (∀ i, i < 0x18000 → t.store.get (recBase + i) = 0) ∧ ld t.store (recBase + 0x18000) 4 = s.rtc.opH.toNat ∧
      ld t.store (recBase + 0x18004) 4 = s.rtc.opS % 2 ^ 32 ∧ ld t.store (recBase + 0x18008) 4 = s.bal.pcycles.toNat ∧
      (∀ a, ¬(recBase ≤ a ∧ a < recBase + 0x18050) → t.store.get a = s.store.get a) ∧
      (∀ w, t.ecc.get w = if recBase / 8 ≤ w ∧ w < (recBase + 0x1800C + 7) / 8 then 0 else s.ecc.get w)))

/-! ### Access rules, security, debug -/

/-- SEAL and RMA program the fuses, RMA after erasing keys, images and VAULT; both end the sessions; a key stays revoked; a new rule epoch
ends commits (R411, R413, R415, R416, R418, R421, R427). -/
def Obligations.SecurityStateIsSealedErasedAndRevoked : Prop :=
  (∀ (n : Nat) (s : State), Inv s → s.held = false →
    (s.art.draining = false → exec (.artEpochDrained n) s = .next (tick n s)) ∧
    (s.art.draining = true → ∃ t, exec (.artEpochDrained n) s = .next t ∧
      t.art = { s.art with epoch := (s.art.epoch + 1) % 65536, draining := false, waiting := [] } ∧
      (∀ m, t.txn.get m = if m ∈ s.art.waiting then {} else s.txn.get m) ∧
      getR t Reg.CTU_COMMITS = getR s Reg.CTU_COMMITS + BitVec.ofNat 32 s.art.waiting.length ∧
      RegsBut [Reg.CTU_COMMITS] s t ∧ t = { tick n s with regs := t.regs, art := t.art, txn := t.txn, xch := t.xch })) ∧
  (∀ (r : Req) (s : State), Inv s → Granted r .write Reg.SEC_CMD s →
    let st := pm r.m Reg.SEC_CMD_STATUS
    let sec := secState s
    let differ := fuseState s.art.fuse0 ≠ fuseState s.art.fuse1
    let sealing := (s.mode = .hold ∨ s.mode = .service) ∧ (sec = 0 ∨ (sec = 1 ∧ differ))
    let keyed := ∃ i, i < 8 ∧ keyUsable s i 0 = true
    let rma := s.mode = .service ∧ (sec ≠ 2 ∨ differ)
    let trusted := sec ≠ 1 ∨ (r.m = .debug ∧ s.dbg.st = 2 ∧ s.dbg.openedBy = 8)
    let only := fun (i : Instr) (cmd status : Nat) => ∃ t, exec i s = .next t ∧ getR t st = outcome cmd s.mode status ∧ RegsBut [st] s t ∧
      t = { written r s with regs := t.regs, rcd := t.rcd }
    let ended := fun (t : State) => t.svc.session = none ∧ t.dbg.st = 0 ∧ t.dbg.frozen = false ∧ t.dbg.mc0 = false ∧ t.dbg.mc1 = false ∧ t.resp = .done
    (¬sealing → only (.seal r) 1 1) ∧ (sealing → ¬keyed → only (.seal r) 1 5) ∧
    (sealing → keyed → ∃ t, exec (.seal r) s = .next t ∧ getR t st = outcome 1 s.mode 0 ∧ t.art.fuse0 = s.art.fuse0 ||| 0xFFFF ∧
      t.art.fuse1 = s.art.fuse1 ||| 0xFFFF ∧ ended t ∧ t.mode = s.mode ∧ t.img = s.img ∧ t.ballast = s.ballast ∧
      RegsBut (rxwRegs ++ [st, Reg.ART_ATTR 2, Reg.ART_ATTR 3, Reg.ART_ATTR 4, Reg.CTU_COMMITS]) s t) ∧
    (¬rma → only (.rma r) 2 1) ∧ (rma → ¬trusted → only (.rma r) 2 4) ∧
    (rma → trusted → ∃ t, exec (.rma r) s = .next t ∧ getR t st = outcome 2 s.mode 0 ∧ t.art.fuse0 = 0xFFFFFFFF ∧ t.art.fuse1 = 0xFFFFFFFF ∧
      ended t ∧ t.mode = s.mode ∧ (∀ a ∈ keyAddrs, getR t a = 0) ∧ t.ballast = SMap.empty ∧
      t.bal = { opH := s.bal.opH, opS := s.bal.opS, pcycles := s.bal.pcycles } ∧
      t.upd.slots[2] = {} ∧ t.upd.slots[3] = {} ∧ t.upd.slots[0] = s.upd.slots[0] ∧ t.upd.slots[1] = s.upd.slots[1] ∧
      (∀ x, isVault s (0x10000000 + x) = true → x < storeSize → t.store.get x = 0) ∧
      (∀ x, isVault s (0x80000000 + x) = true → x < 0x40000000 → t.ddr.get x = 0) ∧
      (∀ x, isVault s (0x10000000 + x) = false → t.store.get x = s.store.get x) ∧
      (∀ x, isVault s (0x80000000 + x) = false → t.ddr.get x = s.ddr.get x) ∧
      RegsBut (rxwRegs ++ st :: Reg.ART_ATTR 2 :: Reg.ART_ATTR 3 :: Reg.ART_ATTR 4 :: Reg.CTU_COMMITS :: keyAddrs) s t)) ∧
  (∀ (r : Req) (i : Fin 8) (v : Word) (s : State), Inv s → Granted r .write (Reg.SEC_KEY_CTL i) s →
    let a := Reg.SEC_KEY_CTL i
    ∃ t, exec (.keyRevoke r i v) s = .next t ∧
      flag t a Reg.SEC_KEY_CTL_revoked = (flag s a Reg.SEC_KEY_CTL_revoked || Reg.SEC_KEY_CTL_revoked.get v == 1) ∧
      getR t a &&& ~~~(Reg.SEC_KEY_CTL_revoked.mk' 1) = getR s a &&& ~~~(Reg.SEC_KEY_CTL_revoked.mk' 1) ∧
      RegsBut [a, pm r.m Reg.CTU_CONFLICT] s t ∧ (∀ m, m ≠ r.m → t.txn.get m = s.txn.get m) ∧
      t = { written r s with regs := t.regs, txn := t.txn, resp := t.resp })

/-- The port opens at once, or by a signed challenge in SEALED; three failures lock it for 60 s; FREEZE, THAW, HALT and RESUME act where
allowed (R418, R419, R420, R421, Table 17.6). -/
def Obligations.TheDebugPortOpensByChallengeAndCommandsTheCores : Prop :=
  (∀ (n : Nat) (s : State), Inv s →
    let r : Req := { t := n, m := .debug, p := .machine }
    let d := s.dbg
    let here := (entry n s).time.c
    (Granted r .write Reg.DBG_CTRL s →
      (d.lockAt.isSome = true → exec (.dbgOpen n) s = .next (written r s)) ∧
      (d.lockAt = none → secState s ≠ 1 → exec (.dbgOpen n) s = .next { written r s with
        dbg := { d with st := 2, openedBy := 15, nonceAt := none, verifying := false } }) ∧
      (d.lockAt = none → secState s = 1 → ∃ t, exec (.dbgOpen n) s = .next t ∧ t.dbg.nonce.length = 16 ∧ t = { written r s with
        freeCtr := s.freeCtr + 1
        dbg := { d with st := 1, openedBy := 0, nonce := t.dbg.nonce, nonceAt := some here, verifying := false, driven := none } }) ∧
      (d.st = 0 → exec (.dbgClose n) s = .next (written r s)) ∧
      (d.st ≠ 0 → ∃ t, exec (.dbgClose n) s = .next t ∧
        t.dbg = { d with st := 0, openedBy := 0, nonceAt := none, verifying := false, driven := none } ∧
        (Master.debug ∉ s.art.waiting → (t.txn.get .debug).st = .idle) ∧ (∀ m, m ≠ .debug → t.txn.get m = s.txn.get m) ∧
        LocksOff .debug s t ∧ RegsBut rxwRegs s t ∧
        t = { written r s with dbg := t.dbg, txn := t.txn, xch := t.xch, can := t.can, regs := t.regs })) ∧
    (∀ v, Granted r .write (Reg.DBG_RESP 15) s → ∃ t, exec (.dbgResponse n v) s = .next t ∧ getR t (Reg.DBG_RESP 15) = v ∧
      RegsBut [Reg.DBG_RESP 15] s t ∧ t = { written r s with regs := t.regs, dbg := { d with verifying := d.verifying || d.st == 1 } }) ∧
    (s.held = false →
      (∀ k, d.verifying = true → d.st = 1 → dbgKey s = some k → exec (.dbgVerifyDone n) s = .next { tick n s with
        dbg := { d with st := 2, openedBy := k, fails := 0, nonceAt := none, verifying := false } }) ∧
      (d.verifying = true → d.st = 1 → dbgKey s = none → ∃ t, exec (.dbgVerifyDone n) s = .next t ∧
        t.dbg = { d with st := 0, openedBy := 0, nonceAt := none, verifying := false, fails := min 255 (d.fails + 1),
                         lockAt := if 2 ≤ d.fails then some here else d.lockAt } ∧ LocksOff .debug s t ∧ RegsBut rxwRegs s t ∧
        t = { tick n s with dbg := t.dbg, txn := t.txn, xch := t.xch, can := t.can, regs := t.regs }) ∧
      (d.verifying = false ∨ d.st ≠ 1 → exec (.dbgVerifyDone n) s = .next (tick n s)) ∧
      (∀ k, d.st = 1 → d.verifying = false → d.nonceAt = some k → k + 2500000000 ≤ here → ∃ t, exec (.dbgNonceTimeout n) s = .next t ∧
        t.dbg = { d with st := 0, openedBy := 0, nonceAt := none } ∧ LocksOff .debug s t ∧ RegsBut rxwRegs s t ∧
        t = { tick n s with dbg := t.dbg, txn := t.txn, xch := t.xch, can := t.can, regs := t.regs }) ∧
      ((d.st ≠ 1 ∨ d.verifying = true ∨ ∀ k, d.nonceAt = some k → here < k + 2500000000) → exec (.dbgNonceTimeout n) s = .next (tick n s)) ∧
      (∀ k, d.lockAt = some k → exec (.dbgLockExpiry n) s =
        .next (if k + 15000000000 ≤ here then { tick n s with dbg := { d with lockAt := none } } else tick n s))) ∧
    (Granted r .write Reg.DBG_CMD s →
      let allowed := s.mode = .hold ∨ s.mode = .standby ∨ s.mode = .safe ∨ s.mode = .service
      let done := fun (i : Instr) (cmd status : Nat) (d' : Debug) => ∃ t, exec i s = .next t ∧ getR t Reg.DBG_CMD_STATUS = outcome cmd s.mode status ∧
        t.dbg = d' ∧ RegsBut [Reg.DBG_CMD_STATUS] s t ∧ t = { written r s with regs := t.regs, dbg := t.dbg, red := t.red, rcd := t.rcd }
      d.st = 2 ∧
      (allowed → done (.freeze n) 1 0 { d with frozen := true } ∧ done (.thaw n) 2 0 { d with frozen := false }) ∧
      (¬allowed → done (.freeze n) 1 1 d ∧ done (.thaw n) 2 1 d) ∧
      (∀ x ∈ [(Instr.haltMc0 n, 3, { d with mc0 := true }), (.haltMc1 n, 4, { d with mc1 := true }), (.resumeMc0 n, 5, { d with mc0 := false }),
          (.resumeMc1 n, 6, { d with mc1 := false })],
        (secState s = 1 → done x.1 x.2.1 3 d) ∧ (secState s ≠ 1 → ¬allowed → done x.1 x.2.1 1 d) ∧
        (secState s ≠ 1 → allowed → done x.1 x.2.1 0 x.2.2))))

/-- DACC shifts the previous result out and makes its access; IDCODE, BYPASS and SAMPLE leave the pins alone; EXTEST and INTEST drive them in
SERVICE (R417, R420, Table 17.6). -/
def Obligations.TheTestAccessPortShiftsAndScans : Prop :=
  ∀ (n : Nat) (s : State), Inv s → s.held = false →
    let d := s.dbg
    (∀ dr : BitVec 66,
      let shown : Debug := { d with driven := none, scanOut := (List.range 66).map fun i => (d.resultStatus + d.resultData.toNat * 2 ^ 32).testBit i }
      let e : State := { entry n s with dbg := shown }
      let addr := dr.toNat / 4 % 2 ^ 30 * 4
      let v : Word := BitVec.ofNat 32 (dr.toNat / 2 ^ 32 % 2 ^ 32)
      ((dr.toNat % 4 = 0 ∨ dr.toNat % 4 = 3) → exec (.dacc n dr) s = .next { tick n s with dbg := shown }) ∧
      (let made := fun (x : State × Resp) => ∃ t, exec (.dacc n dr) s = .next t ∧ RegsOut [0x00, 0x04, 0x40, 0x80] x.1 t ∧ t.resp = x.1.resp ∧
          t.txn = x.1.txn ∧ t.dbg.scanOut = x.1.dbg.scanOut ∧
          (∀ w, x.2 = .data w → t.dbg.resultStatus = 0 ∧ t.dbg.resultData = w) ∧
          (x.2 = .done → t.dbg.resultStatus = 0 ∧ t.dbg.resultData = 0) ∧
          ((x.2 = .busError ∨ x.2 = .accessFault) → t.dbg.resultStatus = 2 ∧ t.dbg.resultData = 0)
       (dr.toNat % 4 = 1 → made (busRead .debug .machine .read addr 4 e)) ∧
       (dr.toNat % 4 = 2 → made (busWrite .debug .machine addr 4 (v.setWidth 64) e)))) ∧
    (∃ t, exec (.idcode n) s = .next t ∧ t = { tick n s with dbg := { d with driven := none, scanOut := t.dbg.scanOut } } ∧
      t.dbg.scanOut.length = 32 ∧ t.dbg.scanOut[0]? = some true ∧ (∀ i, i < 16 → t.dbg.scanOut[12 + i]? = some ((0x0880 : Nat).testBit i)) ∧
      (∀ i, i < 11 → t.dbg.scanOut[1 + i]? = some (Config.manufacturer.getLsbD i)) ∧
      (∀ i, i < 4 → t.dbg.scanOut[28 + i]? = some ((getF s Reg.SYS_ID Reg.SYS_ID_rev).testBit i))) ∧
    (∀ tdi, exec (.bypass n tdi) s = .next { tick n s with dbg := { d with driven := none, scanOut := [false], bypassBit := tdi } }) ∧
    (∀ pins shifted, exec (.samplePreload n pins shifted) s = .next { tick n s with
      dbg := { d with driven := none, scanOut := pins, cells := shifted } }) ∧
    (∀ shifted, ∀ i ∈ [Instr.extest n shifted, .intest n shifted],
      (s.pwr.st = .main → d.st = 2 → s.mode = .service → ∃ t, exec i s = .next t ∧ t.dbg.scanOut.length = shifted.length ∧ t = { tick n s with
        freeCtr := s.freeCtr + 1, dbg := { d with driven := some shifted, scanOut := t.dbg.scanOut, cells := shifted } }) ∧
      ((s.pwr.st ≠ .main ∨ d.st ≠ 2 ∨ s.mode ≠ .service) → exec i s = .next { tick n s with
        dbg := { d with driven := none, scanOut := [false], bypassBit := (shifted.getLast?).getD false } }))

/-! ### Service port, update, self-test -/

/-- The service port discards, repeats, refuses or serves each request; OPEN, PROVE and CLOSE run the session; READ, WRITE, SNAPSHOT and
UPD_PUT act in it (R422, R423, R424, R425, R426, R427, R428, R429, R433, R436, Table 18.2, Table 18.5). -/
def Obligations.TheServicePortAnswersItsClient : Prop :=
  (∀ (n : Nat) (d : Datagram) (s : State), Inv s → s.held = false →
    let here := (entry n s).time.c
    let x := svcMsg d.payload
    let rows := [Instr.svcOpen n d, .svcProve n d, .svcClose n d, .svcRead n d, .svcWrite n d, .svcSnapshot n d, .svcUpdPut n d]
    let reply := fun (status : Nat) (body : List Byte) => OutMsg.udp d.ip d.port (svcAnswer x x.session status body)
    let count := fun (t : State) (f : Fld) => getF t Reg.SVC_CNT f = min (getF s Reg.SVC_CNT f + 1) (2 ^ f.w - 1)
    let refused := fun (status : Nat) => ∀ i ∈ rows, ∃ t, exec i s = .next t ∧ t.out = reply status [] :: s.out ∧ count t Reg.SVC_CNT_errors ∧
      RegsBut [Reg.SVC_CNT] s t ∧ t.svc = { s.svc with session := s.svc.session.map fun v => if v.ip = d.ip ∧ v.id.toNat = x.session
        then { v with last := some (BitVec.ofNat 32 x.seq, svcAnswer x x.session status []) } else v } ∧
      t = { tick n s with regs := t.regs, out := t.out, svc := t.svc }
    (s.svc.link = false ∨ s.svc.addrOk = false → ∀ i ∈ rows, exec i s = .next (tick n s)) ∧
    (s.svc.link = true → s.svc.addrOk = true →
      (svcDiscard d = true → ∀ i ∈ rows, ∃ t, exec i s = .next t ∧ count t Reg.SVC_CNT_errors ∧ RegsBut [Reg.SVC_CNT] s t ∧
        t = { tick n s with regs := t.regs }) ∧
      (∀ a, svcDiscard d = false → svcStored s d x = some a → ∀ i ∈ rows, exec i s = .next { tick n s with out := .udp d.ip d.port a :: s.out }) ∧
      (svcDiscard d = false → svcStored s d x = none → svcForm x = false → refused 1) ∧
      (svcDiscard d = false → svcStored s d x = none → svcForm x = true →
        (s.svc.session = none → x.typ ≠ 1 → refused 2) ∧
        (∀ v, s.svc.session = some v → v.ip ≠ d.ip → refused 3) ∧
        (∀ v, s.svc.session = some v → v.ip = d.ip → x.typ ≠ 1 →
          (v.id.toNat ≠ x.session ∨ (v.proven = false ∧ x.typ ≠ 2 ∧ x.typ ≠ 3)) → refused 2) ∧
        (x.typ = 1 → (∀ v, s.svc.session = some v → v.ip = d.ip) → ∃ t v body, exec (.svcOpen n d) s = .next t ∧ t.svc.session = some v ∧ v.id ≠ 0 ∧
          v.ip = d.ip ∧ v.lastC = here ∧ v.last = none ∧ v.proven = decide (secState s ≠ 1) ∧ (secState s = 1 → v.nonce.length = 16) ∧
          t.out = .udp d.ip d.port (svcAnswer x v.id.toNat 0 body) :: s.out ∧
          body = [BitVec.ofNat 8 (secState s), BitVec.ofNat 8 (b2n (decide (secState s = 1))), 0, 0] ++ v.nonce ∧
          count t Reg.SVC_CNT_requests ∧ (∀ k ∈ [2, 3, 4], secState s ≠ 1 → flag t (Reg.ART_ATTR k) Reg.ART_ATTR_enable = true) ∧
          RegsBut (rxwRegs ++ [Reg.SVC_CNT, Reg.ART_ATTR 2, Reg.ART_ATTR 3, Reg.ART_ATTR 4, Reg.CTU_COMMITS]) s t ∧ t.mode = s.mode ∧ t.img = s.img ∧
          (s.svc.session.isSome = true → LocksOff .service s t)) ∧
        (∀ v, s.svc.session = some v → v.ip = d.ip → v.id.toNat = x.session →
          let kept := fun (t : State) (status : Nat) (body : List Byte) => t.out = reply status body :: s.out ∧ count t Reg.SVC_CNT_requests ∧
            ∃ w, t.svc.session = some w ∧ w.id = v.id ∧ w.ip = v.ip ∧ w.lastC = (if status = 0 then here else v.lastC) ∧
              w.last = some (BitVec.ofNat 32 x.seq, svcAnswer x x.session status body)
          (x.typ = 2 → v.proven = false → s.svc.lockAt = none → svcProof s v x.body = true → ∃ t, exec (.svcProve n d) s = .next t ∧ kept t 0 [] ∧
            t.svc.fails = 0 ∧ (∀ w, t.svc.session = some w → w.proven = true) ∧
            (∀ k ∈ [2, 3, 4], flag t (Reg.ART_ATTR k) Reg.ART_ATTR_enable = true) ∧
            RegsBut [Reg.SVC_CNT, Reg.ART_ATTR 2, Reg.ART_ATTR 3, Reg.ART_ATTR 4, Reg.CTU_COMMITS] s t) ∧
          (x.typ = 2 → v.proven = false → s.svc.lockAt = none → svcProof s v x.body = false → ∃ t, exec (.svcProve n d) s = .next t ∧ kept t 4 [] ∧
            t.svc.fails = min 255 (s.svc.fails + 1) ∧ t.svc.lockAt = (if 2 ≤ s.svc.fails then some here else none) ∧
            RegsBut [Reg.SVC_CNT] s t ∧ t = { tick n s with regs := t.regs, svc := t.svc, out := t.out, rcd := t.rcd }) ∧
          (x.typ = 2 → v.proven = false → s.svc.lockAt.isSome = true → ∃ t, exec (.svcProve n d) s = .next t ∧ kept t 4 [] ∧ t.svc.fails = s.svc.fails ∧
            RegsBut [Reg.SVC_CNT] s t ∧ t = { tick n s with regs := t.regs, svc := t.svc, out := t.out }) ∧
          (x.typ = 3 → ∃ t, exec (.svcClose n d) s = .next t ∧ t.out = reply 0 [] :: s.out ∧ t.svc.session = none ∧ count t Reg.SVC_CNT_requests ∧
            (Master.service ∉ s.art.waiting → (t.txn.get .service).st = .idle) ∧
            (∀ k ∈ [2, 3, 4], flag t (Reg.ART_ATTR k) Reg.ART_ATTR_enable = false) ∧ LocksOff .service s t ∧
            RegsBut (rxwRegs ++ [Reg.SVC_CNT, Reg.ART_ATTR 2, Reg.ART_ATTR 3, Reg.ART_ATTR 4, Reg.CTU_COMMITS]) s t) ∧
          (v.proven = true →
            let e := satAdd (entry n s) Reg.SVC_CNT Reg.SVC_CNT_requests 1
            let addr := beNat (slice x.body 0 4)
            let many := beNat (slice x.body 4 2)
            let list := snapEntries s (beNat (slice x.body 0 1))
            (x.typ = 0x10 → ∃ t, exec (.svcRead n d) s = .next t ∧ RegsOut [0x00, 0x04, 0x40, 0x80] (svcWords addr many e).1 t ∧
              t.out = reply (if (svcWords addr many e).2.isSome then 0 else 5)
                (((svcWords addr many e).2.getD []).flatMap fun w => beBytes 4 w.toNat) :: (svcWords addr many e).1.out) ∧
            (x.typ = 0x11 → ∃ t, exec (.svcWrite n d) s = .next t ∧
              let u := svcPuts addr ((List.range many).map fun i => BitVec.ofNat 32 (beNat (slice x.body (8 + 4 * i) 4))) e
              RegsOut [0x00, 0x04, 0x40, 0x80] u.1 t ∧ t.out = reply (if u.2.2 then 0 else 5) (beBytes 2 u.2.1) :: u.1.out) ∧
            (x.typ = 0x20 → ∃ t body, exec (.svcSnapshot n d) s = .next t ∧ kept t 0 body ∧
              body = (snapWords e).flatMap (fun w => beBytes 4 w.toNat) ++ [BitVec.ofNat 8 (b2n (decide (96 < list.length))),
                BitVec.ofNat 8 (min 96 list.length), 0, 0] ++ ((list.take 96).flatMap fun i => beBytes 4 (getR s (Reg.IMG_OVR_CTL i)).toNat ++
                beBytes 4 (getR s (Reg.IMG_OVR_LO i)).toNat ++ beBytes 4 (getR s (Reg.IMG_OVR_HI i)).toNat) ∧
              RegsBut [Reg.SVC_CNT] s t ∧ t = { tick n s with regs := t.regs, svc := t.svc, out := t.out }) ∧
            (x.typ = 0x30 → ∃ t, exec (.svcUpdPut n d) s = .next t ∧
              let u := updPut (beNat (slice x.body 0 2)) (beNat (slice x.body 2 4)) (x.body.drop 6) e
              kept t (if u.2 then 0 else 6) [] ∧ t.upd = u.1.upd ∧ t.ballast = u.1.ballast ∧ RegsBut [Reg.SVC_CNT] s t ∧
              (s.upd.dl = none → u.2 = false) ∧
              t = { tick n s with regs := t.regs, svc := t.svc, out := t.out, upd := t.upd, ballast := t.ballast })))))) ∧
  (∀ (n : Nat) (s : State), Inv s → s.held = false →
    let here := (entry n s).time.c
    let reached := s.svc.link = true ∧ s.svc.addrOk = true
    (∀ v, s.svc.session = some v → v.lastC + 7500000000 ≤ here → ∃ t, exec (.svcSessionTimeout n) s = .next t ∧ t.svc = { s.svc with session := none } ∧
      (Master.service ∉ s.art.waiting → (t.txn.get .service).st = .idle) ∧
      (∀ k ∈ [2, 3, 4], flag t (Reg.ART_ATTR k) Reg.ART_ATTR_enable = false) ∧ LocksOff .service s t ∧
      RegsBut (rxwRegs ++ [Reg.ART_ATTR 2, Reg.ART_ATTR 3, Reg.ART_ATTR 4, Reg.CTU_COMMITS]) s t) ∧
    ((∀ v, s.svc.session = some v → here < v.lastC + 7500000000) → exec (.svcSessionTimeout n) s = .next (tick n s)) ∧
    (∀ k, s.svc.lockAt = some k → exec (.svcProveLockExpiry n) s =
      .next (if k + 15000000000 ≤ here then { tick n s with svc := { s.svc with lockAt := none } } else tick n s)) ∧
    (∀ target asker, reached → target = getR s Reg.SVC_ADDR → exec (.svcArpRequest n target asker) s =
      .next { tick n s with out := .arp target asker :: s.out }) ∧
    (∀ target asker, ¬reached ∨ target ≠ getR s Reg.SVC_ADDR → exec (.svcArpRequest n target asker) s = .next (tick n s)) ∧
    (∀ ip data, reached → data.length ≤ 64 → exec (.svcIcmpEcho n ip data) s = .next { tick n s with out := .icmp ip data :: s.out }) ∧
    (∀ ip data, ¬reached ∨ 64 < data.length → exec (.svcIcmpEcho n ip data) s = .next (tick n s)) ∧
    (∀ up, ∃ t, exec (.svcPortLinkChange n up) s = .next t ∧ t.svc = { s.svc with link := up, addrOk := s.svc.addrOk && up } ∧
      (let self := up = true ∧ s.mode ≠ .boot ∧ s.upd.checksOk = true ∧ (bootRec s).unconfirmed = true ∧ (bootRec s).selfConf = false
       (self → t.ballast = (bootMod (fun b => { b with selfConf := true }) s).ballast) ∧ (¬self → t.ballast = s.ballast)) ∧
      t = { tick n s with svc := t.svc, ballast := t.ballast }) ∧
    exec (.linkLocalAddressAnnounced n true) s = .next { tick n s with svc := { s.svc with tries := s.svc.tries + 1, addrOk := false } } ∧
    (∃ t, exec (.linkLocalAddressAnnounced n false) s = .next t ∧ t.svc = { s.svc with addrOk := true } ∧
      (s.svc.tries = 0 → getR t Reg.SVC_ADDR = (169#8 ++ 254#8 ++ BitVec.ofNat 8 (1 + Config.serial % 254) ++ BitVec.ofNat 8 (1 + Config.serial / 254 % 254))) ∧
      RegsBut [Reg.SVC_ADDR] s t ∧ t = { tick n s with regs := t.regs, svc := t.svc }))

/-- UPD_CMD downloads, verifies, activates, confirms and abandons packages as the slot states allow; a firmware that stays unconfirmed falls
back (R432, R434, R435, R436, R438, R439, Table 18.9). -/
def Obligations.PackagesAreDownloadedVerifiedAndActivated : Prop :=
  (∀ (r : Req) (s : State), Inv s → Granted r .write Reg.UPD_CMD s →
    let st := pm r.m Reg.UPD_CMD_STATUS
    let said := fun (t : State) (cmd status : Nat) => t.resp = .done ∧ getR t st = outcome cmd s.mode status
    let only := fun (i : Instr) (cmd status : Nat) => ∃ t, exec i s = .next t ∧ said t cmd status ∧ RegsBut [st] s t ∧
      t = { written r s with regs := t.regs, rcd := t.rcd }
    let wrote := fun (t : State) (f : BootRecord → BootRecord) => t.ballast = (bootMod f s).ballast
    let kept := fun (t : State) => RegsBut [st] s t ∧ t = { written r s with regs := t.regs, upd := t.upd, ballast := t.ballast }
    let rows := [(Instr.download r false, 1), (.download r true, 1), (.updVerify r, 2), (.confirm r, 4), (.abandon r, 5)]
    (∀ x ∈ rows, s.mode = .boot → only x.1 x.2 1) ∧ (∀ x ∈ rows, s.mode ≠ .boot → s.upd.verifying.isSome = true → only x.1 x.2 2) ∧
    (activates s.mode = false → only (.activate r) 3 1) ∧ (activates s.mode = true → s.upd.verifying.isSome = true → only (.activate r) 3 2) ∧
    (s.mode ≠ .boot → s.upd.verifying = none →
      (∀ image : Bool, ∃ t, exec (.download r image) s = .next t ∧ said t 1 0 ∧
        (let i := (bootRec s).otherSlot image
         t.upd = { s.upd with dl := some { image := image, slot := i }, target := i, fail := 0, total := 0, done := 0 } ∧
         wrote t (fun b => b.putSlot i 1)) ∧ kept t) ∧
      (slotFor s (· == 2) = none → only (.updVerify r) 2 4) ∧
      (∀ i, slotFor s (· == 2) = some i → ∃ t, exec (.updVerify r) s = .next t ∧ said t 2 0 ∧ t.ballast = s.ballast ∧
        t.upd = { s.upd with verifying := some (r.m, i), target := i, dl := none, fail := 0, total := manBlocks s.upd.slots[i].manifest, done := 0 } ∧
        kept t) ∧
      ((bootRec s).unconfirmed = false → only (.confirm r) 4 4) ∧
      ((bootRec s).unconfirmed = true → ∃ t, exec (.confirm r) s = .next t ∧ said t 4 0 ∧ t.upd = s.upd ∧
        wrote t (fun b => ({ b with unconfS := unconfNow s } : BootRecord).putSlot b.fwBoot 5) ∧ kept t) ∧
      (slotFor s (fun v => v == 1 || v == 2 || v == 3) = none → only (.abandon r) 5 4) ∧
      (∀ i, slotFor s (fun v => v == 1 || v == 2 || v == 3) = some i → ∃ t, exec (.abandon r) s = .next t ∧ said t 5 0 ∧ t.upd.slots[i] = {} ∧
        (∀ j, j ≠ i → t.upd.slots[j] = s.upd.slots[j]) ∧ t.upd.dl = none ∧ t.upd.target = i ∧ wrote t (fun b => b.putSlot i 0) ∧ kept t)) ∧
    (activates s.mode = true → s.upd.verifying = none →
      (slotFor s (· == 3) = none → only (.activate r) 3 4) ∧
      (∀ i, slotFor s (· == 3) = some i → ∃ t, exec (.activate r) s = .next t ∧ t.resp = .done ∧ getR t st = outcome 3 s.mode 0 ∧
        t.upd.target = i ∧ t.upd.dl = none ∧ t.upd.slots = s.upd.slots ∧
        (2 ≤ i.val → t.mode = s.mode ∧ wrote t (BootRecord.activate i) ∧ kept t) ∧
        (i.val < 2 → t.mode = .boot ∧ t.cause = .fwRestart ∧ t.prev = s.mode ∧ t.owner = false ∧ t.img = {})))) ∧
  (∀ (n : Nat) (ok : Bool) (s : State), Inv s → s.held = false →
    (s.upd.verifying = none → exec (.updVerifyDone n ok) s = .next (tick n s)) ∧
    (∀ m i, s.upd.verifying = some (m, i) → ∃ t, exec (.updVerifyDone n ok) s = .next t ∧
      (let f := slotFault (entry n s) s.upd.slots[i] ok
       t.upd = { s.upd with verifying := none, fail := f, done := s.upd.total } ∧ (ok = false → f = 6) ∧ (f ≠ 0 → t.ballast = s.ballast) ∧
       (f = 0 → t.ballast = (bootMod (fun b => b.putSlot i 3) s).ballast)) ∧
      t = { tick n s with upd := t.upd, ballast := t.ballast })) ∧
  (∀ (n : Nat) (s : State), Inv s → s.held = false →
    (fallbackDue s = false → exec (.updFallback n) s = .next (tick n s)) ∧
    (fallbackDue s = true → ∃ t, exec (.updFallback n) s = .next t ∧ t.mode = .boot ∧ t.cause = .fwRestart ∧ t.prev = s.mode ∧ t.owner = false ∧
      t.img = {} ∧ t.upd.fail = 8 ∧ t.upd.slots = s.upd.slots ∧ t.upd.verifying = none ∧ t.svc.session = none))

/-- SCARAB starts the tests of its mask that the state allows, each test ends with its result and duration, and ABORT ends the run (R441,
R442, Table 18.11). -/
def Obligations.ScarabRunsItsTestsAndAborts : Prop :=
  (∀ (r : Req) (mask : BitVec 6) (s : State), Inv s → Granted r .write Reg.BIST_CMD s →
    let st := pm r.m Reg.BIST_CMD_STATUS
    let allowed := s.mode = .hold ∨ s.mode = .standby ∨ s.mode = .safe ∨ s.mode = .service
    let res := (List.range 6).map fun i => Reg.BIST_RES i
    let tests := ((List.range 6).map (· + 1)).filter fun k => mask == 0 || mask.getLsbD (k - 1)
    let refBad := (refLane s.clk s.clk.selB).st ≠ .good ∨ 100 < (sgn 16 (Reg.CLK_REF_PPM_ppm.get (refPpm s))).natAbs
    let vcoreBad := getF s Reg.PWR_CORE Reg.PWR_CORE_vcore < 780 ∨ 820 < getF s Reg.PWR_CORE Reg.PWR_CORE_vcore
    let hot := 105 ≤ sgn 16 (getF s Reg.PWR_CORE Reg.PWR_CORE_tj)
    let said := fun (t : State) (cmd status : Nat) => t.resp = .done ∧ getR t st = outcome cmd s.mode status
    let result := fun (t : State) (k : Nat) => getF t (Reg.BIST_RES (k - 1)) Reg.BIST_RES_result
    (¬allowed → ∀ x ∈ [(Instr.scarab r mask, 1), (.abort r, 2)], ∃ t, exec x.1 s = .next t ∧ said t x.2 1 ∧ RegsBut [st] s t ∧
      t = { written r s with regs := t.regs, rcd := t.rcd }) ∧
    (allowed → s.bist.isSome = true → ∃ t, exec (.scarab r mask) s = .next t ∧ said t 1 2 ∧ RegsBut [st] s t ∧ t = { written r s with regs := t.regs }) ∧
    (allowed → s.bist = none → ∃ t, exec (.scarab r mask) s = .next t ∧
      (flag t Reg.BIST_STATUS Reg.BIST_STATUS_ref_bad = true ↔ refBad) ∧ (flag t Reg.BIST_STATUS Reg.BIST_STATUS_vcore_bad = true ↔ vcoreBad) ∧
      (flag t Reg.BIST_STATUS Reg.BIST_STATUS_hot = true ↔ hot) ∧
      ((refBad ∨ vcoreBad ∨ hot) → said t 1 4 ∧ t.bist = none ∧ RegsBut [st, Reg.BIST_STATUS] s t) ∧
      (¬(refBad ∨ vcoreBad ∨ hot) → said t 1 0 ∧
        getF t Reg.BIST_STATUS Reg.BIST_STATUS_runs = (getF s Reg.BIST_STATUS Reg.BIST_STATUS_runs + 1) % 2 ^ Reg.BIST_STATUS_runs.w ∧
        (match tests.dropWhile fun k => !testAllowed s.mode k with
          | [] => t.bist = none ∧ flag t Reg.BIST_STATUS Reg.BIST_STATUS_running = false
          | k :: l => t.bist = some { test := k, later := l } ∧ flag t Reg.BIST_STATUS Reg.BIST_STATUS_running = true ∧
            getF t Reg.BIST_STATUS Reg.BIST_STATUS_test = k) ∧
        (∀ k ∈ tests.takeWhile fun k => !testAllowed s.mode k, result t k = 3) ∧ (∀ k ∈ tests.dropWhile fun k => !testAllowed s.mode k, result t k = 0) ∧
        RegsBut (st :: Reg.BIST_STATUS :: res) s t) ∧
      t = { written r s with regs := t.regs, bist := t.bist }) ∧
    (allowed → s.bist = none → ∃ t, exec (.abort r) s = .next t ∧ said t 2 0 ∧ RegsBut [st] s t ∧ t = { written r s with regs := t.regs }) ∧
    (∀ b, allowed → s.bist = some b → 1 ≤ b.test → b.test ≤ 6 → (∀ k ∈ b.later, b.test < k ∧ k ≤ 6) → ∃ t, exec (.abort r) s = .next t ∧ said t 2 0 ∧ t.bist = none ∧
      result t b.test = 4 ∧ (∀ k ∈ b.later, result t k = 0) ∧ flag t Reg.BIST_STATUS Reg.BIST_STATUS_running = false ∧
      RegsBut (st :: Reg.BIST_STATUS :: res) s t ∧ t = { written r s with regs := t.regs, bist := none })) ∧
  (∀ (n : Nat) (failed : Bool) (detail : BitVec 16) (us : Word) (s : State), Inv s → s.held = false →
    (s.bist = none → exec (.scarabTestDone n failed detail us) s = .next (tick n s)) ∧
    (∀ b, s.bist = some b → 1 ≤ b.test → b.test ≤ 6 → (∀ k ∈ b.later, b.test < k ∧ k ≤ 6) → ∃ t, exec (.scarabTestDone n failed detail us) s = .next t ∧
      getF t (Reg.BIST_RES (b.test - 1)) Reg.BIST_RES_result = (if failed then 2 else 1) ∧
      (failed = true → getF t (Reg.BIST_RES (b.test - 1)) Reg.BIST_RES_detail = detail.toNat) ∧ getR t (Reg.BIST_DUR (b.test - 1)) = us ∧
      (match b.later.dropWhile fun k => !testAllowed s.mode k with
        | [] => t.bist = none ∧ flag t Reg.BIST_STATUS Reg.BIST_STATUS_running = false
        | k :: l => t.bist = some { test := k, later := l } ∧ flag t Reg.BIST_STATUS Reg.BIST_STATUS_running = true ∧
          getF t Reg.BIST_STATUS Reg.BIST_STATUS_test = k) ∧
      RegsBut (Reg.BIST_DUR (b.test - 1) :: Reg.BIST_STATUS :: (List.range 6).map fun i => Reg.BIST_RES i) s t ∧
      t = { tick n s with regs := t.regs, bist := t.bist, rcd := t.rcd }))
end

