-- ==== Sys2Proof/Laws/Sparse.lean ====
section
/-!
SUPPORT. Laws of the sparse stores and tables: reading back what was written, leaving every other place alone, and equal contents being
equal data.
-/
namespace Sys2Proof.Machine

theorem Cells.get_of_lt {w : Nat} {l : Cells w} {a : Nat} (h : ∀ c ∈ l, a < c.1) : Cells.get l a = 0 := by
  induction l with
  | nil => rfl
  | cons c l ih =>
    have hc := h c (by simp)
    rw [Cells.get, if_neg (by omega)]
    exact ih fun d hd => h d (by simp [hd])

theorem Cells.get_cons' {w : Nat} {l : Cells w} {a : Nat} (v : BitVec w) (h : ∀ c ∈ l, a < c.1) (b : Nat) :
    Cells.get (Cells.cons a v l) b = if a = b then v else Cells.get l b := by
  unfold Cells.cons
  split
  · split
    · next h0 hb => subst hb; rw [Cells.get_of_lt h, h0]
    · rfl
  · rfl

theorem Cells.get_put {w : Nat} {l : Cells w} (h : Cells.wf l) (a : Nat) (v : BitVec w) (b : Nat) :
    Cells.get (Cells.put l a v) b = if a = b then v else Cells.get l b := by
  induction l with
  | nil => exact Cells.get_cons' v (by simp) b
  | cons d l ih =>
    have hd := List.pairwise_cons.mp h.1
    have hl : Cells.wf l := ⟨hd.2, fun c hc => h.2 c (List.mem_cons_of_mem _ hc)⟩
    unfold Cells.put
    split
    · next hlt =>
      refine Cells.get_cons' v (fun c hc => ?_) b
      rcases List.mem_cons.mp hc with rfl | hc
      · exact hlt
      · exact Nat.lt_trans hlt (hd.1 c hc)
    · split
      · next heq =>
        rw [Cells.get_cons' v (fun c hc => heq ▸ hd.1 c hc)]
        by_cases hb : a = b
        · simp [hb]
        · simp only [hb, if_false, Cells.get]
          rw [if_neg (by omega)]
      · next hne =>
        simp only [Cells.get, ih hl]
        by_cases hb : a = b
        · subst hb
          rw [if_neg (fun hc => hne hc.symm)]
          simp
        · simp [hb]

/-- A word reads as it was written, and every other address as before. -/
theorem SMap.get_put {w : Nat} (m : SMap w) (a : Nat) (v : BitVec w) (b : Nat) :
    (m.put a v).get b = if a = b then v else m.get b := Cells.get_put m.ok a v b

@[simp] theorem SMap.get_put_self {w : Nat} (m : SMap w) (a : Nat) (v : BitVec w) : (m.put a v).get a = v := by
  rw [SMap.get_put, if_pos rfl]

@[simp] theorem SMap.get_empty {w : Nat} (a : Nat) : (SMap.empty : SMap w).get a = 0 := rfl

theorem SMap.get_put_ne {w : Nat} (m : SMap w) {a b : Nat} (v : BitVec w) (h : a ≠ b) : (m.put a v).get b = m.get b := by
  rw [SMap.get_put, if_neg h]

theorem Cells.mem_get {w : Nat} {l : Cells w} (h : Cells.wf l) {c : Nat × BitVec w} (hc : c ∈ l) : Cells.get l c.1 = c.2 := by
  induction l with
  | nil => cases hc
  | cons d l ih =>
    have hd := List.pairwise_cons.mp h.1
    rcases List.mem_cons.mp hc with rfl | hc
    · simp [Cells.get]
    · rw [Cells.get, if_neg (Nat.ne_of_lt (hd.1 c hc))]
      exact ih ⟨hd.2, fun c hc => h.2 c (List.mem_cons_of_mem _ hc)⟩ hc

theorem Cells.ext_get {w : Nat} {l k : Cells w} (hl : Cells.wf l) (hk : Cells.wf k) (h : ∀ a, Cells.get l a = Cells.get k a) : l = k := by
  induction l generalizing k with
  | nil =>
    cases k with
    | nil => rfl
    | cons c k =>
      have := h c.1
      rw [Cells.mem_get hk (by simp)] at this
      exact absurd this.symm (hk.2 c (by simp))
  | cons d l ih =>
    have hd := List.pairwise_cons.mp hl.1
    have hl' : Cells.wf l := ⟨hd.2, fun c hc => hl.2 c (List.mem_cons_of_mem _ hc)⟩
    cases k with
    | nil =>
      have := h d.1
      rw [Cells.mem_get hl (by simp)] at this
      exact absurd this (hl.2 d (by simp))
    | cons c k =>
      have hc := List.pairwise_cons.mp hk.1
      have hk' : Cells.wf k := ⟨hc.2, fun x hx => hk.2 x (List.mem_cons_of_mem _ hx)⟩
      have e : d.1 = c.1 := by
        rcases Nat.lt_trichotomy d.1 c.1 with hlt | e | hlt
        · have := h d.1
          rw [Cells.mem_get hl (by simp), Cells.get_of_lt (fun x hx => ?_)] at this
          · exact absurd this (hl.2 d (by simp))
          · rcases List.mem_cons.mp hx with rfl | hx
            · exact hlt
            · exact Nat.lt_trans hlt (hc.1 x hx)
        · exact e
        · have := h c.1
          rw [Cells.mem_get hk (by simp), Cells.get_of_lt (fun x hx => ?_)] at this
          · exact absurd this.symm (hk.2 c (by simp))
          · rcases List.mem_cons.mp hx with rfl | hx
            · exact hlt
            · exact Nat.lt_trans hlt (hd.1 x hx)
      have ev : d.2 = c.2 := by
        have := h d.1
        rwa [Cells.mem_get hl (by simp), e, Cells.mem_get hk (by simp)] at this
      have : l = k := by
        refine ih hl' hk' fun a => ?_
        have ha := h a
        simp only [Cells.get] at ha
        by_cases hda : d.1 = a
        · rw [Cells.get_of_lt fun x hx => hda ▸ hd.1 x hx, Cells.get_of_lt fun x hx => hda ▸ e ▸ hc.1 x hx]
        · rwa [if_neg hda, if_neg (e ▸ hda)] at ha
      rw [this, Prod.ext e ev]

/-- Equal contents are equal data. -/
theorem SMap.ext_get {w : Nat} {m n : SMap w} (h : ∀ a, m.get a = n.get a) : m = n := by
  cases m with
  | mk l hl =>
    cases n with
    | mk k hk =>
      have := Cells.ext_get hl hk h
      subst this
      rfl

/-- Consecutive words read as they were written, and every other address as before. -/
theorem SMap.get_putList {w : Nat} (l : List (BitVec w)) (m : SMap w) (a b : Nat) :
    (m.putList a l).get b = if a ≤ b ∧ b < a + l.length then (l[b - a]?).getD 0 else m.get b := by
  induction l generalizing m a with
  | nil => rw [if_neg (by simp only [List.length_nil]; omega)]; rfl
  | cons v l ih =>
    rw [SMap.putList, ih, SMap.get_put]
    by_cases h1 : a = b
    · subst h1
      rw [if_neg (by omega), if_pos rfl, if_pos (by simp)]
      simp
    · by_cases h2 : a + 1 ≤ b ∧ b < a + 1 + l.length
      · have h3 : a ≤ b ∧ b < a + (v :: l).length := by simp; omega
        rw [if_pos h2, if_pos h3]
        obtain ⟨d, rfl⟩ := Nat.exists_eq_add_of_le h2.1
        have e1 : a + 1 + d - a = d + 1 := by omega
        have e2 : a + 1 + d - (a + 1) = d := by omega
        rw [e1, e2, List.getElem?_cons_succ]
      · have h3 : ¬(a ≤ b ∧ b < a + (v :: l).length) := by simp; omega
        rw [if_neg h2, if_neg h1, if_neg h3]

theorem Tab.get?_put {α : Type} (l : Tab α) (k : Nat) (x : α) (j : Nat) :
    Tab.get? (Tab.put l k x) j = if k = j then some x else Tab.get? l j := by
  induction l with
  | nil => simp [Tab.put, Tab.get?]
  | cons e l ih =>
    unfold Tab.put
    split
    · simp [Tab.get?]
    · split
      · next h =>
        simp only [Tab.get?, ← h]
        by_cases hj : k = j
        · simp [hj]
        · simp [hj]
      · next h =>
        simp only [Tab.get?, ih]
        by_cases hj : k = j
        · subst hj
          rw [if_neg (fun hc => h hc.symm)]
          simp
        · simp [hj]

@[simp] theorem Tab.get?_put_self {α : Type} (l : Tab α) (k : Nat) (x : α) : Tab.get? (Tab.put l k x) k = some x := by
  rw [Tab.get?_put, if_pos rfl]

end Sys2Proof.Machine
end

