-- ==== Sys2Proof/Laws/State.lean ====
section
/-!
SUPPORT. Laws of State: what each update leaves as it was, one law for each update and field; each update's own field; the register store.
-/
namespace Sys2Proof.Machine

/-! ### What each update leaves as it was -/

@[simp] theorem setR_keeps (s : State) (a : Nat) (v : Word) :
    (setR s a v).pending = s.pending ∧ (setR s a v).held = s.held ∧ (setR s a v).mode = s.mode ∧ (setR s a v).prev = s.prev ∧
    (setR s a v).cause = s.cause ∧ (setR s a v).strap = s.strap ∧ (setR s a v).time = s.time ∧ (setR s a v).io = s.io ∧
    (setR s a v).cls = s.cls ∧ (setR s a v).lastOc = s.lastOc ∧ (setR s a v).clk = s.clk ∧ (setR s a v).pwr = s.pwr ∧
    (setR s a v).rtc = s.rtc ∧ (setR s a v).rcd = s.rcd ∧ (setR s a v).img = s.img ∧ (setR s a v).container = s.container ∧
    (setR s a v).owner = s.owner ∧ (setR s a v).isolated = s.isolated ∧ (setR s a v).store = s.store ∧ (setR s a v).ecc = s.ecc ∧
    (setR s a v).ddr = s.ddr ∧ (setR s a v).ddrEcc = s.ddrEcc ∧ (setR s a v).scrub = s.scrub ∧ (setR s a v).can = s.can ∧
    (setR s a v).canRx = s.canRx ∧ (setR s a v).out = s.out ∧ (setR s a v).que = s.que ∧ (setR s a v).prog = s.prog ∧
    (setR s a v).lse = s.lse ∧ (setR s a v).recRoots = s.recRoots ∧ (setR s a v).parHeld = s.parHeld ∧
    (setR s a v).untilOr = s.untilOr ∧ (setR s a v).lane = s.lane ∧ (setR s a v).sysPend = s.sysPend ∧ (setR s a v).red = s.red ∧
    (setR s a v).fgr = s.fgr ∧ (setR s a v).txn = s.txn ∧ (setR s a v).xch = s.xch ∧ (setR s a v).retain = s.retain ∧
    (setR s a v).cLse = s.cLse ∧ (setR s a v).ballast = s.ballast ∧ (setR s a v).bal = s.bal ∧ (setR s a v).hiCap = s.hiCap ∧
    (setR s a v).resp = s.resp ∧ (setR s a v).irqQueue = s.irqQueue ∧ (setR s a v).irqArt = s.irqArt ∧ (setR s a v).dbg = s.dbg ∧
    (setR s a v).art = s.art ∧ (setR s a v).svc = s.svc ∧ (setR s a v).upd = s.upd ∧ (setR s a v).bist = s.bist ∧
    (setR s a v).freeCtr = s.freeCtr := by
  refine ⟨?_, ?_, ?_, ?_, ?_, ?_, ?_, ?_, ?_, ?_, ?_, ?_, ?_, ?_, ?_, ?_, ?_, ?_, ?_, ?_, ?_, ?_, ?_, ?_, ?_, ?_, ?_, ?_, ?_, ?_, ?_, ?_, ?_, ?_, ?_, ?_, ?_, ?_, ?_, ?_, ?_, ?_, ?_, ?_, ?_, ?_, ?_, ?_, ?_, ?_, ?_, ?_⟩ <;> rfl

@[simp] theorem setF_keeps (s : State) (a : Nat) (f : Fld) (v : Nat) :
    (setF s a f v).pending = s.pending ∧ (setF s a f v).held = s.held ∧ (setF s a f v).mode = s.mode ∧ (setF s a f v).prev = s.prev ∧
    (setF s a f v).cause = s.cause ∧ (setF s a f v).strap = s.strap ∧ (setF s a f v).time = s.time ∧ (setF s a f v).io = s.io ∧
    (setF s a f v).cls = s.cls ∧ (setF s a f v).lastOc = s.lastOc ∧ (setF s a f v).clk = s.clk ∧ (setF s a f v).pwr = s.pwr ∧
    (setF s a f v).rtc = s.rtc ∧ (setF s a f v).rcd = s.rcd ∧ (setF s a f v).img = s.img ∧ (setF s a f v).container = s.container ∧
    (setF s a f v).owner = s.owner ∧ (setF s a f v).isolated = s.isolated ∧ (setF s a f v).store = s.store ∧
    (setF s a f v).ecc = s.ecc ∧ (setF s a f v).ddr = s.ddr ∧ (setF s a f v).ddrEcc = s.ddrEcc ∧ (setF s a f v).scrub = s.scrub ∧
    (setF s a f v).can = s.can ∧ (setF s a f v).canRx = s.canRx ∧ (setF s a f v).out = s.out ∧ (setF s a f v).que = s.que ∧
    (setF s a f v).prog = s.prog ∧ (setF s a f v).lse = s.lse ∧ (setF s a f v).recRoots = s.recRoots ∧
    (setF s a f v).parHeld = s.parHeld ∧ (setF s a f v).untilOr = s.untilOr ∧ (setF s a f v).lane = s.lane ∧
    (setF s a f v).sysPend = s.sysPend ∧ (setF s a f v).red = s.red ∧ (setF s a f v).fgr = s.fgr ∧ (setF s a f v).txn = s.txn ∧
    (setF s a f v).xch = s.xch ∧ (setF s a f v).retain = s.retain ∧ (setF s a f v).cLse = s.cLse ∧ (setF s a f v).ballast = s.ballast ∧
    (setF s a f v).bal = s.bal ∧ (setF s a f v).hiCap = s.hiCap ∧ (setF s a f v).resp = s.resp ∧ (setF s a f v).irqQueue = s.irqQueue ∧
    (setF s a f v).irqArt = s.irqArt ∧ (setF s a f v).dbg = s.dbg ∧ (setF s a f v).art = s.art ∧ (setF s a f v).svc = s.svc ∧
    (setF s a f v).upd = s.upd ∧ (setF s a f v).bist = s.bist ∧ (setF s a f v).freeCtr = s.freeCtr := by
  refine ⟨?_, ?_, ?_, ?_, ?_, ?_, ?_, ?_, ?_, ?_, ?_, ?_, ?_, ?_, ?_, ?_, ?_, ?_, ?_, ?_, ?_, ?_, ?_, ?_, ?_, ?_, ?_, ?_, ?_, ?_, ?_, ?_, ?_, ?_, ?_, ?_, ?_, ?_, ?_, ?_, ?_, ?_, ?_, ?_, ?_, ?_, ?_, ?_, ?_, ?_, ?_, ?_⟩ <;> rfl

@[simp] theorem setB_keeps (s : State) (a : Nat) (f : Fld) (b : Bool) :
    (setB s a f b).pending = s.pending ∧ (setB s a f b).held = s.held ∧ (setB s a f b).mode = s.mode ∧ (setB s a f b).prev = s.prev ∧
    (setB s a f b).cause = s.cause ∧ (setB s a f b).strap = s.strap ∧ (setB s a f b).time = s.time ∧ (setB s a f b).io = s.io ∧
    (setB s a f b).cls = s.cls ∧ (setB s a f b).lastOc = s.lastOc ∧ (setB s a f b).clk = s.clk ∧ (setB s a f b).pwr = s.pwr ∧
    (setB s a f b).rtc = s.rtc ∧ (setB s a f b).rcd = s.rcd ∧ (setB s a f b).img = s.img ∧ (setB s a f b).container = s.container ∧
    (setB s a f b).owner = s.owner ∧ (setB s a f b).isolated = s.isolated ∧ (setB s a f b).store = s.store ∧
    (setB s a f b).ecc = s.ecc ∧ (setB s a f b).ddr = s.ddr ∧ (setB s a f b).ddrEcc = s.ddrEcc ∧ (setB s a f b).scrub = s.scrub ∧
    (setB s a f b).can = s.can ∧ (setB s a f b).canRx = s.canRx ∧ (setB s a f b).out = s.out ∧ (setB s a f b).que = s.que ∧
    (setB s a f b).prog = s.prog ∧ (setB s a f b).lse = s.lse ∧ (setB s a f b).recRoots = s.recRoots ∧
    (setB s a f b).parHeld = s.parHeld ∧ (setB s a f b).untilOr = s.untilOr ∧ (setB s a f b).lane = s.lane ∧
    (setB s a f b).sysPend = s.sysPend ∧ (setB s a f b).red = s.red ∧ (setB s a f b).fgr = s.fgr ∧ (setB s a f b).txn = s.txn ∧
    (setB s a f b).xch = s.xch ∧ (setB s a f b).retain = s.retain ∧ (setB s a f b).cLse = s.cLse ∧ (setB s a f b).ballast = s.ballast ∧
    (setB s a f b).bal = s.bal ∧ (setB s a f b).hiCap = s.hiCap ∧ (setB s a f b).resp = s.resp ∧ (setB s a f b).irqQueue = s.irqQueue ∧
    (setB s a f b).irqArt = s.irqArt ∧ (setB s a f b).dbg = s.dbg ∧ (setB s a f b).art = s.art ∧ (setB s a f b).svc = s.svc ∧
    (setB s a f b).upd = s.upd ∧ (setB s a f b).bist = s.bist ∧ (setB s a f b).freeCtr = s.freeCtr := by
  refine ⟨?_, ?_, ?_, ?_, ?_, ?_, ?_, ?_, ?_, ?_, ?_, ?_, ?_, ?_, ?_, ?_, ?_, ?_, ?_, ?_, ?_, ?_, ?_, ?_, ?_, ?_, ?_, ?_, ?_, ?_, ?_, ?_, ?_, ?_, ?_, ?_, ?_, ?_, ?_, ?_, ?_, ?_, ?_, ?_, ?_, ?_, ?_, ?_, ?_, ?_, ?_, ?_⟩ <;> rfl

@[simp] theorem satAdd_keeps (s : State) (a : Nat) (f : Fld) (n : Nat) :
    (satAdd s a f n).pending = s.pending ∧ (satAdd s a f n).held = s.held ∧ (satAdd s a f n).mode = s.mode ∧
    (satAdd s a f n).prev = s.prev ∧ (satAdd s a f n).cause = s.cause ∧ (satAdd s a f n).strap = s.strap ∧
    (satAdd s a f n).time = s.time ∧ (satAdd s a f n).io = s.io ∧ (satAdd s a f n).cls = s.cls ∧ (satAdd s a f n).lastOc = s.lastOc ∧
    (satAdd s a f n).clk = s.clk ∧ (satAdd s a f n).pwr = s.pwr ∧ (satAdd s a f n).rtc = s.rtc ∧ (satAdd s a f n).rcd = s.rcd ∧
    (satAdd s a f n).img = s.img ∧ (satAdd s a f n).container = s.container ∧ (satAdd s a f n).owner = s.owner ∧
    (satAdd s a f n).isolated = s.isolated ∧ (satAdd s a f n).store = s.store ∧ (satAdd s a f n).ecc = s.ecc ∧
    (satAdd s a f n).ddr = s.ddr ∧ (satAdd s a f n).ddrEcc = s.ddrEcc ∧ (satAdd s a f n).scrub = s.scrub ∧
    (satAdd s a f n).can = s.can ∧ (satAdd s a f n).canRx = s.canRx ∧ (satAdd s a f n).out = s.out ∧ (satAdd s a f n).que = s.que ∧
    (satAdd s a f n).prog = s.prog ∧ (satAdd s a f n).lse = s.lse ∧ (satAdd s a f n).recRoots = s.recRoots ∧
    (satAdd s a f n).parHeld = s.parHeld ∧ (satAdd s a f n).untilOr = s.untilOr ∧ (satAdd s a f n).lane = s.lane ∧
    (satAdd s a f n).sysPend = s.sysPend ∧ (satAdd s a f n).red = s.red ∧ (satAdd s a f n).fgr = s.fgr ∧ (satAdd s a f n).txn = s.txn ∧
    (satAdd s a f n).xch = s.xch ∧ (satAdd s a f n).retain = s.retain ∧ (satAdd s a f n).cLse = s.cLse ∧
    (satAdd s a f n).ballast = s.ballast ∧ (satAdd s a f n).bal = s.bal ∧ (satAdd s a f n).hiCap = s.hiCap ∧
    (satAdd s a f n).resp = s.resp ∧ (satAdd s a f n).irqQueue = s.irqQueue ∧ (satAdd s a f n).irqArt = s.irqArt ∧
    (satAdd s a f n).dbg = s.dbg ∧ (satAdd s a f n).art = s.art ∧ (satAdd s a f n).svc = s.svc ∧ (satAdd s a f n).upd = s.upd ∧
    (satAdd s a f n).bist = s.bist ∧ (satAdd s a f n).freeCtr = s.freeCtr := by
  refine ⟨?_, ?_, ?_, ?_, ?_, ?_, ?_, ?_, ?_, ?_, ?_, ?_, ?_, ?_, ?_, ?_, ?_, ?_, ?_, ?_, ?_, ?_, ?_, ?_, ?_, ?_, ?_, ?_, ?_, ?_, ?_, ?_, ?_, ?_, ?_, ?_, ?_, ?_, ?_, ?_, ?_, ?_, ?_, ?_, ?_, ?_, ?_, ?_, ?_, ?_, ?_, ?_⟩ <;> rfl

@[simp] theorem wrapAdd_keeps (s : State) (a : Nat) (f : Fld) (n : Nat) :
    (wrapAdd s a f n).pending = s.pending ∧ (wrapAdd s a f n).held = s.held ∧ (wrapAdd s a f n).mode = s.mode ∧
    (wrapAdd s a f n).prev = s.prev ∧ (wrapAdd s a f n).cause = s.cause ∧ (wrapAdd s a f n).strap = s.strap ∧
    (wrapAdd s a f n).time = s.time ∧ (wrapAdd s a f n).io = s.io ∧ (wrapAdd s a f n).cls = s.cls ∧
    (wrapAdd s a f n).lastOc = s.lastOc ∧ (wrapAdd s a f n).clk = s.clk ∧ (wrapAdd s a f n).pwr = s.pwr ∧
    (wrapAdd s a f n).rtc = s.rtc ∧ (wrapAdd s a f n).rcd = s.rcd ∧ (wrapAdd s a f n).img = s.img ∧
    (wrapAdd s a f n).container = s.container ∧ (wrapAdd s a f n).owner = s.owner ∧ (wrapAdd s a f n).isolated = s.isolated ∧
    (wrapAdd s a f n).store = s.store ∧ (wrapAdd s a f n).ecc = s.ecc ∧ (wrapAdd s a f n).ddr = s.ddr ∧
    (wrapAdd s a f n).ddrEcc = s.ddrEcc ∧ (wrapAdd s a f n).scrub = s.scrub ∧ (wrapAdd s a f n).can = s.can ∧
    (wrapAdd s a f n).canRx = s.canRx ∧ (wrapAdd s a f n).out = s.out ∧ (wrapAdd s a f n).que = s.que ∧
    (wrapAdd s a f n).prog = s.prog ∧ (wrapAdd s a f n).lse = s.lse ∧ (wrapAdd s a f n).recRoots = s.recRoots ∧
    (wrapAdd s a f n).parHeld = s.parHeld ∧ (wrapAdd s a f n).untilOr = s.untilOr ∧ (wrapAdd s a f n).lane = s.lane ∧
    (wrapAdd s a f n).sysPend = s.sysPend ∧ (wrapAdd s a f n).red = s.red ∧ (wrapAdd s a f n).fgr = s.fgr ∧
    (wrapAdd s a f n).txn = s.txn ∧ (wrapAdd s a f n).xch = s.xch ∧ (wrapAdd s a f n).retain = s.retain ∧
    (wrapAdd s a f n).cLse = s.cLse ∧ (wrapAdd s a f n).ballast = s.ballast ∧ (wrapAdd s a f n).bal = s.bal ∧
    (wrapAdd s a f n).hiCap = s.hiCap ∧ (wrapAdd s a f n).resp = s.resp ∧ (wrapAdd s a f n).irqQueue = s.irqQueue ∧
    (wrapAdd s a f n).irqArt = s.irqArt ∧ (wrapAdd s a f n).dbg = s.dbg ∧ (wrapAdd s a f n).art = s.art ∧
    (wrapAdd s a f n).svc = s.svc ∧ (wrapAdd s a f n).upd = s.upd ∧ (wrapAdd s a f n).bist = s.bist ∧
    (wrapAdd s a f n).freeCtr = s.freeCtr := by
  refine ⟨?_, ?_, ?_, ?_, ?_, ?_, ?_, ?_, ?_, ?_, ?_, ?_, ?_, ?_, ?_, ?_, ?_, ?_, ?_, ?_, ?_, ?_, ?_, ?_, ?_, ?_, ?_, ?_, ?_, ?_, ?_, ?_, ?_, ?_, ?_, ?_, ?_, ?_, ?_, ?_, ?_, ?_, ?_, ?_, ?_, ?_, ?_, ?_, ?_, ?_, ?_, ?_⟩ <;> rfl

@[simp] theorem tick_keeps (t : Nat) (s : State) :
    (tick t s).pending = s.pending ∧ (tick t s).held = s.held ∧ (tick t s).regs = s.regs ∧ (tick t s).mode = s.mode ∧
    (tick t s).prev = s.prev ∧ (tick t s).cause = s.cause ∧ (tick t s).strap = s.strap ∧ (tick t s).io = s.io ∧ (tick t s).cls = s.cls ∧
    (tick t s).lastOc = s.lastOc ∧ (tick t s).clk = s.clk ∧ (tick t s).pwr = s.pwr ∧ (tick t s).rtc = s.rtc ∧ (tick t s).rcd = s.rcd ∧
    (tick t s).img = s.img ∧ (tick t s).container = s.container ∧ (tick t s).owner = s.owner ∧ (tick t s).isolated = s.isolated ∧
    (tick t s).store = s.store ∧ (tick t s).ecc = s.ecc ∧ (tick t s).ddr = s.ddr ∧ (tick t s).ddrEcc = s.ddrEcc ∧
    (tick t s).scrub = s.scrub ∧ (tick t s).can = s.can ∧ (tick t s).canRx = s.canRx ∧ (tick t s).out = s.out ∧ (tick t s).que = s.que ∧
    (tick t s).prog = s.prog ∧ (tick t s).lse = s.lse ∧ (tick t s).recRoots = s.recRoots ∧ (tick t s).parHeld = s.parHeld ∧
    (tick t s).untilOr = s.untilOr ∧ (tick t s).lane = s.lane ∧ (tick t s).sysPend = s.sysPend ∧ (tick t s).red = s.red ∧
    (tick t s).fgr = s.fgr ∧ (tick t s).txn = s.txn ∧ (tick t s).xch = s.xch ∧ (tick t s).retain = s.retain ∧ (tick t s).cLse = s.cLse ∧
    (tick t s).ballast = s.ballast ∧ (tick t s).bal = s.bal ∧ (tick t s).hiCap = s.hiCap ∧ (tick t s).resp = s.resp ∧
    (tick t s).irqQueue = s.irqQueue ∧ (tick t s).irqArt = s.irqArt ∧ (tick t s).dbg = s.dbg ∧ (tick t s).art = s.art ∧
    (tick t s).svc = s.svc ∧ (tick t s).upd = s.upd ∧ (tick t s).bist = s.bist ∧ (tick t s).freeCtr = s.freeCtr := by
  refine ⟨?_, ?_, ?_, ?_, ?_, ?_, ?_, ?_, ?_, ?_, ?_, ?_, ?_, ?_, ?_, ?_, ?_, ?_, ?_, ?_, ?_, ?_, ?_, ?_, ?_, ?_, ?_, ?_, ?_, ?_, ?_, ?_, ?_, ?_, ?_, ?_, ?_, ?_, ?_, ?_, ?_, ?_, ?_, ?_, ?_, ?_, ?_, ?_, ?_, ?_, ?_, ?_⟩ <;> rfl

@[simp] theorem takeFree_keeps (s : State) :
    (takeFree s).pending = s.pending ∧ (takeFree s).held = s.held ∧ (takeFree s).regs = s.regs ∧ (takeFree s).mode = s.mode ∧
    (takeFree s).prev = s.prev ∧ (takeFree s).cause = s.cause ∧ (takeFree s).strap = s.strap ∧ (takeFree s).time = s.time ∧
    (takeFree s).io = s.io ∧ (takeFree s).cls = s.cls ∧ (takeFree s).lastOc = s.lastOc ∧ (takeFree s).clk = s.clk ∧
    (takeFree s).pwr = s.pwr ∧ (takeFree s).rtc = s.rtc ∧ (takeFree s).rcd = s.rcd ∧ (takeFree s).img = s.img ∧
    (takeFree s).container = s.container ∧ (takeFree s).owner = s.owner ∧ (takeFree s).isolated = s.isolated ∧
    (takeFree s).store = s.store ∧ (takeFree s).ecc = s.ecc ∧ (takeFree s).ddr = s.ddr ∧ (takeFree s).ddrEcc = s.ddrEcc ∧
    (takeFree s).scrub = s.scrub ∧ (takeFree s).can = s.can ∧ (takeFree s).canRx = s.canRx ∧ (takeFree s).out = s.out ∧
    (takeFree s).que = s.que ∧ (takeFree s).prog = s.prog ∧ (takeFree s).lse = s.lse ∧ (takeFree s).recRoots = s.recRoots ∧
    (takeFree s).parHeld = s.parHeld ∧ (takeFree s).untilOr = s.untilOr ∧ (takeFree s).lane = s.lane ∧
    (takeFree s).sysPend = s.sysPend ∧ (takeFree s).red = s.red ∧ (takeFree s).fgr = s.fgr ∧ (takeFree s).txn = s.txn ∧
    (takeFree s).xch = s.xch ∧ (takeFree s).retain = s.retain ∧ (takeFree s).cLse = s.cLse ∧ (takeFree s).ballast = s.ballast ∧
    (takeFree s).bal = s.bal ∧ (takeFree s).hiCap = s.hiCap ∧ (takeFree s).resp = s.resp ∧ (takeFree s).irqQueue = s.irqQueue ∧
    (takeFree s).irqArt = s.irqArt ∧ (takeFree s).dbg = s.dbg ∧ (takeFree s).art = s.art ∧ (takeFree s).svc = s.svc ∧
    (takeFree s).upd = s.upd ∧ (takeFree s).bist = s.bist := by
  refine ⟨?_, ?_, ?_, ?_, ?_, ?_, ?_, ?_, ?_, ?_, ?_, ?_, ?_, ?_, ?_, ?_, ?_, ?_, ?_, ?_, ?_, ?_, ?_, ?_, ?_, ?_, ?_, ?_, ?_, ?_, ?_, ?_, ?_, ?_, ?_, ?_, ?_, ?_, ?_, ?_, ?_, ?_, ?_, ?_, ?_, ?_, ?_, ?_, ?_, ?_, ?_, ?_⟩ <;> rfl

@[simp] theorem dropCaptures_keeps (m : Master) (s : State) :
    (dropCaptures m s).pending = s.pending ∧ (dropCaptures m s).held = s.held ∧ (dropCaptures m s).regs = s.regs ∧
    (dropCaptures m s).mode = s.mode ∧ (dropCaptures m s).prev = s.prev ∧ (dropCaptures m s).cause = s.cause ∧
    (dropCaptures m s).strap = s.strap ∧ (dropCaptures m s).time = s.time ∧ (dropCaptures m s).io = s.io ∧
    (dropCaptures m s).cls = s.cls ∧ (dropCaptures m s).lastOc = s.lastOc ∧ (dropCaptures m s).clk = s.clk ∧
    (dropCaptures m s).pwr = s.pwr ∧ (dropCaptures m s).rtc = s.rtc ∧ (dropCaptures m s).rcd = s.rcd ∧ (dropCaptures m s).img = s.img ∧
    (dropCaptures m s).container = s.container ∧ (dropCaptures m s).owner = s.owner ∧ (dropCaptures m s).isolated = s.isolated ∧
    (dropCaptures m s).store = s.store ∧ (dropCaptures m s).ecc = s.ecc ∧ (dropCaptures m s).ddr = s.ddr ∧
    (dropCaptures m s).ddrEcc = s.ddrEcc ∧ (dropCaptures m s).scrub = s.scrub ∧ (dropCaptures m s).can = s.can ∧
    (dropCaptures m s).canRx = s.canRx ∧ (dropCaptures m s).out = s.out ∧ (dropCaptures m s).que = s.que ∧
    (dropCaptures m s).prog = s.prog ∧ (dropCaptures m s).lse = s.lse ∧ (dropCaptures m s).recRoots = s.recRoots ∧
    (dropCaptures m s).parHeld = s.parHeld ∧ (dropCaptures m s).untilOr = s.untilOr ∧ (dropCaptures m s).lane = s.lane ∧
    (dropCaptures m s).sysPend = s.sysPend ∧ (dropCaptures m s).red = s.red ∧ (dropCaptures m s).fgr = s.fgr ∧
    (dropCaptures m s).txn = s.txn ∧ (dropCaptures m s).xch = s.xch ∧ (dropCaptures m s).retain = s.retain ∧
    (dropCaptures m s).cLse = s.cLse ∧ (dropCaptures m s).ballast = s.ballast ∧ (dropCaptures m s).bal = s.bal ∧
    (dropCaptures m s).resp = s.resp ∧ (dropCaptures m s).irqQueue = s.irqQueue ∧ (dropCaptures m s).irqArt = s.irqArt ∧
    (dropCaptures m s).dbg = s.dbg ∧ (dropCaptures m s).art = s.art ∧ (dropCaptures m s).svc = s.svc ∧ (dropCaptures m s).upd = s.upd ∧
    (dropCaptures m s).bist = s.bist ∧ (dropCaptures m s).freeCtr = s.freeCtr := by
  refine ⟨?_, ?_, ?_, ?_, ?_, ?_, ?_, ?_, ?_, ?_, ?_, ?_, ?_, ?_, ?_, ?_, ?_, ?_, ?_, ?_, ?_, ?_, ?_, ?_, ?_, ?_, ?_, ?_, ?_, ?_, ?_, ?_, ?_, ?_, ?_, ?_, ?_, ?_, ?_, ?_, ?_, ?_, ?_, ?_, ?_, ?_, ?_, ?_, ?_, ?_, ?_, ?_⟩ <;> rfl

@[simp] theorem setGrp_keeps (s : State) (g : Fin 4) (x : DioGrp) :
    (setGrp s g x).pending = s.pending ∧ (setGrp s g x).held = s.held ∧ (setGrp s g x).regs = s.regs ∧ (setGrp s g x).mode = s.mode ∧
    (setGrp s g x).prev = s.prev ∧ (setGrp s g x).cause = s.cause ∧ (setGrp s g x).strap = s.strap ∧ (setGrp s g x).time = s.time ∧
    (setGrp s g x).cls = s.cls ∧ (setGrp s g x).lastOc = s.lastOc ∧ (setGrp s g x).clk = s.clk ∧ (setGrp s g x).pwr = s.pwr ∧
    (setGrp s g x).rtc = s.rtc ∧ (setGrp s g x).rcd = s.rcd ∧ (setGrp s g x).img = s.img ∧ (setGrp s g x).container = s.container ∧
    (setGrp s g x).owner = s.owner ∧ (setGrp s g x).isolated = s.isolated ∧ (setGrp s g x).store = s.store ∧
    (setGrp s g x).ecc = s.ecc ∧ (setGrp s g x).ddr = s.ddr ∧ (setGrp s g x).ddrEcc = s.ddrEcc ∧ (setGrp s g x).scrub = s.scrub ∧
    (setGrp s g x).can = s.can ∧ (setGrp s g x).canRx = s.canRx ∧ (setGrp s g x).out = s.out ∧ (setGrp s g x).que = s.que ∧
    (setGrp s g x).prog = s.prog ∧ (setGrp s g x).lse = s.lse ∧ (setGrp s g x).recRoots = s.recRoots ∧
    (setGrp s g x).parHeld = s.parHeld ∧ (setGrp s g x).untilOr = s.untilOr ∧ (setGrp s g x).lane = s.lane ∧
    (setGrp s g x).sysPend = s.sysPend ∧ (setGrp s g x).red = s.red ∧ (setGrp s g x).fgr = s.fgr ∧ (setGrp s g x).txn = s.txn ∧
    (setGrp s g x).xch = s.xch ∧ (setGrp s g x).retain = s.retain ∧ (setGrp s g x).cLse = s.cLse ∧ (setGrp s g x).ballast = s.ballast ∧
    (setGrp s g x).bal = s.bal ∧ (setGrp s g x).hiCap = s.hiCap ∧ (setGrp s g x).resp = s.resp ∧ (setGrp s g x).irqQueue = s.irqQueue ∧
    (setGrp s g x).irqArt = s.irqArt ∧ (setGrp s g x).dbg = s.dbg ∧ (setGrp s g x).art = s.art ∧ (setGrp s g x).svc = s.svc ∧
    (setGrp s g x).upd = s.upd ∧ (setGrp s g x).bist = s.bist ∧ (setGrp s g x).freeCtr = s.freeCtr := by
  refine ⟨?_, ?_, ?_, ?_, ?_, ?_, ?_, ?_, ?_, ?_, ?_, ?_, ?_, ?_, ?_, ?_, ?_, ?_, ?_, ?_, ?_, ?_, ?_, ?_, ?_, ?_, ?_, ?_, ?_, ?_, ?_, ?_, ?_, ?_, ?_, ?_, ?_, ?_, ?_, ?_, ?_, ?_, ?_, ?_, ?_, ?_, ?_, ?_, ?_, ?_, ?_, ?_⟩ <;> rfl

@[simp] theorem setDo_keeps (s : State) (c : Fin 32) (x : DoCh) :
    (setDo s c x).pending = s.pending ∧ (setDo s c x).held = s.held ∧ (setDo s c x).regs = s.regs ∧ (setDo s c x).mode = s.mode ∧
    (setDo s c x).prev = s.prev ∧ (setDo s c x).cause = s.cause ∧ (setDo s c x).strap = s.strap ∧ (setDo s c x).time = s.time ∧
    (setDo s c x).cls = s.cls ∧ (setDo s c x).lastOc = s.lastOc ∧ (setDo s c x).clk = s.clk ∧ (setDo s c x).pwr = s.pwr ∧
    (setDo s c x).rtc = s.rtc ∧ (setDo s c x).rcd = s.rcd ∧ (setDo s c x).img = s.img ∧ (setDo s c x).container = s.container ∧
    (setDo s c x).owner = s.owner ∧ (setDo s c x).isolated = s.isolated ∧ (setDo s c x).store = s.store ∧ (setDo s c x).ecc = s.ecc ∧
    (setDo s c x).ddr = s.ddr ∧ (setDo s c x).ddrEcc = s.ddrEcc ∧ (setDo s c x).scrub = s.scrub ∧ (setDo s c x).can = s.can ∧
    (setDo s c x).canRx = s.canRx ∧ (setDo s c x).out = s.out ∧ (setDo s c x).que = s.que ∧ (setDo s c x).prog = s.prog ∧
    (setDo s c x).lse = s.lse ∧ (setDo s c x).recRoots = s.recRoots ∧ (setDo s c x).parHeld = s.parHeld ∧
    (setDo s c x).untilOr = s.untilOr ∧ (setDo s c x).lane = s.lane ∧ (setDo s c x).sysPend = s.sysPend ∧ (setDo s c x).red = s.red ∧
    (setDo s c x).fgr = s.fgr ∧ (setDo s c x).txn = s.txn ∧ (setDo s c x).xch = s.xch ∧ (setDo s c x).retain = s.retain ∧
    (setDo s c x).cLse = s.cLse ∧ (setDo s c x).ballast = s.ballast ∧ (setDo s c x).bal = s.bal ∧ (setDo s c x).hiCap = s.hiCap ∧
    (setDo s c x).resp = s.resp ∧ (setDo s c x).irqQueue = s.irqQueue ∧ (setDo s c x).irqArt = s.irqArt ∧ (setDo s c x).dbg = s.dbg ∧
    (setDo s c x).art = s.art ∧ (setDo s c x).svc = s.svc ∧ (setDo s c x).upd = s.upd ∧ (setDo s c x).bist = s.bist ∧
    (setDo s c x).freeCtr = s.freeCtr := by
  refine ⟨?_, ?_, ?_, ?_, ?_, ?_, ?_, ?_, ?_, ?_, ?_, ?_, ?_, ?_, ?_, ?_, ?_, ?_, ?_, ?_, ?_, ?_, ?_, ?_, ?_, ?_, ?_, ?_, ?_, ?_, ?_, ?_, ?_, ?_, ?_, ?_, ?_, ?_, ?_, ?_, ?_, ?_, ?_, ?_, ?_, ?_, ?_, ?_, ?_, ?_, ?_, ?_⟩ <;> rfl

@[simp] theorem setDi_keeps (s : State) (c : Fin 32) (x : DiCh) :
    (setDi s c x).pending = s.pending ∧ (setDi s c x).held = s.held ∧ (setDi s c x).regs = s.regs ∧ (setDi s c x).mode = s.mode ∧
    (setDi s c x).prev = s.prev ∧ (setDi s c x).cause = s.cause ∧ (setDi s c x).strap = s.strap ∧ (setDi s c x).time = s.time ∧
    (setDi s c x).cls = s.cls ∧ (setDi s c x).lastOc = s.lastOc ∧ (setDi s c x).clk = s.clk ∧ (setDi s c x).pwr = s.pwr ∧
    (setDi s c x).rtc = s.rtc ∧ (setDi s c x).rcd = s.rcd ∧ (setDi s c x).img = s.img ∧ (setDi s c x).container = s.container ∧
    (setDi s c x).owner = s.owner ∧ (setDi s c x).isolated = s.isolated ∧ (setDi s c x).store = s.store ∧ (setDi s c x).ecc = s.ecc ∧
    (setDi s c x).ddr = s.ddr ∧ (setDi s c x).ddrEcc = s.ddrEcc ∧ (setDi s c x).scrub = s.scrub ∧ (setDi s c x).can = s.can ∧
    (setDi s c x).canRx = s.canRx ∧ (setDi s c x).out = s.out ∧ (setDi s c x).que = s.que ∧ (setDi s c x).prog = s.prog ∧
    (setDi s c x).lse = s.lse ∧ (setDi s c x).recRoots = s.recRoots ∧ (setDi s c x).parHeld = s.parHeld ∧
    (setDi s c x).untilOr = s.untilOr ∧ (setDi s c x).lane = s.lane ∧ (setDi s c x).sysPend = s.sysPend ∧ (setDi s c x).red = s.red ∧
    (setDi s c x).fgr = s.fgr ∧ (setDi s c x).txn = s.txn ∧ (setDi s c x).xch = s.xch ∧ (setDi s c x).retain = s.retain ∧
    (setDi s c x).cLse = s.cLse ∧ (setDi s c x).ballast = s.ballast ∧ (setDi s c x).bal = s.bal ∧ (setDi s c x).hiCap = s.hiCap ∧
    (setDi s c x).resp = s.resp ∧ (setDi s c x).irqQueue = s.irqQueue ∧ (setDi s c x).irqArt = s.irqArt ∧ (setDi s c x).dbg = s.dbg ∧
    (setDi s c x).art = s.art ∧ (setDi s c x).svc = s.svc ∧ (setDi s c x).upd = s.upd ∧ (setDi s c x).bist = s.bist ∧
    (setDi s c x).freeCtr = s.freeCtr := by
  refine ⟨?_, ?_, ?_, ?_, ?_, ?_, ?_, ?_, ?_, ?_, ?_, ?_, ?_, ?_, ?_, ?_, ?_, ?_, ?_, ?_, ?_, ?_, ?_, ?_, ?_, ?_, ?_, ?_, ?_, ?_, ?_, ?_, ?_, ?_, ?_, ?_, ?_, ?_, ?_, ?_, ?_, ?_, ?_, ?_, ?_, ?_, ?_, ?_, ?_, ?_, ?_, ?_⟩ <;> rfl

@[simp] theorem setAo_keeps (s : State) (u : Fin 8) (x : AoCh) :
    (setAo s u x).pending = s.pending ∧ (setAo s u x).held = s.held ∧ (setAo s u x).regs = s.regs ∧ (setAo s u x).mode = s.mode ∧
    (setAo s u x).prev = s.prev ∧ (setAo s u x).cause = s.cause ∧ (setAo s u x).strap = s.strap ∧ (setAo s u x).time = s.time ∧
    (setAo s u x).cls = s.cls ∧ (setAo s u x).lastOc = s.lastOc ∧ (setAo s u x).clk = s.clk ∧ (setAo s u x).pwr = s.pwr ∧
    (setAo s u x).rtc = s.rtc ∧ (setAo s u x).rcd = s.rcd ∧ (setAo s u x).img = s.img ∧ (setAo s u x).container = s.container ∧
    (setAo s u x).owner = s.owner ∧ (setAo s u x).isolated = s.isolated ∧ (setAo s u x).store = s.store ∧ (setAo s u x).ecc = s.ecc ∧
    (setAo s u x).ddr = s.ddr ∧ (setAo s u x).ddrEcc = s.ddrEcc ∧ (setAo s u x).scrub = s.scrub ∧ (setAo s u x).can = s.can ∧
    (setAo s u x).canRx = s.canRx ∧ (setAo s u x).out = s.out ∧ (setAo s u x).que = s.que ∧ (setAo s u x).prog = s.prog ∧
    (setAo s u x).lse = s.lse ∧ (setAo s u x).recRoots = s.recRoots ∧ (setAo s u x).parHeld = s.parHeld ∧
    (setAo s u x).untilOr = s.untilOr ∧ (setAo s u x).lane = s.lane ∧ (setAo s u x).sysPend = s.sysPend ∧ (setAo s u x).red = s.red ∧
    (setAo s u x).fgr = s.fgr ∧ (setAo s u x).txn = s.txn ∧ (setAo s u x).xch = s.xch ∧ (setAo s u x).retain = s.retain ∧
    (setAo s u x).cLse = s.cLse ∧ (setAo s u x).ballast = s.ballast ∧ (setAo s u x).bal = s.bal ∧ (setAo s u x).hiCap = s.hiCap ∧
    (setAo s u x).resp = s.resp ∧ (setAo s u x).irqQueue = s.irqQueue ∧ (setAo s u x).irqArt = s.irqArt ∧ (setAo s u x).dbg = s.dbg ∧
    (setAo s u x).art = s.art ∧ (setAo s u x).svc = s.svc ∧ (setAo s u x).upd = s.upd ∧ (setAo s u x).bist = s.bist ∧
    (setAo s u x).freeCtr = s.freeCtr := by
  refine ⟨?_, ?_, ?_, ?_, ?_, ?_, ?_, ?_, ?_, ?_, ?_, ?_, ?_, ?_, ?_, ?_, ?_, ?_, ?_, ?_, ?_, ?_, ?_, ?_, ?_, ?_, ?_, ?_, ?_, ?_, ?_, ?_, ?_, ?_, ?_, ?_, ?_, ?_, ?_, ?_, ?_, ?_, ?_, ?_, ?_, ?_, ?_, ?_, ?_, ?_, ?_, ?_⟩ <;> rfl

@[simp] theorem setAi_keeps (s : State) (u : Fin 8) (x : AiCh) :
    (setAi s u x).pending = s.pending ∧ (setAi s u x).held = s.held ∧ (setAi s u x).regs = s.regs ∧ (setAi s u x).mode = s.mode ∧
    (setAi s u x).prev = s.prev ∧ (setAi s u x).cause = s.cause ∧ (setAi s u x).strap = s.strap ∧ (setAi s u x).time = s.time ∧
    (setAi s u x).cls = s.cls ∧ (setAi s u x).lastOc = s.lastOc ∧ (setAi s u x).clk = s.clk ∧ (setAi s u x).pwr = s.pwr ∧
    (setAi s u x).rtc = s.rtc ∧ (setAi s u x).rcd = s.rcd ∧ (setAi s u x).img = s.img ∧ (setAi s u x).container = s.container ∧
    (setAi s u x).owner = s.owner ∧ (setAi s u x).isolated = s.isolated ∧ (setAi s u x).store = s.store ∧ (setAi s u x).ecc = s.ecc ∧
    (setAi s u x).ddr = s.ddr ∧ (setAi s u x).ddrEcc = s.ddrEcc ∧ (setAi s u x).scrub = s.scrub ∧ (setAi s u x).can = s.can ∧
    (setAi s u x).canRx = s.canRx ∧ (setAi s u x).out = s.out ∧ (setAi s u x).que = s.que ∧ (setAi s u x).prog = s.prog ∧
    (setAi s u x).lse = s.lse ∧ (setAi s u x).recRoots = s.recRoots ∧ (setAi s u x).parHeld = s.parHeld ∧
    (setAi s u x).untilOr = s.untilOr ∧ (setAi s u x).lane = s.lane ∧ (setAi s u x).sysPend = s.sysPend ∧ (setAi s u x).red = s.red ∧
    (setAi s u x).fgr = s.fgr ∧ (setAi s u x).txn = s.txn ∧ (setAi s u x).xch = s.xch ∧ (setAi s u x).retain = s.retain ∧
    (setAi s u x).cLse = s.cLse ∧ (setAi s u x).ballast = s.ballast ∧ (setAi s u x).bal = s.bal ∧ (setAi s u x).hiCap = s.hiCap ∧
    (setAi s u x).resp = s.resp ∧ (setAi s u x).irqQueue = s.irqQueue ∧ (setAi s u x).irqArt = s.irqArt ∧ (setAi s u x).dbg = s.dbg ∧
    (setAi s u x).art = s.art ∧ (setAi s u x).svc = s.svc ∧ (setAi s u x).upd = s.upd ∧ (setAi s u x).bist = s.bist ∧
    (setAi s u x).freeCtr = s.freeCtr := by
  refine ⟨?_, ?_, ?_, ?_, ?_, ?_, ?_, ?_, ?_, ?_, ?_, ?_, ?_, ?_, ?_, ?_, ?_, ?_, ?_, ?_, ?_, ?_, ?_, ?_, ?_, ?_, ?_, ?_, ?_, ?_, ?_, ?_, ?_, ?_, ?_, ?_, ?_, ?_, ?_, ?_, ?_, ?_, ?_, ?_, ?_, ?_, ?_, ?_, ?_, ?_, ?_, ?_⟩ <;> rfl

@[simp] theorem setTrig_keeps (s : State) (i : Fin 16) (t : Trig) :
    (setTrig s i t).pending = s.pending ∧ (setTrig s i t).held = s.held ∧ (setTrig s i t).mode = s.mode ∧
    (setTrig s i t).prev = s.prev ∧ (setTrig s i t).cause = s.cause ∧ (setTrig s i t).strap = s.strap ∧ (setTrig s i t).io = s.io ∧
    (setTrig s i t).cls = s.cls ∧ (setTrig s i t).lastOc = s.lastOc ∧ (setTrig s i t).clk = s.clk ∧ (setTrig s i t).pwr = s.pwr ∧
    (setTrig s i t).rtc = s.rtc ∧ (setTrig s i t).rcd = s.rcd ∧ (setTrig s i t).img = s.img ∧ (setTrig s i t).container = s.container ∧
    (setTrig s i t).owner = s.owner ∧ (setTrig s i t).isolated = s.isolated ∧ (setTrig s i t).store = s.store ∧
    (setTrig s i t).ecc = s.ecc ∧ (setTrig s i t).ddr = s.ddr ∧ (setTrig s i t).ddrEcc = s.ddrEcc ∧ (setTrig s i t).scrub = s.scrub ∧
    (setTrig s i t).can = s.can ∧ (setTrig s i t).canRx = s.canRx ∧ (setTrig s i t).out = s.out ∧ (setTrig s i t).que = s.que ∧
    (setTrig s i t).prog = s.prog ∧ (setTrig s i t).lse = s.lse ∧ (setTrig s i t).recRoots = s.recRoots ∧
    (setTrig s i t).parHeld = s.parHeld ∧ (setTrig s i t).untilOr = s.untilOr ∧ (setTrig s i t).lane = s.lane ∧
    (setTrig s i t).sysPend = s.sysPend ∧ (setTrig s i t).red = s.red ∧ (setTrig s i t).fgr = s.fgr ∧ (setTrig s i t).txn = s.txn ∧
    (setTrig s i t).xch = s.xch ∧ (setTrig s i t).retain = s.retain ∧ (setTrig s i t).cLse = s.cLse ∧
    (setTrig s i t).ballast = s.ballast ∧ (setTrig s i t).bal = s.bal ∧ (setTrig s i t).hiCap = s.hiCap ∧
    (setTrig s i t).resp = s.resp ∧ (setTrig s i t).irqQueue = s.irqQueue ∧ (setTrig s i t).irqArt = s.irqArt ∧
    (setTrig s i t).dbg = s.dbg ∧ (setTrig s i t).art = s.art ∧ (setTrig s i t).svc = s.svc ∧ (setTrig s i t).upd = s.upd ∧
    (setTrig s i t).bist = s.bist ∧ (setTrig s i t).freeCtr = s.freeCtr := by
  refine ⟨?_, ?_, ?_, ?_, ?_, ?_, ?_, ?_, ?_, ?_, ?_, ?_, ?_, ?_, ?_, ?_, ?_, ?_, ?_, ?_, ?_, ?_, ?_, ?_, ?_, ?_, ?_, ?_, ?_, ?_, ?_, ?_, ?_, ?_, ?_, ?_, ?_, ?_, ?_, ?_, ?_, ?_, ?_, ?_, ?_, ?_, ?_, ?_, ?_, ?_, ?_⟩ <;> rfl

@[simp] theorem setCan_keeps (s : State) (u : Fin 16) (x : CanCh) :
    (setCan s u x).pending = s.pending ∧ (setCan s u x).held = s.held ∧ (setCan s u x).regs = s.regs ∧ (setCan s u x).mode = s.mode ∧
    (setCan s u x).prev = s.prev ∧ (setCan s u x).cause = s.cause ∧ (setCan s u x).strap = s.strap ∧ (setCan s u x).time = s.time ∧
    (setCan s u x).io = s.io ∧ (setCan s u x).cls = s.cls ∧ (setCan s u x).lastOc = s.lastOc ∧ (setCan s u x).clk = s.clk ∧
    (setCan s u x).pwr = s.pwr ∧ (setCan s u x).rtc = s.rtc ∧ (setCan s u x).rcd = s.rcd ∧ (setCan s u x).img = s.img ∧
    (setCan s u x).container = s.container ∧ (setCan s u x).owner = s.owner ∧ (setCan s u x).isolated = s.isolated ∧
    (setCan s u x).store = s.store ∧ (setCan s u x).ecc = s.ecc ∧ (setCan s u x).ddr = s.ddr ∧ (setCan s u x).ddrEcc = s.ddrEcc ∧
    (setCan s u x).scrub = s.scrub ∧ (setCan s u x).canRx = s.canRx ∧ (setCan s u x).out = s.out ∧ (setCan s u x).que = s.que ∧
    (setCan s u x).prog = s.prog ∧ (setCan s u x).lse = s.lse ∧ (setCan s u x).recRoots = s.recRoots ∧
    (setCan s u x).parHeld = s.parHeld ∧ (setCan s u x).untilOr = s.untilOr ∧ (setCan s u x).lane = s.lane ∧
    (setCan s u x).sysPend = s.sysPend ∧ (setCan s u x).red = s.red ∧ (setCan s u x).fgr = s.fgr ∧ (setCan s u x).txn = s.txn ∧
    (setCan s u x).xch = s.xch ∧ (setCan s u x).retain = s.retain ∧ (setCan s u x).cLse = s.cLse ∧ (setCan s u x).ballast = s.ballast ∧
    (setCan s u x).bal = s.bal ∧ (setCan s u x).hiCap = s.hiCap ∧ (setCan s u x).resp = s.resp ∧ (setCan s u x).irqQueue = s.irqQueue ∧
    (setCan s u x).irqArt = s.irqArt ∧ (setCan s u x).dbg = s.dbg ∧ (setCan s u x).art = s.art ∧ (setCan s u x).svc = s.svc ∧
    (setCan s u x).upd = s.upd ∧ (setCan s u x).bist = s.bist ∧ (setCan s u x).freeCtr = s.freeCtr := by
  refine ⟨?_, ?_, ?_, ?_, ?_, ?_, ?_, ?_, ?_, ?_, ?_, ?_, ?_, ?_, ?_, ?_, ?_, ?_, ?_, ?_, ?_, ?_, ?_, ?_, ?_, ?_, ?_, ?_, ?_, ?_, ?_, ?_, ?_, ?_, ?_, ?_, ?_, ?_, ?_, ?_, ?_, ?_, ?_, ?_, ?_, ?_, ?_, ?_, ?_, ?_, ?_, ?_⟩ <;> rfl

@[simp] theorem setTxb_keeps (s : State) (u : Fin 16) (b : Fin 32) (x : TxBuf) :
    (setTxb s u b x).pending = s.pending ∧ (setTxb s u b x).held = s.held ∧ (setTxb s u b x).regs = s.regs ∧
    (setTxb s u b x).mode = s.mode ∧ (setTxb s u b x).prev = s.prev ∧ (setTxb s u b x).cause = s.cause ∧
    (setTxb s u b x).strap = s.strap ∧ (setTxb s u b x).time = s.time ∧ (setTxb s u b x).io = s.io ∧ (setTxb s u b x).cls = s.cls ∧
    (setTxb s u b x).lastOc = s.lastOc ∧ (setTxb s u b x).clk = s.clk ∧ (setTxb s u b x).pwr = s.pwr ∧ (setTxb s u b x).rtc = s.rtc ∧
    (setTxb s u b x).rcd = s.rcd ∧ (setTxb s u b x).img = s.img ∧ (setTxb s u b x).container = s.container ∧
    (setTxb s u b x).owner = s.owner ∧ (setTxb s u b x).isolated = s.isolated ∧ (setTxb s u b x).store = s.store ∧
    (setTxb s u b x).ecc = s.ecc ∧ (setTxb s u b x).ddr = s.ddr ∧ (setTxb s u b x).ddrEcc = s.ddrEcc ∧
    (setTxb s u b x).scrub = s.scrub ∧ (setTxb s u b x).canRx = s.canRx ∧ (setTxb s u b x).out = s.out ∧ (setTxb s u b x).que = s.que ∧
    (setTxb s u b x).prog = s.prog ∧ (setTxb s u b x).lse = s.lse ∧ (setTxb s u b x).recRoots = s.recRoots ∧
    (setTxb s u b x).parHeld = s.parHeld ∧ (setTxb s u b x).untilOr = s.untilOr ∧ (setTxb s u b x).lane = s.lane ∧
    (setTxb s u b x).sysPend = s.sysPend ∧ (setTxb s u b x).red = s.red ∧ (setTxb s u b x).fgr = s.fgr ∧ (setTxb s u b x).txn = s.txn ∧
    (setTxb s u b x).xch = s.xch ∧ (setTxb s u b x).retain = s.retain ∧ (setTxb s u b x).cLse = s.cLse ∧
    (setTxb s u b x).ballast = s.ballast ∧ (setTxb s u b x).bal = s.bal ∧ (setTxb s u b x).hiCap = s.hiCap ∧
    (setTxb s u b x).resp = s.resp ∧ (setTxb s u b x).irqQueue = s.irqQueue ∧ (setTxb s u b x).irqArt = s.irqArt ∧
    (setTxb s u b x).dbg = s.dbg ∧ (setTxb s u b x).art = s.art ∧ (setTxb s u b x).svc = s.svc ∧ (setTxb s u b x).upd = s.upd ∧
    (setTxb s u b x).bist = s.bist ∧ (setTxb s u b x).freeCtr = s.freeCtr := by
  refine ⟨?_, ?_, ?_, ?_, ?_, ?_, ?_, ?_, ?_, ?_, ?_, ?_, ?_, ?_, ?_, ?_, ?_, ?_, ?_, ?_, ?_, ?_, ?_, ?_, ?_, ?_, ?_, ?_, ?_, ?_, ?_, ?_, ?_, ?_, ?_, ?_, ?_, ?_, ?_, ?_, ?_, ?_, ?_, ?_, ?_, ?_, ?_, ?_, ?_, ?_, ?_, ?_⟩ <;> rfl

@[simp] theorem setQ_keeps (s : State) (q : Fin 128) (x : Queue) :
    (setQ s q x).pending = s.pending ∧ (setQ s q x).held = s.held ∧ (setQ s q x).regs = s.regs ∧ (setQ s q x).mode = s.mode ∧
    (setQ s q x).prev = s.prev ∧ (setQ s q x).cause = s.cause ∧ (setQ s q x).strap = s.strap ∧ (setQ s q x).time = s.time ∧
    (setQ s q x).io = s.io ∧ (setQ s q x).cls = s.cls ∧ (setQ s q x).lastOc = s.lastOc ∧ (setQ s q x).clk = s.clk ∧
    (setQ s q x).pwr = s.pwr ∧ (setQ s q x).rtc = s.rtc ∧ (setQ s q x).rcd = s.rcd ∧ (setQ s q x).img = s.img ∧
    (setQ s q x).container = s.container ∧ (setQ s q x).owner = s.owner ∧ (setQ s q x).isolated = s.isolated ∧
    (setQ s q x).store = s.store ∧ (setQ s q x).ecc = s.ecc ∧ (setQ s q x).ddr = s.ddr ∧ (setQ s q x).ddrEcc = s.ddrEcc ∧
    (setQ s q x).scrub = s.scrub ∧ (setQ s q x).can = s.can ∧ (setQ s q x).canRx = s.canRx ∧ (setQ s q x).out = s.out ∧
    (setQ s q x).prog = s.prog ∧ (setQ s q x).lse = s.lse ∧ (setQ s q x).recRoots = s.recRoots ∧ (setQ s q x).parHeld = s.parHeld ∧
    (setQ s q x).untilOr = s.untilOr ∧ (setQ s q x).lane = s.lane ∧ (setQ s q x).sysPend = s.sysPend ∧ (setQ s q x).red = s.red ∧
    (setQ s q x).fgr = s.fgr ∧ (setQ s q x).txn = s.txn ∧ (setQ s q x).xch = s.xch ∧ (setQ s q x).retain = s.retain ∧
    (setQ s q x).cLse = s.cLse ∧ (setQ s q x).ballast = s.ballast ∧ (setQ s q x).bal = s.bal ∧ (setQ s q x).hiCap = s.hiCap ∧
    (setQ s q x).resp = s.resp ∧ (setQ s q x).irqQueue = s.irqQueue ∧ (setQ s q x).irqArt = s.irqArt ∧ (setQ s q x).dbg = s.dbg ∧
    (setQ s q x).art = s.art ∧ (setQ s q x).svc = s.svc ∧ (setQ s q x).upd = s.upd ∧ (setQ s q x).bist = s.bist ∧
    (setQ s q x).freeCtr = s.freeCtr := by
  refine ⟨?_, ?_, ?_, ?_, ?_, ?_, ?_, ?_, ?_, ?_, ?_, ?_, ?_, ?_, ?_, ?_, ?_, ?_, ?_, ?_, ?_, ?_, ?_, ?_, ?_, ?_, ?_, ?_, ?_, ?_, ?_, ?_, ?_, ?_, ?_, ?_, ?_, ?_, ?_, ?_, ?_, ?_, ?_, ?_, ?_, ?_, ?_, ?_, ?_, ?_, ?_, ?_⟩ <;> rfl

@[simp] theorem setCls_keeps (s : State) (k : Cls) (x : ClassRun) :
    (setCls s k x).pending = s.pending ∧ (setCls s k x).held = s.held ∧ (setCls s k x).regs = s.regs ∧ (setCls s k x).mode = s.mode ∧
    (setCls s k x).prev = s.prev ∧ (setCls s k x).cause = s.cause ∧ (setCls s k x).strap = s.strap ∧ (setCls s k x).time = s.time ∧
    (setCls s k x).io = s.io ∧ (setCls s k x).lastOc = s.lastOc ∧ (setCls s k x).clk = s.clk ∧ (setCls s k x).pwr = s.pwr ∧
    (setCls s k x).rtc = s.rtc ∧ (setCls s k x).rcd = s.rcd ∧ (setCls s k x).img = s.img ∧ (setCls s k x).container = s.container ∧
    (setCls s k x).owner = s.owner ∧ (setCls s k x).isolated = s.isolated ∧ (setCls s k x).store = s.store ∧
    (setCls s k x).ecc = s.ecc ∧ (setCls s k x).ddr = s.ddr ∧ (setCls s k x).ddrEcc = s.ddrEcc ∧ (setCls s k x).scrub = s.scrub ∧
    (setCls s k x).can = s.can ∧ (setCls s k x).canRx = s.canRx ∧ (setCls s k x).out = s.out ∧ (setCls s k x).que = s.que ∧
    (setCls s k x).prog = s.prog ∧ (setCls s k x).lse = s.lse ∧ (setCls s k x).recRoots = s.recRoots ∧
    (setCls s k x).parHeld = s.parHeld ∧ (setCls s k x).untilOr = s.untilOr ∧ (setCls s k x).lane = s.lane ∧
    (setCls s k x).sysPend = s.sysPend ∧ (setCls s k x).red = s.red ∧ (setCls s k x).fgr = s.fgr ∧ (setCls s k x).txn = s.txn ∧
    (setCls s k x).xch = s.xch ∧ (setCls s k x).retain = s.retain ∧ (setCls s k x).cLse = s.cLse ∧ (setCls s k x).ballast = s.ballast ∧
    (setCls s k x).bal = s.bal ∧ (setCls s k x).hiCap = s.hiCap ∧ (setCls s k x).resp = s.resp ∧ (setCls s k x).irqQueue = s.irqQueue ∧
    (setCls s k x).irqArt = s.irqArt ∧ (setCls s k x).dbg = s.dbg ∧ (setCls s k x).art = s.art ∧ (setCls s k x).svc = s.svc ∧
    (setCls s k x).upd = s.upd ∧ (setCls s k x).bist = s.bist ∧ (setCls s k x).freeCtr = s.freeCtr := by
  refine ⟨?_, ?_, ?_, ?_, ?_, ?_, ?_, ?_, ?_, ?_, ?_, ?_, ?_, ?_, ?_, ?_, ?_, ?_, ?_, ?_, ?_, ?_, ?_, ?_, ?_, ?_, ?_, ?_, ?_, ?_, ?_, ?_, ?_, ?_, ?_, ?_, ?_, ?_, ?_, ?_, ?_, ?_, ?_, ?_, ?_, ?_, ?_, ?_, ?_, ?_, ?_, ?_⟩ <;> rfl

@[simp] theorem setLane_keeps (s : State) (l : LaneSt) :
    (setLane s l).pending = s.pending ∧ (setLane s l).held = s.held ∧ (setLane s l).regs = s.regs ∧ (setLane s l).mode = s.mode ∧
    (setLane s l).prev = s.prev ∧ (setLane s l).cause = s.cause ∧ (setLane s l).strap = s.strap ∧ (setLane s l).time = s.time ∧
    (setLane s l).io = s.io ∧ (setLane s l).cls = s.cls ∧ (setLane s l).lastOc = s.lastOc ∧ (setLane s l).clk = s.clk ∧
    (setLane s l).pwr = s.pwr ∧ (setLane s l).rtc = s.rtc ∧ (setLane s l).rcd = s.rcd ∧ (setLane s l).img = s.img ∧
    (setLane s l).container = s.container ∧ (setLane s l).owner = s.owner ∧ (setLane s l).isolated = s.isolated ∧
    (setLane s l).store = s.store ∧ (setLane s l).ecc = s.ecc ∧ (setLane s l).ddr = s.ddr ∧ (setLane s l).ddrEcc = s.ddrEcc ∧
    (setLane s l).scrub = s.scrub ∧ (setLane s l).can = s.can ∧ (setLane s l).canRx = s.canRx ∧ (setLane s l).out = s.out ∧
    (setLane s l).que = s.que ∧ (setLane s l).prog = s.prog ∧ (setLane s l).lse = s.lse ∧ (setLane s l).recRoots = s.recRoots ∧
    (setLane s l).parHeld = s.parHeld ∧ (setLane s l).untilOr = s.untilOr ∧ (setLane s l).sysPend = s.sysPend ∧
    (setLane s l).red = s.red ∧ (setLane s l).fgr = s.fgr ∧ (setLane s l).txn = s.txn ∧ (setLane s l).xch = s.xch ∧
    (setLane s l).retain = s.retain ∧ (setLane s l).cLse = s.cLse ∧ (setLane s l).ballast = s.ballast ∧ (setLane s l).bal = s.bal ∧
    (setLane s l).hiCap = s.hiCap ∧ (setLane s l).resp = s.resp ∧ (setLane s l).irqQueue = s.irqQueue ∧
    (setLane s l).irqArt = s.irqArt ∧ (setLane s l).dbg = s.dbg ∧ (setLane s l).art = s.art ∧ (setLane s l).svc = s.svc ∧
    (setLane s l).upd = s.upd ∧ (setLane s l).bist = s.bist ∧ (setLane s l).freeCtr = s.freeCtr := by
  refine ⟨?_, ?_, ?_, ?_, ?_, ?_, ?_, ?_, ?_, ?_, ?_, ?_, ?_, ?_, ?_, ?_, ?_, ?_, ?_, ?_, ?_, ?_, ?_, ?_, ?_, ?_, ?_, ?_, ?_, ?_, ?_, ?_, ?_, ?_, ?_, ?_, ?_, ?_, ?_, ?_, ?_, ?_, ?_, ?_, ?_, ?_, ?_, ?_, ?_, ?_, ?_, ?_⟩ <;> rfl

@[simp] theorem setLse_keeps (s : State) (x : Lse) :
    (setLse s x).pending = s.pending ∧ (setLse s x).held = s.held ∧ (setLse s x).regs = s.regs ∧ (setLse s x).mode = s.mode ∧
    (setLse s x).prev = s.prev ∧ (setLse s x).cause = s.cause ∧ (setLse s x).strap = s.strap ∧ (setLse s x).time = s.time ∧
    (setLse s x).io = s.io ∧ (setLse s x).cls = s.cls ∧ (setLse s x).lastOc = s.lastOc ∧ (setLse s x).clk = s.clk ∧
    (setLse s x).pwr = s.pwr ∧ (setLse s x).rtc = s.rtc ∧ (setLse s x).rcd = s.rcd ∧ (setLse s x).img = s.img ∧
    (setLse s x).container = s.container ∧ (setLse s x).owner = s.owner ∧ (setLse s x).isolated = s.isolated ∧
    (setLse s x).store = s.store ∧ (setLse s x).ecc = s.ecc ∧ (setLse s x).ddr = s.ddr ∧ (setLse s x).ddrEcc = s.ddrEcc ∧
    (setLse s x).scrub = s.scrub ∧ (setLse s x).can = s.can ∧ (setLse s x).canRx = s.canRx ∧ (setLse s x).out = s.out ∧
    (setLse s x).que = s.que ∧ (setLse s x).prog = s.prog ∧ (setLse s x).recRoots = s.recRoots ∧ (setLse s x).parHeld = s.parHeld ∧
    (setLse s x).untilOr = s.untilOr ∧ (setLse s x).lane = s.lane ∧ (setLse s x).sysPend = s.sysPend ∧ (setLse s x).red = s.red ∧
    (setLse s x).fgr = s.fgr ∧ (setLse s x).txn = s.txn ∧ (setLse s x).xch = s.xch ∧ (setLse s x).retain = s.retain ∧
    (setLse s x).cLse = s.cLse ∧ (setLse s x).ballast = s.ballast ∧ (setLse s x).bal = s.bal ∧ (setLse s x).hiCap = s.hiCap ∧
    (setLse s x).resp = s.resp ∧ (setLse s x).irqQueue = s.irqQueue ∧ (setLse s x).irqArt = s.irqArt ∧ (setLse s x).dbg = s.dbg ∧
    (setLse s x).art = s.art ∧ (setLse s x).svc = s.svc ∧ (setLse s x).upd = s.upd ∧ (setLse s x).bist = s.bist ∧
    (setLse s x).freeCtr = s.freeCtr := by
  refine ⟨?_, ?_, ?_, ?_, ?_, ?_, ?_, ?_, ?_, ?_, ?_, ?_, ?_, ?_, ?_, ?_, ?_, ?_, ?_, ?_, ?_, ?_, ?_, ?_, ?_, ?_, ?_, ?_, ?_, ?_, ?_, ?_, ?_, ?_, ?_, ?_, ?_, ?_, ?_, ?_, ?_, ?_, ?_, ?_, ?_, ?_, ?_, ?_, ?_, ?_, ?_, ?_⟩ <;> rfl

@[simp] theorem setRed_keeps (s : State) (r : Red) :
    (setRed s r).pending = s.pending ∧ (setRed s r).held = s.held ∧ (setRed s r).regs = s.regs ∧ (setRed s r).mode = s.mode ∧
    (setRed s r).prev = s.prev ∧ (setRed s r).cause = s.cause ∧ (setRed s r).strap = s.strap ∧ (setRed s r).time = s.time ∧
    (setRed s r).io = s.io ∧ (setRed s r).cls = s.cls ∧ (setRed s r).lastOc = s.lastOc ∧ (setRed s r).clk = s.clk ∧
    (setRed s r).pwr = s.pwr ∧ (setRed s r).rtc = s.rtc ∧ (setRed s r).rcd = s.rcd ∧ (setRed s r).img = s.img ∧
    (setRed s r).container = s.container ∧ (setRed s r).owner = s.owner ∧ (setRed s r).isolated = s.isolated ∧
    (setRed s r).store = s.store ∧ (setRed s r).ecc = s.ecc ∧ (setRed s r).ddr = s.ddr ∧ (setRed s r).ddrEcc = s.ddrEcc ∧
    (setRed s r).scrub = s.scrub ∧ (setRed s r).can = s.can ∧ (setRed s r).canRx = s.canRx ∧ (setRed s r).out = s.out ∧
    (setRed s r).que = s.que ∧ (setRed s r).prog = s.prog ∧ (setRed s r).lse = s.lse ∧ (setRed s r).recRoots = s.recRoots ∧
    (setRed s r).parHeld = s.parHeld ∧ (setRed s r).untilOr = s.untilOr ∧ (setRed s r).lane = s.lane ∧
    (setRed s r).sysPend = s.sysPend ∧ (setRed s r).fgr = s.fgr ∧ (setRed s r).txn = s.txn ∧ (setRed s r).xch = s.xch ∧
    (setRed s r).retain = s.retain ∧ (setRed s r).cLse = s.cLse ∧ (setRed s r).ballast = s.ballast ∧ (setRed s r).bal = s.bal ∧
    (setRed s r).hiCap = s.hiCap ∧ (setRed s r).resp = s.resp ∧ (setRed s r).irqQueue = s.irqQueue ∧ (setRed s r).irqArt = s.irqArt ∧
    (setRed s r).dbg = s.dbg ∧ (setRed s r).art = s.art ∧ (setRed s r).svc = s.svc ∧ (setRed s r).upd = s.upd ∧
    (setRed s r).bist = s.bist ∧ (setRed s r).freeCtr = s.freeCtr := by
  refine ⟨?_, ?_, ?_, ?_, ?_, ?_, ?_, ?_, ?_, ?_, ?_, ?_, ?_, ?_, ?_, ?_, ?_, ?_, ?_, ?_, ?_, ?_, ?_, ?_, ?_, ?_, ?_, ?_, ?_, ?_, ?_, ?_, ?_, ?_, ?_, ?_, ?_, ?_, ?_, ?_, ?_, ?_, ?_, ?_, ?_, ?_, ?_, ?_, ?_, ?_, ?_, ?_⟩ <;> rfl

@[simp] theorem setHand_keeps (s : State) (h : Handover) :
    (setHand s h).pending = s.pending ∧ (setHand s h).held = s.held ∧ (setHand s h).regs = s.regs ∧ (setHand s h).mode = s.mode ∧
    (setHand s h).prev = s.prev ∧ (setHand s h).cause = s.cause ∧ (setHand s h).strap = s.strap ∧ (setHand s h).time = s.time ∧
    (setHand s h).io = s.io ∧ (setHand s h).cls = s.cls ∧ (setHand s h).lastOc = s.lastOc ∧ (setHand s h).clk = s.clk ∧
    (setHand s h).pwr = s.pwr ∧ (setHand s h).rtc = s.rtc ∧ (setHand s h).rcd = s.rcd ∧ (setHand s h).img = s.img ∧
    (setHand s h).container = s.container ∧ (setHand s h).owner = s.owner ∧ (setHand s h).isolated = s.isolated ∧
    (setHand s h).store = s.store ∧ (setHand s h).ecc = s.ecc ∧ (setHand s h).ddr = s.ddr ∧ (setHand s h).ddrEcc = s.ddrEcc ∧
    (setHand s h).scrub = s.scrub ∧ (setHand s h).can = s.can ∧ (setHand s h).canRx = s.canRx ∧ (setHand s h).out = s.out ∧
    (setHand s h).que = s.que ∧ (setHand s h).prog = s.prog ∧ (setHand s h).lse = s.lse ∧ (setHand s h).recRoots = s.recRoots ∧
    (setHand s h).parHeld = s.parHeld ∧ (setHand s h).untilOr = s.untilOr ∧ (setHand s h).lane = s.lane ∧
    (setHand s h).sysPend = s.sysPend ∧ (setHand s h).fgr = s.fgr ∧ (setHand s h).txn = s.txn ∧ (setHand s h).xch = s.xch ∧
    (setHand s h).retain = s.retain ∧ (setHand s h).cLse = s.cLse ∧ (setHand s h).ballast = s.ballast ∧ (setHand s h).bal = s.bal ∧
    (setHand s h).hiCap = s.hiCap ∧ (setHand s h).resp = s.resp ∧ (setHand s h).irqQueue = s.irqQueue ∧
    (setHand s h).irqArt = s.irqArt ∧ (setHand s h).dbg = s.dbg ∧ (setHand s h).art = s.art ∧ (setHand s h).svc = s.svc ∧
    (setHand s h).upd = s.upd ∧ (setHand s h).bist = s.bist ∧ (setHand s h).freeCtr = s.freeCtr := by
  refine ⟨?_, ?_, ?_, ?_, ?_, ?_, ?_, ?_, ?_, ?_, ?_, ?_, ?_, ?_, ?_, ?_, ?_, ?_, ?_, ?_, ?_, ?_, ?_, ?_, ?_, ?_, ?_, ?_, ?_, ?_, ?_, ?_, ?_, ?_, ?_, ?_, ?_, ?_, ?_, ?_, ?_, ?_, ?_, ?_, ?_, ?_, ?_, ?_, ?_, ?_, ?_, ?_⟩ <;> rfl

@[simp] theorem setTLane_keeps (s : State) (l : Fin 2) (x : TLane) :
    (setTLane s l x).pending = s.pending ∧ (setTLane s l x).held = s.held ∧ (setTLane s l x).regs = s.regs ∧
    (setTLane s l x).mode = s.mode ∧ (setTLane s l x).prev = s.prev ∧ (setTLane s l x).cause = s.cause ∧
    (setTLane s l x).strap = s.strap ∧ (setTLane s l x).time = s.time ∧ (setTLane s l x).io = s.io ∧ (setTLane s l x).cls = s.cls ∧
    (setTLane s l x).lastOc = s.lastOc ∧ (setTLane s l x).clk = s.clk ∧ (setTLane s l x).pwr = s.pwr ∧ (setTLane s l x).rtc = s.rtc ∧
    (setTLane s l x).rcd = s.rcd ∧ (setTLane s l x).img = s.img ∧ (setTLane s l x).container = s.container ∧
    (setTLane s l x).owner = s.owner ∧ (setTLane s l x).isolated = s.isolated ∧ (setTLane s l x).store = s.store ∧
    (setTLane s l x).ecc = s.ecc ∧ (setTLane s l x).ddr = s.ddr ∧ (setTLane s l x).ddrEcc = s.ddrEcc ∧
    (setTLane s l x).scrub = s.scrub ∧ (setTLane s l x).can = s.can ∧ (setTLane s l x).canRx = s.canRx ∧ (setTLane s l x).out = s.out ∧
    (setTLane s l x).que = s.que ∧ (setTLane s l x).prog = s.prog ∧ (setTLane s l x).lse = s.lse ∧
    (setTLane s l x).recRoots = s.recRoots ∧ (setTLane s l x).parHeld = s.parHeld ∧ (setTLane s l x).untilOr = s.untilOr ∧
    (setTLane s l x).lane = s.lane ∧ (setTLane s l x).sysPend = s.sysPend ∧ (setTLane s l x).fgr = s.fgr ∧
    (setTLane s l x).txn = s.txn ∧ (setTLane s l x).xch = s.xch ∧ (setTLane s l x).retain = s.retain ∧ (setTLane s l x).cLse = s.cLse ∧
    (setTLane s l x).ballast = s.ballast ∧ (setTLane s l x).bal = s.bal ∧ (setTLane s l x).hiCap = s.hiCap ∧
    (setTLane s l x).resp = s.resp ∧ (setTLane s l x).irqQueue = s.irqQueue ∧ (setTLane s l x).irqArt = s.irqArt ∧
    (setTLane s l x).dbg = s.dbg ∧ (setTLane s l x).art = s.art ∧ (setTLane s l x).svc = s.svc ∧ (setTLane s l x).upd = s.upd ∧
    (setTLane s l x).bist = s.bist ∧ (setTLane s l x).freeCtr = s.freeCtr := by
  refine ⟨?_, ?_, ?_, ?_, ?_, ?_, ?_, ?_, ?_, ?_, ?_, ?_, ?_, ?_, ?_, ?_, ?_, ?_, ?_, ?_, ?_, ?_, ?_, ?_, ?_, ?_, ?_, ?_, ?_, ?_, ?_, ?_, ?_, ?_, ?_, ?_, ?_, ?_, ?_, ?_, ?_, ?_, ?_, ?_, ?_, ?_, ?_, ?_, ?_, ?_, ?_, ?_⟩ <;> rfl

@[simp] theorem setTxn_keeps (s : State) (m : Master) (x : Txn) :
    (setTxn s m x).pending = s.pending ∧ (setTxn s m x).held = s.held ∧ (setTxn s m x).regs = s.regs ∧ (setTxn s m x).mode = s.mode ∧
    (setTxn s m x).prev = s.prev ∧ (setTxn s m x).cause = s.cause ∧ (setTxn s m x).strap = s.strap ∧ (setTxn s m x).time = s.time ∧
    (setTxn s m x).io = s.io ∧ (setTxn s m x).cls = s.cls ∧ (setTxn s m x).lastOc = s.lastOc ∧ (setTxn s m x).clk = s.clk ∧
    (setTxn s m x).pwr = s.pwr ∧ (setTxn s m x).rtc = s.rtc ∧ (setTxn s m x).rcd = s.rcd ∧ (setTxn s m x).img = s.img ∧
    (setTxn s m x).container = s.container ∧ (setTxn s m x).owner = s.owner ∧ (setTxn s m x).isolated = s.isolated ∧
    (setTxn s m x).store = s.store ∧ (setTxn s m x).ecc = s.ecc ∧ (setTxn s m x).ddr = s.ddr ∧ (setTxn s m x).ddrEcc = s.ddrEcc ∧
    (setTxn s m x).scrub = s.scrub ∧ (setTxn s m x).can = s.can ∧ (setTxn s m x).canRx = s.canRx ∧ (setTxn s m x).out = s.out ∧
    (setTxn s m x).que = s.que ∧ (setTxn s m x).prog = s.prog ∧ (setTxn s m x).lse = s.lse ∧ (setTxn s m x).recRoots = s.recRoots ∧
    (setTxn s m x).parHeld = s.parHeld ∧ (setTxn s m x).untilOr = s.untilOr ∧ (setTxn s m x).lane = s.lane ∧
    (setTxn s m x).sysPend = s.sysPend ∧ (setTxn s m x).red = s.red ∧ (setTxn s m x).fgr = s.fgr ∧ (setTxn s m x).xch = s.xch ∧
    (setTxn s m x).retain = s.retain ∧ (setTxn s m x).cLse = s.cLse ∧ (setTxn s m x).ballast = s.ballast ∧ (setTxn s m x).bal = s.bal ∧
    (setTxn s m x).hiCap = s.hiCap ∧ (setTxn s m x).resp = s.resp ∧ (setTxn s m x).irqQueue = s.irqQueue ∧
    (setTxn s m x).irqArt = s.irqArt ∧ (setTxn s m x).dbg = s.dbg ∧ (setTxn s m x).art = s.art ∧ (setTxn s m x).svc = s.svc ∧
    (setTxn s m x).upd = s.upd ∧ (setTxn s m x).bist = s.bist ∧ (setTxn s m x).freeCtr = s.freeCtr := by
  refine ⟨?_, ?_, ?_, ?_, ?_, ?_, ?_, ?_, ?_, ?_, ?_, ?_, ?_, ?_, ?_, ?_, ?_, ?_, ?_, ?_, ?_, ?_, ?_, ?_, ?_, ?_, ?_, ?_, ?_, ?_, ?_, ?_, ?_, ?_, ?_, ?_, ?_, ?_, ?_, ?_, ?_, ?_, ?_, ?_, ?_, ?_, ?_, ?_, ?_, ?_, ?_, ?_⟩ <;> rfl

@[simp] theorem setProg_keeps (s : State) (p : Prog) :
    (setProg s p).pending = s.pending ∧ (setProg s p).held = s.held ∧ (setProg s p).regs = s.regs ∧ (setProg s p).mode = s.mode ∧
    (setProg s p).prev = s.prev ∧ (setProg s p).cause = s.cause ∧ (setProg s p).strap = s.strap ∧ (setProg s p).time = s.time ∧
    (setProg s p).io = s.io ∧ (setProg s p).cls = s.cls ∧ (setProg s p).lastOc = s.lastOc ∧ (setProg s p).clk = s.clk ∧
    (setProg s p).pwr = s.pwr ∧ (setProg s p).rtc = s.rtc ∧ (setProg s p).rcd = s.rcd ∧ (setProg s p).img = s.img ∧
    (setProg s p).container = s.container ∧ (setProg s p).owner = s.owner ∧ (setProg s p).isolated = s.isolated ∧
    (setProg s p).store = s.store ∧ (setProg s p).ecc = s.ecc ∧ (setProg s p).ddr = s.ddr ∧ (setProg s p).ddrEcc = s.ddrEcc ∧
    (setProg s p).scrub = s.scrub ∧ (setProg s p).can = s.can ∧ (setProg s p).canRx = s.canRx ∧ (setProg s p).out = s.out ∧
    (setProg s p).que = s.que ∧ (setProg s p).lse = s.lse ∧ (setProg s p).recRoots = s.recRoots ∧ (setProg s p).parHeld = s.parHeld ∧
    (setProg s p).untilOr = s.untilOr ∧ (setProg s p).lane = s.lane ∧ (setProg s p).sysPend = s.sysPend ∧ (setProg s p).red = s.red ∧
    (setProg s p).fgr = s.fgr ∧ (setProg s p).txn = s.txn ∧ (setProg s p).xch = s.xch ∧ (setProg s p).retain = s.retain ∧
    (setProg s p).cLse = s.cLse ∧ (setProg s p).ballast = s.ballast ∧ (setProg s p).bal = s.bal ∧ (setProg s p).hiCap = s.hiCap ∧
    (setProg s p).resp = s.resp ∧ (setProg s p).irqQueue = s.irqQueue ∧ (setProg s p).irqArt = s.irqArt ∧ (setProg s p).dbg = s.dbg ∧
    (setProg s p).art = s.art ∧ (setProg s p).svc = s.svc ∧ (setProg s p).upd = s.upd ∧ (setProg s p).bist = s.bist ∧
    (setProg s p).freeCtr = s.freeCtr := by
  refine ⟨?_, ?_, ?_, ?_, ?_, ?_, ?_, ?_, ?_, ?_, ?_, ?_, ?_, ?_, ?_, ?_, ?_, ?_, ?_, ?_, ?_, ?_, ?_, ?_, ?_, ?_, ?_, ?_, ?_, ?_, ?_, ?_, ?_, ?_, ?_, ?_, ?_, ?_, ?_, ?_, ?_, ?_, ?_, ?_, ?_, ?_, ?_, ?_, ?_, ?_, ?_, ?_⟩ <;> rfl

@[simp] theorem setView_keeps (s : State) (k : Cls) (v : ImgView) :
    (setView s k v).pending = s.pending ∧ (setView s k v).held = s.held ∧ (setView s k v).regs = s.regs ∧
    (setView s k v).mode = s.mode ∧ (setView s k v).prev = s.prev ∧ (setView s k v).cause = s.cause ∧ (setView s k v).strap = s.strap ∧
    (setView s k v).time = s.time ∧ (setView s k v).io = s.io ∧ (setView s k v).cls = s.cls ∧ (setView s k v).lastOc = s.lastOc ∧
    (setView s k v).clk = s.clk ∧ (setView s k v).pwr = s.pwr ∧ (setView s k v).rtc = s.rtc ∧ (setView s k v).rcd = s.rcd ∧
    (setView s k v).img = s.img ∧ (setView s k v).container = s.container ∧ (setView s k v).owner = s.owner ∧
    (setView s k v).isolated = s.isolated ∧ (setView s k v).store = s.store ∧ (setView s k v).ecc = s.ecc ∧
    (setView s k v).ddr = s.ddr ∧ (setView s k v).ddrEcc = s.ddrEcc ∧ (setView s k v).scrub = s.scrub ∧ (setView s k v).can = s.can ∧
    (setView s k v).canRx = s.canRx ∧ (setView s k v).out = s.out ∧ (setView s k v).que = s.que ∧ (setView s k v).lse = s.lse ∧
    (setView s k v).recRoots = s.recRoots ∧ (setView s k v).parHeld = s.parHeld ∧ (setView s k v).untilOr = s.untilOr ∧
    (setView s k v).lane = s.lane ∧ (setView s k v).sysPend = s.sysPend ∧ (setView s k v).red = s.red ∧ (setView s k v).fgr = s.fgr ∧
    (setView s k v).txn = s.txn ∧ (setView s k v).xch = s.xch ∧ (setView s k v).retain = s.retain ∧ (setView s k v).cLse = s.cLse ∧
    (setView s k v).ballast = s.ballast ∧ (setView s k v).bal = s.bal ∧ (setView s k v).hiCap = s.hiCap ∧
    (setView s k v).resp = s.resp ∧ (setView s k v).irqQueue = s.irqQueue ∧ (setView s k v).irqArt = s.irqArt ∧
    (setView s k v).dbg = s.dbg ∧ (setView s k v).art = s.art ∧ (setView s k v).svc = s.svc ∧ (setView s k v).upd = s.upd ∧
    (setView s k v).bist = s.bist ∧ (setView s k v).freeCtr = s.freeCtr := by
  refine ⟨?_, ?_, ?_, ?_, ?_, ?_, ?_, ?_, ?_, ?_, ?_, ?_, ?_, ?_, ?_, ?_, ?_, ?_, ?_, ?_, ?_, ?_, ?_, ?_, ?_, ?_, ?_, ?_, ?_, ?_, ?_, ?_, ?_, ?_, ?_, ?_, ?_, ?_, ?_, ?_, ?_, ?_, ?_, ?_, ?_, ?_, ?_, ?_, ?_, ?_, ?_, ?_⟩ <;> rfl

@[simp] theorem setFgr_keeps (s : State) (f : Feger) :
    (setFgr s f).pending = s.pending ∧ (setFgr s f).held = s.held ∧ (setFgr s f).regs = s.regs ∧ (setFgr s f).mode = s.mode ∧
    (setFgr s f).prev = s.prev ∧ (setFgr s f).cause = s.cause ∧ (setFgr s f).strap = s.strap ∧ (setFgr s f).time = s.time ∧
    (setFgr s f).io = s.io ∧ (setFgr s f).cls = s.cls ∧ (setFgr s f).lastOc = s.lastOc ∧ (setFgr s f).clk = s.clk ∧
    (setFgr s f).pwr = s.pwr ∧ (setFgr s f).rtc = s.rtc ∧ (setFgr s f).rcd = s.rcd ∧ (setFgr s f).img = s.img ∧
    (setFgr s f).container = s.container ∧ (setFgr s f).owner = s.owner ∧ (setFgr s f).isolated = s.isolated ∧
    (setFgr s f).store = s.store ∧ (setFgr s f).ecc = s.ecc ∧ (setFgr s f).ddr = s.ddr ∧ (setFgr s f).ddrEcc = s.ddrEcc ∧
    (setFgr s f).scrub = s.scrub ∧ (setFgr s f).can = s.can ∧ (setFgr s f).canRx = s.canRx ∧ (setFgr s f).out = s.out ∧
    (setFgr s f).que = s.que ∧ (setFgr s f).prog = s.prog ∧ (setFgr s f).lse = s.lse ∧ (setFgr s f).recRoots = s.recRoots ∧
    (setFgr s f).parHeld = s.parHeld ∧ (setFgr s f).untilOr = s.untilOr ∧ (setFgr s f).lane = s.lane ∧
    (setFgr s f).sysPend = s.sysPend ∧ (setFgr s f).red = s.red ∧ (setFgr s f).txn = s.txn ∧ (setFgr s f).xch = s.xch ∧
    (setFgr s f).retain = s.retain ∧ (setFgr s f).cLse = s.cLse ∧ (setFgr s f).ballast = s.ballast ∧ (setFgr s f).bal = s.bal ∧
    (setFgr s f).hiCap = s.hiCap ∧ (setFgr s f).resp = s.resp ∧ (setFgr s f).irqQueue = s.irqQueue ∧ (setFgr s f).irqArt = s.irqArt ∧
    (setFgr s f).dbg = s.dbg ∧ (setFgr s f).art = s.art ∧ (setFgr s f).svc = s.svc ∧ (setFgr s f).upd = s.upd ∧
    (setFgr s f).bist = s.bist ∧ (setFgr s f).freeCtr = s.freeCtr := by
  refine ⟨?_, ?_, ?_, ?_, ?_, ?_, ?_, ?_, ?_, ?_, ?_, ?_, ?_, ?_, ?_, ?_, ?_, ?_, ?_, ?_, ?_, ?_, ?_, ?_, ?_, ?_, ?_, ?_, ?_, ?_, ?_, ?_, ?_, ?_, ?_, ?_, ?_, ?_, ?_, ?_, ?_, ?_, ?_, ?_, ?_, ?_, ?_, ?_, ?_, ?_, ?_, ?_⟩ <;> rfl

@[simp] theorem setDbg_keeps (s : State) (d : Debug) :
    (setDbg s d).pending = s.pending ∧ (setDbg s d).held = s.held ∧ (setDbg s d).regs = s.regs ∧ (setDbg s d).mode = s.mode ∧
    (setDbg s d).prev = s.prev ∧ (setDbg s d).cause = s.cause ∧ (setDbg s d).strap = s.strap ∧ (setDbg s d).time = s.time ∧
    (setDbg s d).io = s.io ∧ (setDbg s d).cls = s.cls ∧ (setDbg s d).lastOc = s.lastOc ∧ (setDbg s d).clk = s.clk ∧
    (setDbg s d).pwr = s.pwr ∧ (setDbg s d).rtc = s.rtc ∧ (setDbg s d).rcd = s.rcd ∧ (setDbg s d).img = s.img ∧
    (setDbg s d).container = s.container ∧ (setDbg s d).owner = s.owner ∧ (setDbg s d).isolated = s.isolated ∧
    (setDbg s d).store = s.store ∧ (setDbg s d).ecc = s.ecc ∧ (setDbg s d).ddr = s.ddr ∧ (setDbg s d).ddrEcc = s.ddrEcc ∧
    (setDbg s d).scrub = s.scrub ∧ (setDbg s d).can = s.can ∧ (setDbg s d).canRx = s.canRx ∧ (setDbg s d).out = s.out ∧
    (setDbg s d).que = s.que ∧ (setDbg s d).prog = s.prog ∧ (setDbg s d).lse = s.lse ∧ (setDbg s d).recRoots = s.recRoots ∧
    (setDbg s d).parHeld = s.parHeld ∧ (setDbg s d).untilOr = s.untilOr ∧ (setDbg s d).lane = s.lane ∧
    (setDbg s d).sysPend = s.sysPend ∧ (setDbg s d).red = s.red ∧ (setDbg s d).fgr = s.fgr ∧ (setDbg s d).txn = s.txn ∧
    (setDbg s d).xch = s.xch ∧ (setDbg s d).retain = s.retain ∧ (setDbg s d).cLse = s.cLse ∧ (setDbg s d).ballast = s.ballast ∧
    (setDbg s d).bal = s.bal ∧ (setDbg s d).hiCap = s.hiCap ∧ (setDbg s d).resp = s.resp ∧ (setDbg s d).irqQueue = s.irqQueue ∧
    (setDbg s d).irqArt = s.irqArt ∧ (setDbg s d).art = s.art ∧ (setDbg s d).svc = s.svc ∧ (setDbg s d).upd = s.upd ∧
    (setDbg s d).bist = s.bist ∧ (setDbg s d).freeCtr = s.freeCtr := by
  refine ⟨?_, ?_, ?_, ?_, ?_, ?_, ?_, ?_, ?_, ?_, ?_, ?_, ?_, ?_, ?_, ?_, ?_, ?_, ?_, ?_, ?_, ?_, ?_, ?_, ?_, ?_, ?_, ?_, ?_, ?_, ?_, ?_, ?_, ?_, ?_, ?_, ?_, ?_, ?_, ?_, ?_, ?_, ?_, ?_, ?_, ?_, ?_, ?_, ?_, ?_, ?_, ?_⟩ <;> rfl

@[simp] theorem setSvc_keeps (s : State) (v : Service) :
    (setSvc s v).pending = s.pending ∧ (setSvc s v).held = s.held ∧ (setSvc s v).regs = s.regs ∧ (setSvc s v).mode = s.mode ∧
    (setSvc s v).prev = s.prev ∧ (setSvc s v).cause = s.cause ∧ (setSvc s v).strap = s.strap ∧ (setSvc s v).time = s.time ∧
    (setSvc s v).io = s.io ∧ (setSvc s v).cls = s.cls ∧ (setSvc s v).lastOc = s.lastOc ∧ (setSvc s v).clk = s.clk ∧
    (setSvc s v).pwr = s.pwr ∧ (setSvc s v).rtc = s.rtc ∧ (setSvc s v).rcd = s.rcd ∧ (setSvc s v).img = s.img ∧
    (setSvc s v).container = s.container ∧ (setSvc s v).owner = s.owner ∧ (setSvc s v).isolated = s.isolated ∧
    (setSvc s v).store = s.store ∧ (setSvc s v).ecc = s.ecc ∧ (setSvc s v).ddr = s.ddr ∧ (setSvc s v).ddrEcc = s.ddrEcc ∧
    (setSvc s v).scrub = s.scrub ∧ (setSvc s v).can = s.can ∧ (setSvc s v).canRx = s.canRx ∧ (setSvc s v).out = s.out ∧
    (setSvc s v).que = s.que ∧ (setSvc s v).prog = s.prog ∧ (setSvc s v).lse = s.lse ∧ (setSvc s v).recRoots = s.recRoots ∧
    (setSvc s v).parHeld = s.parHeld ∧ (setSvc s v).untilOr = s.untilOr ∧ (setSvc s v).lane = s.lane ∧
    (setSvc s v).sysPend = s.sysPend ∧ (setSvc s v).red = s.red ∧ (setSvc s v).fgr = s.fgr ∧ (setSvc s v).txn = s.txn ∧
    (setSvc s v).xch = s.xch ∧ (setSvc s v).retain = s.retain ∧ (setSvc s v).cLse = s.cLse ∧ (setSvc s v).ballast = s.ballast ∧
    (setSvc s v).bal = s.bal ∧ (setSvc s v).hiCap = s.hiCap ∧ (setSvc s v).resp = s.resp ∧ (setSvc s v).irqQueue = s.irqQueue ∧
    (setSvc s v).irqArt = s.irqArt ∧ (setSvc s v).dbg = s.dbg ∧ (setSvc s v).art = s.art ∧ (setSvc s v).upd = s.upd ∧
    (setSvc s v).bist = s.bist ∧ (setSvc s v).freeCtr = s.freeCtr := by
  refine ⟨?_, ?_, ?_, ?_, ?_, ?_, ?_, ?_, ?_, ?_, ?_, ?_, ?_, ?_, ?_, ?_, ?_, ?_, ?_, ?_, ?_, ?_, ?_, ?_, ?_, ?_, ?_, ?_, ?_, ?_, ?_, ?_, ?_, ?_, ?_, ?_, ?_, ?_, ?_, ?_, ?_, ?_, ?_, ?_, ?_, ?_, ?_, ?_, ?_, ?_, ?_, ?_⟩ <;> rfl

@[simp] theorem setUpd_keeps (s : State) (u : Update) :
    (setUpd s u).pending = s.pending ∧ (setUpd s u).held = s.held ∧ (setUpd s u).regs = s.regs ∧ (setUpd s u).mode = s.mode ∧
    (setUpd s u).prev = s.prev ∧ (setUpd s u).cause = s.cause ∧ (setUpd s u).strap = s.strap ∧ (setUpd s u).time = s.time ∧
    (setUpd s u).io = s.io ∧ (setUpd s u).cls = s.cls ∧ (setUpd s u).lastOc = s.lastOc ∧ (setUpd s u).clk = s.clk ∧
    (setUpd s u).pwr = s.pwr ∧ (setUpd s u).rtc = s.rtc ∧ (setUpd s u).rcd = s.rcd ∧ (setUpd s u).img = s.img ∧
    (setUpd s u).container = s.container ∧ (setUpd s u).owner = s.owner ∧ (setUpd s u).isolated = s.isolated ∧
    (setUpd s u).store = s.store ∧ (setUpd s u).ecc = s.ecc ∧ (setUpd s u).ddr = s.ddr ∧ (setUpd s u).ddrEcc = s.ddrEcc ∧
    (setUpd s u).scrub = s.scrub ∧ (setUpd s u).can = s.can ∧ (setUpd s u).canRx = s.canRx ∧ (setUpd s u).out = s.out ∧
    (setUpd s u).que = s.que ∧ (setUpd s u).prog = s.prog ∧ (setUpd s u).lse = s.lse ∧ (setUpd s u).recRoots = s.recRoots ∧
    (setUpd s u).parHeld = s.parHeld ∧ (setUpd s u).untilOr = s.untilOr ∧ (setUpd s u).lane = s.lane ∧
    (setUpd s u).sysPend = s.sysPend ∧ (setUpd s u).red = s.red ∧ (setUpd s u).fgr = s.fgr ∧ (setUpd s u).txn = s.txn ∧
    (setUpd s u).xch = s.xch ∧ (setUpd s u).retain = s.retain ∧ (setUpd s u).cLse = s.cLse ∧ (setUpd s u).ballast = s.ballast ∧
    (setUpd s u).bal = s.bal ∧ (setUpd s u).hiCap = s.hiCap ∧ (setUpd s u).resp = s.resp ∧ (setUpd s u).irqQueue = s.irqQueue ∧
    (setUpd s u).irqArt = s.irqArt ∧ (setUpd s u).dbg = s.dbg ∧ (setUpd s u).art = s.art ∧ (setUpd s u).svc = s.svc ∧
    (setUpd s u).bist = s.bist ∧ (setUpd s u).freeCtr = s.freeCtr := by
  refine ⟨?_, ?_, ?_, ?_, ?_, ?_, ?_, ?_, ?_, ?_, ?_, ?_, ?_, ?_, ?_, ?_, ?_, ?_, ?_, ?_, ?_, ?_, ?_, ?_, ?_, ?_, ?_, ?_, ?_, ?_, ?_, ?_, ?_, ?_, ?_, ?_, ?_, ?_, ?_, ?_, ?_, ?_, ?_, ?_, ?_, ?_, ?_, ?_, ?_, ?_, ?_, ?_⟩ <;> rfl

@[simp] theorem emit_keeps (m : OutMsg) (s : State) :
    (emit m s).pending = s.pending ∧ (emit m s).held = s.held ∧ (emit m s).regs = s.regs ∧ (emit m s).mode = s.mode ∧
    (emit m s).prev = s.prev ∧ (emit m s).cause = s.cause ∧ (emit m s).strap = s.strap ∧ (emit m s).time = s.time ∧
    (emit m s).io = s.io ∧ (emit m s).cls = s.cls ∧ (emit m s).lastOc = s.lastOc ∧ (emit m s).clk = s.clk ∧ (emit m s).pwr = s.pwr ∧
    (emit m s).rtc = s.rtc ∧ (emit m s).rcd = s.rcd ∧ (emit m s).img = s.img ∧ (emit m s).container = s.container ∧
    (emit m s).owner = s.owner ∧ (emit m s).isolated = s.isolated ∧ (emit m s).store = s.store ∧ (emit m s).ecc = s.ecc ∧
    (emit m s).ddr = s.ddr ∧ (emit m s).ddrEcc = s.ddrEcc ∧ (emit m s).scrub = s.scrub ∧ (emit m s).can = s.can ∧
    (emit m s).canRx = s.canRx ∧ (emit m s).que = s.que ∧ (emit m s).prog = s.prog ∧ (emit m s).lse = s.lse ∧
    (emit m s).recRoots = s.recRoots ∧ (emit m s).parHeld = s.parHeld ∧ (emit m s).untilOr = s.untilOr ∧ (emit m s).lane = s.lane ∧
    (emit m s).sysPend = s.sysPend ∧ (emit m s).red = s.red ∧ (emit m s).fgr = s.fgr ∧ (emit m s).txn = s.txn ∧ (emit m s).xch = s.xch ∧
    (emit m s).retain = s.retain ∧ (emit m s).cLse = s.cLse ∧ (emit m s).ballast = s.ballast ∧ (emit m s).bal = s.bal ∧
    (emit m s).hiCap = s.hiCap ∧ (emit m s).resp = s.resp ∧ (emit m s).irqQueue = s.irqQueue ∧ (emit m s).irqArt = s.irqArt ∧
    (emit m s).dbg = s.dbg ∧ (emit m s).art = s.art ∧ (emit m s).svc = s.svc ∧ (emit m s).upd = s.upd ∧ (emit m s).bist = s.bist ∧
    (emit m s).freeCtr = s.freeCtr := by
  refine ⟨?_, ?_, ?_, ?_, ?_, ?_, ?_, ?_, ?_, ?_, ?_, ?_, ?_, ?_, ?_, ?_, ?_, ?_, ?_, ?_, ?_, ?_, ?_, ?_, ?_, ?_, ?_, ?_, ?_, ?_, ?_, ?_, ?_, ?_, ?_, ?_, ?_, ?_, ?_, ?_, ?_, ?_, ?_, ?_, ?_, ?_, ?_, ?_, ?_, ?_, ?_, ?_⟩ <;> rfl

/-! ### Each update's own field -/

@[simp] theorem tick_c (t : Nat) (s : State) : (tick t s).time.c = max s.time.c t := rfl
@[simp] theorem setRed_red (s : State) (r : Red) : (setRed s r).red = r := rfl
@[simp] theorem setHand_hand (s : State) (h : Handover) : (setHand s h).red.hand = h := rfl
@[simp] theorem setLane_lane (s : State) (l : LaneSt) : (setLane s l).lane = l := rfl
@[simp] theorem setLse_lse (s : State) (x : Lse) : (setLse s x).lse = x := rfl
@[simp] theorem setProg_prog (s : State) (p : Prog) : (setProg s p).prog = p := rfl
@[simp] theorem setFgr_fgr (s : State) (f : Feger) : (setFgr s f).fgr = f := rfl
@[simp] theorem setDbg_dbg (s : State) (d : Debug) : (setDbg s d).dbg = d := rfl
@[simp] theorem setSvc_svc (s : State) (v : Service) : (setSvc s v).svc = v := rfl
@[simp] theorem setUpd_upd (s : State) (u : Update) : (setUpd s u).upd = u := rfl
@[simp] theorem emit_out (m : OutMsg) (s : State) : (emit m s).out = m :: s.out := rfl
@[simp] theorem takeFree_freeCtr (s : State) : (takeFree s).freeCtr = s.freeCtr + 1 := rfl
@[simp] theorem answer_resp (r : State × Resp) : (answer r).resp = r.2 := rfl

@[simp] theorem PerCls.get_set {α : Type} (p : PerCls α) (k j : Cls) (x : α) :
    (p.set k x).get j = if k = j then x else p.get j := by cases k <;> cases j <;> rfl
@[simp] theorem PerMaster.get_set {α : Type} (p : PerMaster α) (m n : Master) (x : α) :
    (p.set m x).get n = if m = n then x else p.get n := by cases m <;> cases n <;> rfl

@[simp] theorem setCls_get (s : State) (k j : Cls) (x : ClassRun) :
    (setCls s k x).cls.get j = if k = j then x else s.cls.get j := PerCls.get_set ..
@[simp] theorem setTxn_get (s : State) (m n : Master) (x : Txn) :
    (setTxn s m x).txn.get n = if m = n then x else s.txn.get n := PerMaster.get_set ..

theorem setDo_get (s : State) (c d : Fin 32) (x : DoCh) : (setDo s c x).io.dout[d] = if c = d then x else s.io.dout[d] := by
  simp [setDo, Vector.getElem_set, Fin.ext_iff]
theorem setDi_get (s : State) (c d : Fin 32) (x : DiCh) : (setDi s c x).io.di[d] = if c = d then x else s.io.di[d] := by
  simp [setDi, Vector.getElem_set, Fin.ext_iff]
theorem setGrp_get (s : State) (g h : Fin 4) (x : DioGrp) : (setGrp s g x).io.grp[h] = if g = h then x else s.io.grp[h] := by
  simp [setGrp, Vector.getElem_set, Fin.ext_iff]
theorem setAo_get (s : State) (u v : Fin 8) (x : AoCh) : (setAo s u x).io.ao[v] = if u = v then x else s.io.ao[v] := by
  simp [setAo, Vector.getElem_set, Fin.ext_iff]
theorem setAi_get (s : State) (u v : Fin 8) (x : AiCh) : (setAi s u x).io.ai[v] = if u = v then x else s.io.ai[v] := by
  simp [setAi, Vector.getElem_set, Fin.ext_iff]
theorem setCan_get (s : State) (u v : Fin 16) (x : CanCh) : (setCan s u x).can[v] = if u = v then x else s.can[v] := by
  simp [setCan, Vector.getElem_set, Fin.ext_iff]
theorem setQ_get (s : State) (q r : Fin 128) (x : Queue) : (setQ s q x).que[r] = if q = r then x else s.que[r] := by
  simp [setQ, Vector.getElem_set, Fin.ext_iff]

/-! ### The register store -/

theorem getR_setR (s : State) (a b : Nat) (v : Word) : getR (setR s a v) b = if a = b then v else getR s b := by
  unfold getR setR
  simp only [SMap.get_put]
  split
  · next h => subst h; rw [BitVec.xor_assoc, BitVec.xor_self, BitVec.xor_zero]
  · rfl

@[simp] theorem getR_setR_self (s : State) (a : Nat) (v : Word) : getR (setR s a v) a = v := by rw [getR_setR, if_pos rfl]

theorem getR_setR_ne (s : State) {a b : Nat} (v : Word) (h : a ≠ b) : getR (setR s a v) b = getR s b := by
  rw [getR_setR, if_neg h]

/-- Two states with the same stored registers read the same. -/
theorem getR_congr {s t : State} (h : s.regs = t.regs) (a : Nat) : getR s a = getR t a := by unfold getR; rw [h]

/-- A field reads as it was written, cut to its width. -/
theorem Fld.get_put (f : Fld) (w : Word) (v : Nat) (h : f.lo + f.w ≤ 32) : f.get (f.put w v) = v % 2 ^ f.w := by
  refine Nat.eq_of_testBit_eq fun i => ?_
  simp only [Fld.get, Fld.put, Nat.testBit_mod_two_pow, BitVec.testBit_toNat, BitVec.getLsbD_ushiftRight, BitVec.getLsbD_or,
    BitVec.getLsbD_and, BitVec.getLsbD_not, BitVec.getLsbD_ofNat, Nat.testBit_shiftLeft, Nat.testBit_two_pow_sub_one]
  by_cases hi : i < f.w
  · have h1 : f.lo + i < 32 := by omega
    simp [hi, h1]
  · simp [hi]

/-- A field keeps its value where a field that does not overlap it is written. -/
theorem Fld.get_put_other (f g : Fld) (w : Word) (v : Nat) (h : f.lo + f.w ≤ g.lo ∨ g.lo + g.w ≤ f.lo) :
    g.get (f.put w v) = g.get w := by
  refine Nat.eq_of_testBit_eq fun i => ?_
  simp only [Fld.get, Fld.put, Nat.testBit_mod_two_pow, BitVec.testBit_toNat, BitVec.getLsbD_ushiftRight, BitVec.getLsbD_or,
    BitVec.getLsbD_and, BitVec.getLsbD_not, BitVec.getLsbD_ofNat, Nat.testBit_shiftLeft, Nat.testBit_two_pow_sub_one]
  by_cases hi : i < g.w
  · by_cases h32 : g.lo + i < 32
    · rcases h with h | h
      · have e1 : f.lo ≤ g.lo + i := by omega
        have e2 : ¬(g.lo + i - f.lo < f.w) := by omega
        simp [hi, e2, h32]
      · have e1 : ¬(f.lo ≤ g.lo + i) := by omega
        simp [hi, e1, h32]
    · simp [h32, BitVec.getLsbD_of_ge _ _ (Nat.not_lt.mp h32)]
  · simp [hi]

theorem getF_setF (s : State) (a : Nat) (f : Fld) (v : Nat) (h : f.lo + f.w ≤ 32) : getF (setF s a f v) a f = v % 2 ^ f.w := by
  rw [getF, setF, getR_setR_self, Fld.get_put _ _ _ h]

theorem getF_setF_other (s : State) (a : Nat) (f g : Fld) (v : Nat) (h : f.lo + f.w ≤ g.lo ∨ g.lo + g.w ≤ f.lo) :
    getF (setF s a f v) a g = getF s a g := by
  rw [getF, setF, getR_setR_self, Fld.get_put_other _ _ _ _ h]; rfl

theorem getR_setF_ne (s : State) {a b : Nat} (f : Fld) (v : Nat) (h : a ≠ b) : getR (setF s a f v) b = getR s b := getR_setR_ne s _ h

theorem getR_setB_ne (s : State) {a b : Nat} (f : Fld) (v : Bool) (h : a ≠ b) : getR (setB s a f v) b = getR s b := getR_setR_ne s _ h

theorem getF_setB_ne (s : State) {a b : Nat} (f g : Fld) (v : Bool) (h : a ≠ b) : getF (setB s a f v) b g = getF s b g := by
  rw [getF, getR_setB_ne s f v h]; rfl

theorem flag_setB (s : State) (a : Nat) (f : Fld) (b : Bool) (hw : f.w = 1) (h : f.lo + f.w ≤ 32) : flag (setB s a f b) a f = b := by
  unfold flag setB
  rw [getF_setF _ _ _ _ h, hw]
  cases b <;> rfl

theorem flag_setB_other (s : State) (a : Nat) (f g : Fld) (b : Bool) (h : f.lo + f.w ≤ g.lo ∨ g.lo + g.w ≤ f.lo) :
    flag (setB s a f b) a g = flag s a g := by
  unfold flag setB
  rw [getF_setF_other _ _ _ _ _ h]

theorem flag_setB_ne (s : State) {a b : Nat} (f g : Fld) (v : Bool) (h : a ≠ b) : flag (setB s a f v) b g = flag s b g := by
  unfold flag; rw [getF_setB_ne s f g v h]

end Sys2Proof.Machine
end

