-- ==== Sys2Proof/Laws/Settle.lean ====
section
/-!
SUPPORT. Laws of what holds after every command: which state it can change at all, and that a state with the invariant stays as it is.
-/
namespace Sys2Proof.Machine

/-! ### What each part leaves as it was -/

@[simp] theorem settleIo_keeps (s : State) :
    (settleIo s).pending = s.pending ∧ (settleIo s).held = s.held ∧ (settleIo s).regs = s.regs ∧ (settleIo s).mode = s.mode ∧
    (settleIo s).prev = s.prev ∧ (settleIo s).cause = s.cause ∧ (settleIo s).strap = s.strap ∧ (settleIo s).time = s.time ∧
    (settleIo s).cls = s.cls ∧ (settleIo s).lastOc = s.lastOc ∧ (settleIo s).clk = s.clk ∧ (settleIo s).pwr = s.pwr ∧
    (settleIo s).rtc = s.rtc ∧ (settleIo s).rcd = s.rcd ∧ (settleIo s).img = s.img ∧ (settleIo s).container = s.container ∧
    (settleIo s).owner = s.owner ∧ (settleIo s).isolated = s.isolated ∧ (settleIo s).store = s.store ∧ (settleIo s).ecc = s.ecc ∧
    (settleIo s).ddr = s.ddr ∧ (settleIo s).ddrEcc = s.ddrEcc ∧ (settleIo s).scrub = s.scrub ∧ (settleIo s).can = s.can ∧
    (settleIo s).canRx = s.canRx ∧ (settleIo s).out = s.out ∧ (settleIo s).que = s.que ∧ (settleIo s).prog = s.prog ∧
    (settleIo s).lse = s.lse ∧ (settleIo s).recRoots = s.recRoots ∧ (settleIo s).parHeld = s.parHeld ∧
    (settleIo s).untilOr = s.untilOr ∧ (settleIo s).lane = s.lane ∧ (settleIo s).sysPend = s.sysPend ∧ (settleIo s).red = s.red ∧
    (settleIo s).fgr = s.fgr ∧ (settleIo s).txn = s.txn ∧ (settleIo s).xch = s.xch ∧ (settleIo s).retain = s.retain ∧
    (settleIo s).cLse = s.cLse ∧ (settleIo s).ballast = s.ballast ∧ (settleIo s).bal = s.bal ∧ (settleIo s).hiCap = s.hiCap ∧
    (settleIo s).resp = s.resp ∧ (settleIo s).irqQueue = s.irqQueue ∧ (settleIo s).irqArt = s.irqArt ∧ (settleIo s).dbg = s.dbg ∧
    (settleIo s).art = s.art ∧ (settleIo s).svc = s.svc ∧ (settleIo s).upd = s.upd ∧ (settleIo s).bist = s.bist ∧
    (settleIo s).freeCtr = s.freeCtr := by
  refine ⟨?_, ?_, ?_, ?_, ?_, ?_, ?_, ?_, ?_, ?_, ?_, ?_, ?_, ?_, ?_, ?_, ?_, ?_, ?_, ?_, ?_, ?_, ?_, ?_, ?_, ?_, ?_, ?_, ?_, ?_, ?_, ?_, ?_, ?_, ?_, ?_, ?_, ?_, ?_, ?_, ?_, ?_, ?_, ?_, ?_, ?_, ?_, ?_, ?_, ?_, ?_, ?_⟩ <;> dsimp only [settleIo]

@[simp] theorem settleAos_keeps (s : State) :
    (settleAos s).pending = s.pending ∧ (settleAos s).held = s.held ∧ (settleAos s).regs = s.regs ∧ (settleAos s).mode = s.mode ∧
    (settleAos s).prev = s.prev ∧ (settleAos s).cause = s.cause ∧ (settleAos s).strap = s.strap ∧ (settleAos s).time = s.time ∧
    (settleAos s).cls = s.cls ∧ (settleAos s).lastOc = s.lastOc ∧ (settleAos s).clk = s.clk ∧ (settleAos s).pwr = s.pwr ∧
    (settleAos s).rtc = s.rtc ∧ (settleAos s).rcd = s.rcd ∧ (settleAos s).img = s.img ∧ (settleAos s).container = s.container ∧
    (settleAos s).owner = s.owner ∧ (settleAos s).isolated = s.isolated ∧ (settleAos s).store = s.store ∧ (settleAos s).ecc = s.ecc ∧
    (settleAos s).ddr = s.ddr ∧ (settleAos s).ddrEcc = s.ddrEcc ∧ (settleAos s).scrub = s.scrub ∧ (settleAos s).can = s.can ∧
    (settleAos s).canRx = s.canRx ∧ (settleAos s).out = s.out ∧ (settleAos s).que = s.que ∧ (settleAos s).prog = s.prog ∧
    (settleAos s).lse = s.lse ∧ (settleAos s).recRoots = s.recRoots ∧ (settleAos s).parHeld = s.parHeld ∧
    (settleAos s).untilOr = s.untilOr ∧ (settleAos s).lane = s.lane ∧ (settleAos s).sysPend = s.sysPend ∧ (settleAos s).red = s.red ∧
    (settleAos s).fgr = s.fgr ∧ (settleAos s).txn = s.txn ∧ (settleAos s).xch = s.xch ∧ (settleAos s).retain = s.retain ∧
    (settleAos s).cLse = s.cLse ∧ (settleAos s).ballast = s.ballast ∧ (settleAos s).bal = s.bal ∧ (settleAos s).hiCap = s.hiCap ∧
    (settleAos s).resp = s.resp ∧ (settleAos s).irqQueue = s.irqQueue ∧ (settleAos s).irqArt = s.irqArt ∧ (settleAos s).dbg = s.dbg ∧
    (settleAos s).art = s.art ∧ (settleAos s).svc = s.svc ∧ (settleAos s).upd = s.upd ∧ (settleAos s).bist = s.bist ∧
    (settleAos s).freeCtr = s.freeCtr := by
  refine ⟨?_, ?_, ?_, ?_, ?_, ?_, ?_, ?_, ?_, ?_, ?_, ?_, ?_, ?_, ?_, ?_, ?_, ?_, ?_, ?_, ?_, ?_, ?_, ?_, ?_, ?_, ?_, ?_, ?_, ?_, ?_, ?_, ?_, ?_, ?_, ?_, ?_, ?_, ?_, ?_, ?_, ?_, ?_, ?_, ?_, ?_, ?_, ?_, ?_, ?_, ?_, ?_⟩ <;> dsimp only [settleAos]

@[simp] theorem settleScan_keeps (s : State) :
    (settleScan s).pending = s.pending ∧ (settleScan s).held = s.held ∧ (settleScan s).regs = s.regs ∧ (settleScan s).mode = s.mode ∧
    (settleScan s).prev = s.prev ∧ (settleScan s).cause = s.cause ∧ (settleScan s).strap = s.strap ∧ (settleScan s).time = s.time ∧
    (settleScan s).io = s.io ∧ (settleScan s).cls = s.cls ∧ (settleScan s).lastOc = s.lastOc ∧ (settleScan s).clk = s.clk ∧
    (settleScan s).pwr = s.pwr ∧ (settleScan s).rtc = s.rtc ∧ (settleScan s).rcd = s.rcd ∧ (settleScan s).img = s.img ∧
    (settleScan s).container = s.container ∧ (settleScan s).owner = s.owner ∧ (settleScan s).isolated = s.isolated ∧
    (settleScan s).store = s.store ∧ (settleScan s).ecc = s.ecc ∧ (settleScan s).ddr = s.ddr ∧ (settleScan s).ddrEcc = s.ddrEcc ∧
    (settleScan s).scrub = s.scrub ∧ (settleScan s).can = s.can ∧ (settleScan s).canRx = s.canRx ∧ (settleScan s).out = s.out ∧
    (settleScan s).que = s.que ∧ (settleScan s).prog = s.prog ∧ (settleScan s).lse = s.lse ∧ (settleScan s).recRoots = s.recRoots ∧
    (settleScan s).parHeld = s.parHeld ∧ (settleScan s).untilOr = s.untilOr ∧ (settleScan s).lane = s.lane ∧
    (settleScan s).sysPend = s.sysPend ∧ (settleScan s).red = s.red ∧ (settleScan s).fgr = s.fgr ∧ (settleScan s).txn = s.txn ∧
    (settleScan s).xch = s.xch ∧ (settleScan s).retain = s.retain ∧ (settleScan s).cLse = s.cLse ∧ (settleScan s).ballast = s.ballast ∧
    (settleScan s).bal = s.bal ∧ (settleScan s).hiCap = s.hiCap ∧ (settleScan s).resp = s.resp ∧ (settleScan s).irqQueue = s.irqQueue ∧
    (settleScan s).irqArt = s.irqArt ∧ (settleScan s).art = s.art ∧ (settleScan s).svc = s.svc ∧ (settleScan s).upd = s.upd ∧
    (settleScan s).bist = s.bist ∧ (settleScan s).freeCtr = s.freeCtr := by
  unfold settleScan scanIdle setDbg
  split <;>
  refine ⟨?_, ?_, ?_, ?_, ?_, ?_, ?_, ?_, ?_, ?_, ?_, ?_, ?_, ?_, ?_, ?_, ?_, ?_, ?_, ?_, ?_, ?_, ?_, ?_, ?_, ?_, ?_, ?_, ?_, ?_, ?_, ?_, ?_, ?_, ?_, ?_, ?_, ?_, ?_, ?_, ?_, ?_, ?_, ?_, ?_, ?_, ?_, ?_, ?_, ?_, ?_, ?_⟩ <;> dsimp only

@[simp] theorem settleXch_keeps (s : State) :
    (settleXch s).pending = s.pending ∧ (settleXch s).held = s.held ∧ (settleXch s).regs = s.regs ∧ (settleXch s).mode = s.mode ∧
    (settleXch s).prev = s.prev ∧ (settleXch s).cause = s.cause ∧ (settleXch s).strap = s.strap ∧ (settleXch s).time = s.time ∧
    (settleXch s).io = s.io ∧ (settleXch s).cls = s.cls ∧ (settleXch s).lastOc = s.lastOc ∧ (settleXch s).clk = s.clk ∧
    (settleXch s).pwr = s.pwr ∧ (settleXch s).rtc = s.rtc ∧ (settleXch s).rcd = s.rcd ∧ (settleXch s).img = s.img ∧
    (settleXch s).container = s.container ∧ (settleXch s).owner = s.owner ∧ (settleXch s).isolated = s.isolated ∧
    (settleXch s).store = s.store ∧ (settleXch s).ecc = s.ecc ∧ (settleXch s).ddr = s.ddr ∧ (settleXch s).ddrEcc = s.ddrEcc ∧
    (settleXch s).scrub = s.scrub ∧ (settleXch s).can = s.can ∧ (settleXch s).canRx = s.canRx ∧ (settleXch s).out = s.out ∧
    (settleXch s).que = s.que ∧ (settleXch s).prog = s.prog ∧ (settleXch s).lse = s.lse ∧ (settleXch s).recRoots = s.recRoots ∧
    (settleXch s).parHeld = s.parHeld ∧ (settleXch s).untilOr = s.untilOr ∧ (settleXch s).lane = s.lane ∧
    (settleXch s).sysPend = s.sysPend ∧ (settleXch s).red = s.red ∧ (settleXch s).fgr = s.fgr ∧ (settleXch s).txn = s.txn ∧
    (settleXch s).retain = s.retain ∧ (settleXch s).cLse = s.cLse ∧ (settleXch s).ballast = s.ballast ∧ (settleXch s).bal = s.bal ∧
    (settleXch s).hiCap = s.hiCap ∧ (settleXch s).resp = s.resp ∧ (settleXch s).irqQueue = s.irqQueue ∧
    (settleXch s).irqArt = s.irqArt ∧ (settleXch s).dbg = s.dbg ∧ (settleXch s).art = s.art ∧ (settleXch s).svc = s.svc ∧
    (settleXch s).upd = s.upd ∧ (settleXch s).bist = s.bist ∧ (settleXch s).freeCtr = s.freeCtr := by
  unfold settleXch
  dsimp only
  split <;>
  refine ⟨?_, ?_, ?_, ?_, ?_, ?_, ?_, ?_, ?_, ?_, ?_, ?_, ?_, ?_, ?_, ?_, ?_, ?_, ?_, ?_, ?_, ?_, ?_, ?_, ?_, ?_, ?_, ?_, ?_, ?_, ?_, ?_, ?_, ?_, ?_, ?_, ?_, ?_, ?_, ?_, ?_, ?_, ?_, ?_, ?_, ?_, ?_, ?_, ?_, ?_, ?_, ?_⟩ <;> dsimp only

theorem storeWrite_eq (a : Nat) (l : List Byte) (s : State) :
    ∃ n m, storeWrite a l s = { s with store := n, ecc := m } := by
  unfold storeWrite eccClean
  split
  · exact ⟨_, _, rfl⟩
  · exact ⟨_, _, rfl⟩

@[simp] theorem storeWrite_keeps (a : Nat) (l : List Byte) (s : State) :
    (storeWrite a l s).pending = s.pending ∧ (storeWrite a l s).held = s.held ∧ (storeWrite a l s).regs = s.regs ∧
    (storeWrite a l s).mode = s.mode ∧ (storeWrite a l s).prev = s.prev ∧ (storeWrite a l s).cause = s.cause ∧
    (storeWrite a l s).strap = s.strap ∧ (storeWrite a l s).time = s.time ∧ (storeWrite a l s).io = s.io ∧
    (storeWrite a l s).cls = s.cls ∧ (storeWrite a l s).lastOc = s.lastOc ∧ (storeWrite a l s).clk = s.clk ∧
    (storeWrite a l s).pwr = s.pwr ∧ (storeWrite a l s).rtc = s.rtc ∧ (storeWrite a l s).rcd = s.rcd ∧ (storeWrite a l s).img = s.img ∧
    (storeWrite a l s).container = s.container ∧ (storeWrite a l s).owner = s.owner ∧ (storeWrite a l s).isolated = s.isolated ∧
    (storeWrite a l s).ddr = s.ddr ∧ (storeWrite a l s).ddrEcc = s.ddrEcc ∧ (storeWrite a l s).scrub = s.scrub ∧
    (storeWrite a l s).can = s.can ∧ (storeWrite a l s).canRx = s.canRx ∧ (storeWrite a l s).out = s.out ∧
    (storeWrite a l s).que = s.que ∧ (storeWrite a l s).prog = s.prog ∧ (storeWrite a l s).lse = s.lse ∧
    (storeWrite a l s).recRoots = s.recRoots ∧ (storeWrite a l s).parHeld = s.parHeld ∧ (storeWrite a l s).untilOr = s.untilOr ∧
    (storeWrite a l s).lane = s.lane ∧ (storeWrite a l s).sysPend = s.sysPend ∧ (storeWrite a l s).red = s.red ∧
    (storeWrite a l s).fgr = s.fgr ∧ (storeWrite a l s).txn = s.txn ∧ (storeWrite a l s).xch = s.xch ∧
    (storeWrite a l s).retain = s.retain ∧ (storeWrite a l s).cLse = s.cLse ∧ (storeWrite a l s).ballast = s.ballast ∧
    (storeWrite a l s).bal = s.bal ∧ (storeWrite a l s).hiCap = s.hiCap ∧ (storeWrite a l s).resp = s.resp ∧
    (storeWrite a l s).irqQueue = s.irqQueue ∧ (storeWrite a l s).irqArt = s.irqArt ∧ (storeWrite a l s).dbg = s.dbg ∧
    (storeWrite a l s).art = s.art ∧ (storeWrite a l s).svc = s.svc ∧ (storeWrite a l s).upd = s.upd ∧
    (storeWrite a l s).bist = s.bist ∧ (storeWrite a l s).freeCtr = s.freeCtr := by
  obtain ⟨n, m, h⟩ := storeWrite_eq a l s
  rw [h]
  refine ⟨?_, ?_, ?_, ?_, ?_, ?_, ?_, ?_, ?_, ?_, ?_, ?_, ?_, ?_, ?_, ?_, ?_, ?_, ?_, ?_, ?_, ?_, ?_, ?_, ?_, ?_, ?_, ?_, ?_, ?_, ?_, ?_, ?_, ?_, ?_, ?_, ?_, ?_, ?_, ?_, ?_, ?_, ?_, ?_, ?_, ?_, ?_, ?_, ?_, ?_, ?_⟩ <;> rfl


/-! ### What the end of CAN queue frames can change -/

/-- The registers that record a refused access (R408, R410). -/
def artLog : List Nat := [Reg.SYS_HW_FAULT, Reg.ART_REFUSED, Reg.ART_FAULT_INFO, Reg.ART_FAULT_ADDR]

/-- A register that the end of a queue frame can write: the queue's head, status and counts, a CAN channel's buffer status and error counters, and
the record of a refused access. -/
def QueReg (a : Nat) : Prop :=
  a ∈ artLog ∨ (∃ q : Fin 128, a = Reg.QUE_HEAD q ∨ a = Reg.QUE_STATUS q ∨ a = Reg.QUE_COUNT q) ∨
    ∃ u : Fin 16, a = Reg.CAN_ERRCNT u ∨ ∃ b : Fin 32, a = Reg.CAN_TXB_STAT u b

/-- `t` differs from `s` at most in registers of the CAN and QUE blocks and the record of refused accesses, the Central Store, the queues, the
CAN channels and the queue interrupt. -/
structure QueOnly (s t : State) : Prop where
  rest : t = { s with regs := t.regs, store := t.store, ecc := t.ecc, que := t.que, can := t.can, irqQueue := t.irqQueue }
  regs : ∀ a, ¬ QueReg a → getR t a = getR s a

theorem QueOnly.refl (s : State) : QueOnly s s := ⟨rfl, fun _ _ => rfl⟩

theorem QueOnly.trans {s t u : State} (h : QueOnly s t) (k : QueOnly t u) : QueOnly s u :=
  ⟨by rw [k.rest, h.rest], fun a h1 => (k.regs a h1).trans (h.regs a h1)⟩

theorem QueOnly.ite {s t u : State} {c : Prop} [Decidable c] (h : QueOnly s t) (k : QueOnly s u) : QueOnly s (if c then t else u) := by
  split <;> assumption

theorem QueOnly.setR (s : State) (a : Nat) (v : Word) (h : QueReg a) : QueOnly s (setR s a v) :=
  ⟨rfl, fun b h1 => getR_setR_ne s v (by rintro rfl; exact h1 h)⟩
theorem QueOnly.setQ (s : State) (q : Fin 128) (x : Queue) : QueOnly s (setQ s q x) := ⟨rfl, fun _ _ => rfl⟩

theorem QueOnly.setCans (s : State) (x : Vector CanCh 16) : QueOnly s { s with can := x } := ⟨rfl, fun _ _ => rfl⟩

theorem QueOnly.irq (s : State) (b : Bool) : QueOnly s { s with irqQueue := b } := ⟨rfl, fun _ _ => rfl⟩

theorem QueOnly.storeWrite (a : Nat) (l : List Byte) (s : State) : QueOnly s (storeWrite a l s) := by
  obtain ⟨n, m, h⟩ := storeWrite_eq a l s
  rw [h]; exact ⟨rfl, fun _ _ => rfl⟩

theorem QueOnly.foldl {α : Type} (f : State → α → State) (h : ∀ s x, QueOnly s (f s x)) (l : List α) (s : State) :
    QueOnly s (l.foldl f s) := by
  induction l generalizing s with
  | nil => exact .refl s
  | cons x l ih => exact (h s x).trans (ih _)

theorem QueOnly.log (s : State) (a : Nat) (v : Word) (h : a ∈ artLog) : QueOnly s (Machine.setR s a v) := .setR _ _ _ (.inl h)

theorem QueOnly.recordRefusal (c p : Nat) (k : AccKind) (r q : Option Nat) (a : Nat) (s : State) :
    QueOnly s (recordRefusal c p k r q a s) := by
  unfold Machine.recordRefusal
  extract_lets s1 s2 s3
  have h1 : QueOnly s s1 := .log _ _ _ (by decide)
  have h3 : QueOnly s s3 := by
    refine .ite (h1.trans (.log _ _ _ (by decide))) ?_
    exact (h1.trans (.log _ _ _ (by decide))).trans (.log _ _ _ (by decide))
  refine h3.trans ?_
  unfold recordSecond
  split
  · unfold recordHw
    exact .ite (.log _ _ _ (by decide)) (.log _ _ _ (by decide))
  · exact .refl _

theorem QueOnly.engineWrite (q a : Nat) (l : List Byte) (s : State) : QueOnly s (engineWrite q a l s) := by
  unfold Machine.engineWrite
  refine .ite (.refl s) ?_
  unfold unitAccess
  split
  · next h => split at h <;> cases h; exact .recordRefusal ..
  · next h => split at h <;> cases h; exact .storeWrite ..

theorem QueOnly.writeCompletion (q : Fin 128) (a : Nat) (e : Fly) (s : State) : QueOnly s (writeCompletion q a e s) := by
  have hH : QueReg (Reg.QUE_HEAD q) := .inr (.inl ⟨q, .inl rfl⟩)
  have hS : QueReg (Reg.QUE_STATUS q) := .inr (.inl ⟨q, .inr (.inl rfl)⟩)
  have hC : QueReg (Reg.QUE_COUNT q) := .inr (.inl ⟨q, .inr (.inr rfl)⟩)
  unfold Machine.writeCompletion
  extract_lets o d w s1 s2 s3 s4 s5 s6
  have h1 : QueOnly s s1 := .engineWrite ..
  have h2 : QueOnly s s2 := h1.trans (.engineWrite ..)
  have h3 : QueOnly s s3 := h2.trans (.setR _ _ _ hH)
  have h4 : QueOnly s s4 := .ite (h3.trans ((QueOnly.setR _ _ _ hS).trans (.setR _ _ _ hC))) h3
  have h5 : QueOnly s s5 := .ite (h4.trans ((QueOnly.setR _ _ _ hS).trans (.setR _ _ _ hC))) h4
  have h6 : QueOnly s s6 := .ite (h5.trans (.setR _ _ _ hS)) h5
  exact .ite (h6.trans (.irq ..)) h6

theorem QueOnly.flushList (q : Fin 128) (l : List Fly) (s : State) : QueOnly s (flushList q l s).1 := by
  induction l generalizing s with
  | nil => exact .refl s
  | cons e l ih =>
    unfold Machine.flushList
    split
    · exact .refl s
    · split
      · exact (QueOnly.writeCompletion ..).trans (ih _)
      · exact ((QueOnly.writeCompletion ..).trans (.setR _ _ _ (.inr (.inl ⟨q, .inl rfl⟩)))).trans (ih _)

theorem QueOnly.qFlush (q : Fin 128) (s : State) : QueOnly s (qFlush q s) := (QueOnly.flushList ..).trans (.setQ ..)

theorem QueOnly.qComplete (q : Fin 128) (a o n : Nat) (p : Bool) (s : State) : QueOnly s (qComplete q a o n p s) :=
  (QueOnly.setQ ..).trans (.qFlush ..)

theorem QueOnly.queueDone (u : Fin 16) (b : Fin 32) (ok : Bool) (s : State) : QueOnly s (queueDone u b ok s) := by
  unfold Machine.queueDone
  split
  · exact .refl s
  · extract_lets q d s1 o
    have h1 : QueOnly s s1 := .ite (.engineWrite ..) (.refl s)
    exact h1.trans (.qComplete ..)

theorem QueOnly.canRefuse (s : State) (u : Fin 16) : QueOnly s (canRefuse s u) := by
  unfold Machine.canRefuse
  refine .ite (.refl s) (QueOnly.foldl _ (fun s b => ?_) _ _)
  exact .ite ((QueOnly.setR _ _ _ (.inr (.inr ⟨u, .inr ⟨b, rfl⟩⟩))).trans (.queueDone ..)) (.refl s)

theorem errReg (u : Fin 16) : QueReg (Reg.CAN_ERRCNT u) := .inr (.inr ⟨u, .inl rfl⟩)

theorem QueOnly.canQuiet (s : State) (u : Fin 16) : QueOnly s (canQuiet s u) := by
  unfold Machine.canQuiet
  refine .ite (.refl s) ?_
  extract_lets s1
  have h1 : QueOnly s s1 := .ite (.refl s) (.setR _ _ _ (errReg u))
  split
  · exact h1.trans (.setCans ..)
  · exact h1.trans (.setCans ..)
  · exact h1.trans (.setCans ..)
  · exact h1

theorem QueOnly.settleCan (s : State) : QueOnly s (settleCan s) := by
  have h1 : QueOnly s ((List.finRange 16).foldl Machine.canQuiet ((List.finRange 16).foldl Machine.canRefuse s)) :=
    (QueOnly.foldl _ QueOnly.canRefuse _ _).trans (QueOnly.foldl _ QueOnly.canQuiet _ _)
  obtain ⟨x, hx⟩ : ∃ x, Machine.settleCan s =
    { (List.finRange 16).foldl Machine.canQuiet ((List.finRange 16).foldl Machine.canRefuse s) with can := x } := ⟨_, rfl⟩
  rw [hx]
  exact h1.trans (.setCans ..)


/-! ### What follows every command -/

theorem settleXch_eq (s : State) : ∃ x, settleXch s = { s with xch := x } := by
  unfold settleXch; dsimp only; split <;> exact ⟨_, rfl⟩
theorem settleScan_eq (s : State) : ∃ d, settleScan s = { s with dbg := d } := by
  unfold settleScan scanIdle setDbg; split <;> exact ⟨_, rfl⟩
theorem settleAos_eq (s : State) : ∃ x, settleAos s = { s with io := x } := ⟨_, rfl⟩
theorem settleIo_eq (s : State) : ∃ x, settleIo s = { s with io := x } := ⟨_, rfl⟩

/-- What follows every command changes nothing but outputs, CAN channels with their queues, the exchange and boundary scan. -/
theorem settle_outside (s : State) :
    settle s = { s with regs := (settle s).regs, store := (settle s).store, ecc := (settle s).ecc, que := (settle s).que,
                        can := (settle s).can, irqQueue := (settle s).irqQueue, io := (settle s).io, dbg := (settle s).dbg,
                        xch := (settle s).xch } := by
  have hc := (QueOnly.settleCan s).rest
  obtain ⟨x, hx⟩ := settleXch_eq (settleCan s)
  obtain ⟨d, hd⟩ := settleScan_eq (settleXch (settleCan s))
  obtain ⟨a, ha⟩ := settleAos_eq (settleScan (settleXch (settleCan s)))
  obtain ⟨o, ho⟩ := settleIo_eq (settleAos (settleScan (settleXch (settleCan s))))
  have h : settle s = { settleCan s with xch := x, dbg := d, io := o } := by
    unfold settle
    rw [ho, ha, hd, hx]
  rw [h, hc]

/-- The registers, the Store and the queues after a command are as `settleCan` leaves them. -/
theorem settle_regs (s : State) : (settle s).regs = (settleCan s).regs := by simp [settle]

theorem settleIo_dout (s : State) (c : Fin 32) : (settleIo s).io.dout[c] = settleDo s c := by simp [settleIo]
@[simp] theorem settleIo_grp (s : State) : (settleIo s).io.grp = s.io.grp := by dsimp only [settleIo]
@[simp] theorem settleIo_ao (s : State) : (settleIo s).io.ao = s.io.ao := by dsimp only [settleIo]
@[simp] theorem settleIo_di (s : State) : (settleIo s).io.di = s.io.di := by dsimp only [settleIo]
@[simp] theorem settleIo_ai (s : State) : (settleIo s).io.ai = s.io.ai := by dsimp only [settleIo]
@[simp] theorem settleAos_dout (s : State) : (settleAos s).io.dout = s.io.dout := by dsimp only [settleAos]
@[simp] theorem settleAos_grp (s : State) : (settleAos s).io.grp = s.io.grp := by dsimp only [settleAos]
@[simp] theorem settleAos_di (s : State) : (settleAos s).io.di = s.io.di := by dsimp only [settleAos]
@[simp] theorem settleAos_ai (s : State) : (settleAos s).io.ai = s.io.ai := by dsimp only [settleAos]
theorem settleAos_ao (s : State) (u : Fin 8) : (settleAos s).io.ao[u] = settleAo s u := by simp [settleAos]

/-- What follows a command writes no register but the status of queues, CAN buffers and error counters and the record of a refused access. -/
theorem settle_getR (s : State) (a : Nat) (h : ¬ QueReg a) : getR (settle s) a = getR s a := by
  rw [getR_congr (settle_regs s), (QueOnly.settleCan s).regs a h]

/-! ### Output stages -/

theorem flag_congr {s t : State} (h : s.regs = t.regs) (a : Nat) (f : Fld) : flag s a f = flag t a f := by
  unfold flag getF; rw [getR_congr h]

theorem settleDo_keeps (s : State) (c : Fin 32) :
    (settleDo s c).cmd = s.io.dout[c].cmd ∧ (settleDo s c).ovlUntil = s.io.dout[c].ovlUntil ∧ (settleDo s c).otUntil = s.io.dout[c].otUntil ∧
    (settleDo s c).isoLost = s.io.dout[c].isoLost ∧ (settleDo s c).stage = doDrive s c ∧
    (settleDo s c).pulseEnd = if doHeldOff s c then none else s.io.dout[c].pulseEnd := by
  unfold settleDo
  cases doDrive s c <;> simp

/-- Two states hold a channel off alike where what R349 names is alike. -/
theorem doHeldOff_congr {s t : State} {c : Fin 32} (hr : s.regs = t.regs) (hm : s.mode = t.mode) (hu : s.untilOr = t.untilOr)
    (hp : s.parHeld = t.parHeld) (hg : s.io.grp = t.io.grp) (h1 : s.io.dout[c].ovlUntil = t.io.dout[c].ovlUntil)
    (h2 : s.io.dout[c].otUntil = t.io.dout[c].otUntil) (h3 : s.io.dout[c].isoLost = t.io.dout[c].isoLost) :
    doHeldOff s c = doHeldOff t c := by
  simp only [doHeldOff, outOff, doParalleled, parOff, flag_congr hr, hm, hu, hp, hg, h1, h2, h3]

@[simp] theorem doHeldOff_settleIo (s : State) (c : Fin 32) : doHeldOff (settleIo s) c = doHeldOff s c := by
  have h := settleDo_keeps s c
  rw [← settleIo_dout] at h
  exact doHeldOff_congr (by simp) (by simp) (by simp) (by simp) (by simp) h.2.1 h.2.2.1 h.2.2.2.1

@[simp] theorem doDrive_settleIo (s : State) (c : Fin 32) : doDrive (settleIo s) c = doDrive s c := by
  have h := settleDo_keeps s c
  simp only [doDrive, doHeldOff_settleIo, settleIo_dout, h]
  cases doHeldOff s c <;> simp

@[simp] theorem lowSide_settleIo (s : State) (c : Fin 32) : lowSide (settleIo s) c = lowSide s c := by
  simp only [lowSide, doHeldOff_settleIo, doDrive_settleIo, doPp, flag_congr (settleIo_keeps s).2.2.1]

@[simp] theorem extJudged_settleIo (s : State) (c : Fin 32) : extJudged (settleIo s) c = extJudged s c := by
  simp only [extJudged, doParalleled, settleIo_grp, flag_congr (settleIo_keeps s).2.2.1]

/-- An output stage that follows its drive, with its counts and live flags, stays as it is. -/
theorem settleDo_of_inv {s : State} (h : Inv s) (c : Fin 32) : settleDo s c = s.io.dout[c] := by
  have h1 := h.stages c
  have h2 := h.pulses c
  have h3 := h.counts c
  have h4 := h.live c
  unfold settleDo
  rw [← h1]
  rcases hx : s.io.dout[c] with ⟨cmd, stage, pe, sh, rb, mA, ls, lo, hi, ron, roff, ok, cool, ou, tu, ovl, ot, ow, ext, iso⟩
  simp only [hx] at h2 h3 h4 ⊢
  cases stage <;> cases hl : lowSide s c <;> cases hh : doHeldOff s c <;> cases ow <;> cases ext <;> simp_all

theorem settleAo_of_inv {s : State} (h : Inv s) (u : Fin 8) : settleAo s u = s.io.ao[u] := by
  have h1 := h.parOff u
  unfold settleAo
  dsimp only
  rw [← h1]
  simp

theorem Vector.ofFn_get {α : Type} {n : Nat} (v : Vector α n) (f : Fin n → α) (h : ∀ i : Fin n, f i = v[i]) : Vector.ofFn f = v := by
  ext i hi
  simpa using h ⟨i, hi⟩

theorem settleIo_of_inv {s : State} (h : Inv s) : settleIo s = s := by
  unfold settleIo
  rw [Vector.ofFn_get s.io.dout _ (settleDo_of_inv h)]

theorem settleAos_of_inv {s : State} (h : Inv s) : settleAos s = s := by
  unfold settleAos
  rw [Vector.ofFn_get s.io.ao _ (settleAo_of_inv h)]

theorem settleScan_of_inv {s : State} (h : Inv s) : settleScan s = s := by
  unfold settleScan
  cases hd : s.dbg.driven.isSome
  · simp
  · simp [h.scan hd]

theorem settleXch_of_inv {s : State} (h : Inv s) : settleXch s = s := by
  unfold settleXch
  dsimp only
  split
  · next hc =>
    simp only [Bool.and_eq_true, Bool.not_eq_true', beq_iff_eq] at hc
    obtain ⟨m, hm, h1, h2, h3⟩ := h.xch hc.1
    have := List.any_eq_false.mp hc.2 m hm
    simp [h1, h2, h3] at this
  · rfl

theorem canRefuse_of_waits {s : State} {u : Fin 16} (h : ∀ b : Fin 32, (s.can[u].txb[b]).waits = true → canQueueOk s u = true) :
    canRefuse s u = s := by
  unfold canRefuse
  split
  · rfl
  · next hc =>
    have hq : canQueueOk s u = false := by
      cases hb : canQueueOk s u
      · rfl
      · simp [hb] at hc
    have hw : ∀ b : Fin 32, (s.can[u].txb[b]).waits = false := fun b => by
      cases hb : (s.can[u].txb[b]).waits
      · rfl
      · rw [h b hb] at hq; cases hq
    generalize List.finRange 32 = l
    induction l with
    | nil => rfl
    | cons b l ih => rw [List.foldl_cons, if_neg (by rw [hw b]; simp)]; exact ih

theorem canQuiet_of_quiet {s : State} {u : Fin 16} (h : canMonitor s u = true → getR s (Reg.CAN_ERRCNT u) = 0 ∧ s.can[u].st ≠ .errorPassive ∧
    s.can[u].st ≠ .busOff ∧ s.can[u].st ≠ .recovering) : canQuiet s u = s := by
  unfold canQuiet
  cases hm : canMonitor s u
  · rfl
  · obtain ⟨h1, h2, h3, h4⟩ := h hm
    simp only [h1]
    split <;> simp_all

theorem settleCan_of_inv {s : State} (h : Inv s) : settleCan s = s := by
  have hf : (List.finRange 16).foldl canRefuse s = s := by
    generalize List.finRange 16 = l
    induction l with
    | nil => rfl
    | cons u l ih => rw [List.foldl_cons, canRefuse_of_waits (h.can u)]; exact ih
  have hq : (List.finRange 16).foldl canQuiet s = s := by
    generalize List.finRange 16 = l
    induction l with
    | nil => rfl
    | cons u l ih => rw [List.foldl_cons, canQuiet_of_quiet (h.quiet u)]; exact ih
  unfold settleCan
  simp only [hf, hq]
  rw [Vector.ofFn_get s.can]
  intro u
  split
  · rfl
  · next hq =>
    have : (s.can[u].txb.map fun x => if x.waits = true then {} else x) = s.can[u].txb := by
      ext b hb
      rw [Vector.getElem_map, if_neg]
      intro hw
      exact hq (h.can u ⟨b, hb⟩ hw)
    rw [this]

/-- In a state with the invariant nothing remains to be done after a command. -/
theorem settle_of_inv {s : State} (h : Inv s) : settle s = s := by
  unfold settle
  rw [settleCan_of_inv h, settleXch_of_inv h, settleScan_of_inv h, settleAos_of_inv h, settleIo_of_inv h]

/-! ### The invariant holds after every command -/

theorem canHold_settleCan (s : State) : canHold (settleCan s) := by
  intro u b
  unfold settleCan
  generalize (List.finRange 16).foldl canQuiet ((List.finRange 16).foldl canRefuse s) = t
  dsimp only
  have hq : ∀ x, canQueueOk { t with can := x } u = canQueueOk t u := fun _ => rfl
  rw [hq]
  simp only [Fin.getElem_fin, Vector.getElem_ofFn]
  split
  · next h => intro _; exact h
  · simp only [Vector.getElem_map]
    split
    · intro h; cases h
    · intro h; contradiction

/-- A channel in monitoring mode has counted no error. -/
def quietAt (s : State) (u : Fin 16) : Prop := canMonitor s u = true →
  getR s (Reg.CAN_ERRCNT u) = 0 ∧ s.can[u].st ≠ .errorPassive ∧ s.can[u].st ≠ .busOff ∧ s.can[u].st ≠ .recovering

/-- What decides whether a channel is in monitoring mode is as it was. -/
theorem canMonitor_congr {s t : State} {u : Fin 16} (hm : t.mode = s.mode) (ho : t.owner = s.owner)
    (hc : getR t (Reg.CAN_CFG u) = getR s (Reg.CAN_CFG u)) (hl : getR t (Reg.CAN_CTRL u) = getR s (Reg.CAN_CTRL u)) :
    canMonitor t u = canMonitor s u := by
  unfold canMonitor canMode canQueueOk canOwner flag getF
  rw [hm, ho, hc, hl]

/-- A monitoring channel is quieted: its counters, and a state of its own. -/
theorem canQuiet_cases (s : State) (u : Fin 16) : (canMonitor s u = false ∧ canQuiet s u = s) ∨
    ∃ x : CanCh, x.st ≠ .errorPassive ∧ x.st ≠ .busOff ∧ x.st ≠ .recovering ∧
      ∃ t, canQuiet s u = { t with can := s.can.set u x } ∧ getR t (Reg.CAN_ERRCNT u) = 0 ∧
        (t = s ∨ t = setR s (Reg.CAN_ERRCNT u) 0) := by
  unfold canQuiet
  cases hm : canMonitor s u
  · exact .inl ⟨rfl, rfl⟩
  · refine .inr ?_
    have hs : ∀ v : Vector CanCh 16, v.set u v[u] = v := fun v => by ext i hi; simp
    by_cases h0 : getR s (Reg.CAN_ERRCNT u) = 0
    · simp only [if_pos h0]
      cases hst : s.can[u].st <;> simp only [Bool.not_true, Bool.false_eq_true, if_false]
      all_goals first
        | exact ⟨{ s.can[u] with st := .errorActive }, by simp, by simp, by simp, s, rfl, h0, .inl rfl⟩
        | exact ⟨{ s.can[u] with st := .integrating }, by simp, by simp, by simp, s, rfl, h0, .inl rfl⟩
        | exact ⟨s.can[u], by rw [hst]; decide, by rw [hst]; decide, by rw [hst]; decide, s, by rw [hs], h0, .inl rfl⟩
    · simp only [if_neg h0]
      have hk : (setR s (Reg.CAN_ERRCNT u) 0).can = s.can := rfl
      cases hst : s.can[u].st <;> simp only [Bool.not_true, Bool.false_eq_true, if_false, hk, hst]
      all_goals first
        | exact ⟨{ s.can[u] with st := .errorActive }, by simp, by simp, by simp, _, rfl, getR_setR_self .., .inr rfl⟩
        | exact ⟨{ s.can[u] with st := .integrating }, by simp, by simp, by simp, _, rfl, getR_setR_self .., .inr rfl⟩
        | exact ⟨s.can[u], by rw [hst]; decide, by rw [hst]; decide, by rw [hst]; decide, _, by rw [hs]; rfl, getR_setR_self .., .inr rfl⟩

theorem quietAt_canQuiet (s : State) (u v : Fin 16) (h : v = u ∨ quietAt s v) : quietAt (canQuiet s u) v := by
  rcases canQuiet_cases s u with ⟨hm, he⟩ | ⟨x, h1, h2, h3, t, he, h0, ht⟩
  · rw [he]
    rcases h with rfl | h
    · intro hc; rw [hm] at hc; cases hc
    · exact h
  · rw [he]
    by_cases hv : v = u
    · subst hv
      exact fun _ => ⟨h0, by simpa using h1, by simpa using h2, by simpa using h3⟩
    · have hq := h.resolve_left hv
      have hne : v.val ≠ u.val := fun e => hv (Fin.ext e)
      have hr : ∀ a, a ≠ Reg.CAN_ERRCNT u → getR t a = getR s a := by
        intro a ha
        rcases ht with rfl | rfl
        · rfl
        · exact getR_setR_ne s 0 (Ne.symm ha)
      have hmo : t.mode = s.mode ∧ t.owner = s.owner := by rcases ht with rfl | rfl <;> exact ⟨rfl, rfl⟩
      intro hc
      have hc' : canMonitor s v = true := by
        rw [← hc]
        exact (canMonitor_congr hmo.1 hmo.2 (hr _ (by unfold Reg.CAN_CFG Reg.CAN_ERRCNT; omega))
          (hr _ (by unfold Reg.CAN_CTRL Reg.CAN_ERRCNT; omega))).symm
      obtain ⟨q1, q2⟩ := hq hc'
      refine ⟨?_, ?_⟩
      · have := hr (Reg.CAN_ERRCNT v) (by unfold Reg.CAN_ERRCNT; omega)
        rw [← q1, ← this]; rfl
      · simpa [Vector.getElem_set, Ne.symm hne] using q2

theorem quietHold_settleCan (s : State) : quietHold (settleCan s) := by
  intro u
  unfold settleCan
  generalize (List.finRange 16).foldl canRefuse s = t
  have h : ∀ (l : List (Fin 16)) (t : State), (u ∈ l ∨ quietAt t u) → quietAt (l.foldl canQuiet t) u := by
    intro l
    induction l with
    | nil => intro t h; exact h.resolve_left (by simp)
    | cons a l ih =>
      intro t h
      rw [List.foldl_cons]
      refine ih _ ?_
      rcases h with h | h
      · rcases List.mem_cons.mp h with rfl | h
        · exact .inr (quietAt_canQuiet _ _ _ (.inl rfl))
        · exact .inl h
      · exact .inr (quietAt_canQuiet _ _ _ (.inr h))
  have hu := h _ t (.inl (List.mem_finRange u))
  generalize (List.finRange 16).foldl canQuiet t = t at *
  intro hc
  have := hu hc
  refine ⟨this.1, ?_⟩
  have e : ∀ f : Fin 16 → CanCh, (Vector.ofFn f)[u] = f u := fun f => by simp
  dsimp only
  rw [e]
  split
  · exact this.2
  · exact this.2

theorem xchHold_settleXch (s : State) : xchHold (settleXch s) := by
  intro h
  unfold settleXch at *
  dsimp only at *
  split at h
  · cases h
  · next hc =>
    rw [if_neg hc]
    have hb : (s.xch.st == .pending) = true := by simpa using h
    simp only [hb, Bool.true_and, Bool.not_eq_true', Bool.not_eq_false] at hc
    obtain ⟨m, hin, hm⟩ := List.any_eq_true.mp hc
    exact ⟨m, hin, by simpa [and_assoc] using hm⟩

theorem scanHold_settleScan (s : State) : scanHold (settleScan s) := by
  intro h
  unfold settleScan at *
  split at h
  · cases h
  · next hc =>
    rw [if_neg hc]
    cases hs : scanAllowed s
    · simp [hs] at hc; simp [hc] at h
    · rfl

/-- What an output's PAR_OFF, boundary scan, the CAN channels and the exchange read. -/
theorem parOffHold_congr {s t : State} (hr : s.regs = t.regs) (hp : s.parHeld = t.parHeld) (ha : s.io.ao = t.io.ao) (h : parOffHold s) :
    parOffHold t := by
  intro u
  have := h u
  rw [aoParOff, aoParalleled, parOff, flag_congr hr, hp, ha] at this
  exact this

theorem scanHold_congr {s t : State} (hd : s.dbg = t.dbg) (hp : s.pwr = t.pwr) (hm : s.mode = t.mode) (h : scanHold s) : scanHold t := by
  unfold scanHold scanAllowed at *
  rwa [hd, hp, hm] at h

theorem canHold_congr {s t : State} (hc : s.can = t.can) (hm : s.mode = t.mode) (ho : s.owner = t.owner) (hr : s.regs = t.regs)
    (h : canHold s) : canHold t := by
  intro u b hw
  have := h u b (by rw [hc]; exact hw)
  rw [canQueueOk, canOwner, flag_congr hr, hm, ho] at this
  exact this

theorem quietHold_congr {s t : State} (hc : s.can = t.can) (hm : s.mode = t.mode) (ho : s.owner = t.owner) (hr : s.regs = t.regs)
    (h : quietHold s) : quietHold t := by
  intro u hu
  have := h u (by rw [← hu]; exact canMonitor_congr hm ho (getR_congr hr _) (getR_congr hr _))
  rwa [getR_congr hr, hc] at this

theorem xchHold_congr {s t : State} (hx : s.xch = t.xch) (ht : s.txn = t.txn) (h : xchHold s) : xchHold t := by
  unfold xchHold at *
  rwa [hx, ht] at h

theorem inv_settleIo {s : State} (hp : parOffHold s) (hs : scanHold s) (hc : canHold s) (hq : quietHold s) (hx : xchHold s) :
    Inv (settleIo s) where
  stages c := by rw [settleIo_dout, doDrive_settleIo]; exact (settleDo_keeps s c).2.2.2.2.1
  pulses c h := by rw [doHeldOff_settleIo] at h; rw [settleIo_dout, (settleDo_keeps s c).2.2.2.2.2, h]; rfl
  off h1 h2 c := by
    rw [(settleIo_keeps s).2.2.2.1] at h1
    rw [settleIo_dout, (settleDo_keeps s c).2.2.2.2.1]
    have h3 : s.untilOr = false := by simpa using h2
    simp [doDrive, doHeldOff, outOff, h1, h3]
  counts c := by
    rw [settleIo_dout, lowSide_settleIo]
    unfold settleDo
    cases doDrive s c <;> cases lowSide s c <;> simp
  live c := by
    rw [settleIo_dout, extJudged_settleIo, flag_congr (settleIo_keeps s).2.2.1]
    unfold settleDo
    generalize s.io.dout[c] = x
    cases doDrive s c <;> cases extJudged s c <;> simp
  parOff := parOffHold_congr (by simp) (by simp) (by simp) hp
  scan := scanHold_congr (by simp) (by simp) (by simp) hs
  can := canHold_congr (by simp) (by simp) (by simp) (by simp) hc
  quiet := quietHold_congr (by simp) (by simp) (by simp) (by simp) hq
  xch := xchHold_congr (by simp) (by simp) hx

/-- The invariant holds of what follows every command. -/
theorem inv_settle (s : State) : Inv (settle s) := by
  have h1 := canHold_settleCan s
  have h5 := quietHold_settleCan s
  unfold settle
  generalize settleCan s = s1 at *
  have h2 := xchHold_settleXch s1
  have h1 : canHold (settleXch s1) := canHold_congr (by simp) (by simp) (by simp) (by simp) h1
  have h5 : quietHold (settleXch s1) := quietHold_congr (by simp) (by simp) (by simp) (by simp) h5
  generalize settleXch s1 = s2 at *
  have h3 := scanHold_settleScan s2
  have h1 : canHold (settleScan s2) := canHold_congr (by simp) (by simp) (by simp) (by simp) h1
  have h5 : quietHold (settleScan s2) := quietHold_congr (by simp) (by simp) (by simp) (by simp) h5
  have h2 : xchHold (settleScan s2) := xchHold_congr (by simp) (by simp) h2
  generalize settleScan s2 = s3 at *
  have h4 : parOffHold (settleAos s3) := by
    intro u
    have e : aoParOff (settleAos s3) u = aoParOff s3 u := by
      unfold aoParOff aoParalleled parOff
      rw [flag_congr (settleAos_keeps s3).2.2.1]; simp
    rw [settleAos_ao, e]; rfl
  have h1 : canHold (settleAos s3) := canHold_congr (by simp) (by simp) (by simp) (by simp) h1
  have h5 : quietHold (settleAos s3) := quietHold_congr (by simp) (by simp) (by simp) (by simp) h5
  have h2 : xchHold (settleAos s3) := xchHold_congr (by simp) (by simp) h2
  have h3 : scanHold (settleAos s3) := scanHold_congr (by simp) (by simp) (by simp) h3
  exact inv_settleIo h4 h3 h1 h5 h2

/-! ### A command that touches nothing of the invariant -/

/-- The registers that the invariant reads: the configuration of DO channels and AO units, and CAN_CTRL, CAN_CFG and CAN_ERRCNT. -/
def settleRegs : List Nat :=
  (List.range 32).map (fun c => Reg.DIO_CH_CFG (32 + c)) ++ (List.range 8).map (fun u => Reg.AO_CFG u) ++
    (List.range 16).flatMap (fun u => [Reg.CAN_CTRL u, Reg.CAN_CFG u, Reg.CAN_ERRCNT u])

theorem mem_settleRegs_dio (c : Fin 32) : Reg.DIO_CH_CFG (32 + c) ∈ settleRegs :=
  List.mem_append.mpr (.inl (List.mem_append.mpr (.inl (List.mem_map.mpr ⟨c.val, List.mem_range.mpr c.isLt, rfl⟩))))
theorem mem_settleRegs_ao (u : Fin 8) : Reg.AO_CFG u ∈ settleRegs :=
  List.mem_append.mpr (.inl (List.mem_append.mpr (.inr (List.mem_map.mpr ⟨u.val, List.mem_range.mpr u.isLt, rfl⟩))))
theorem mem_settleRegs_can (u : Fin 16) : ∀ a ∈ [Reg.CAN_CTRL u, Reg.CAN_CFG u, Reg.CAN_ERRCNT u], a ∈ settleRegs :=
  fun _ h => List.mem_append.mpr (.inr (List.mem_flatMap.mpr ⟨u.val, List.mem_range.mpr u.isLt, h⟩))

/-- The invariant reads only these fields of the state, and only these registers. -/
theorem Inv.congr {s t : State} (h : Inv s) (hr : ∀ a ∈ settleRegs, getR t a = getR s a) (hio : t.io = s.io) (hm : t.mode = s.mode)
    (hu : t.untilOr = s.untilOr) (hp : t.parHeld = s.parHeld) (ho : t.owner = s.owner) (hc : t.can = s.can) (ht : t.txn = s.txn)
    (hx : t.xch = s.xch) (hd : t.dbg = s.dbg) (hw : t.pwr = s.pwr) : Inv t := by
  have f1 : ∀ (c : Fin 32) f, flag t (Reg.DIO_CH_CFG (32 + c)) f = flag s (Reg.DIO_CH_CFG (32 + c)) f := by
    intro c f; unfold flag getF; rw [hr _ (mem_settleRegs_dio c)]
  have f2 : ∀ (u : Fin 8) f, flag t (Reg.AO_CFG u) f = flag s (Reg.AO_CFG u) f := by
    intro u f; unfold flag getF; rw [hr _ (mem_settleRegs_ao u)]
  have f3 : ∀ (u : Fin 16) f, flag t (Reg.CAN_CTRL u) f = flag s (Reg.CAN_CTRL u) f := by
    intro u f; unfold flag getF; rw [hr _ (mem_settleRegs_can u _ (by simp))]
  have hh : ∀ c, doHeldOff t c = doHeldOff s c := by
    intro c; simp only [doHeldOff, outOff, doParalleled, Machine.parOff, f1, hm, hu, hp, hio]
  have hv : ∀ c, doDrive t c = doDrive s c := by intro c; simp only [doDrive, hh, hio]
  have hl : ∀ c, lowSide t c = lowSide s c := by intro c; simp only [lowSide, doPp, hh, hv, f1]
  have he : ∀ c, extJudged t c = extJudged s c := by intro c; simp only [extJudged, doParalleled, f1, hio]
  refine ⟨fun c => ?_, fun c hc' => ?_, fun h1 h2 c => ?_, fun c => ?_, fun c => ?_, fun u => ?_, fun h1 => ?_, fun u b hw' => ?_, fun u hu => ?_, fun h1 => ?_⟩
  · rw [hio, hv]; exact h.stages c
  · rw [hio]; exact h.pulses c (by rw [← hh]; exact hc')
  · rw [hio]; exact h.off (by rw [← hm]; exact h1) (by rw [← hu]; exact h2) c
  · rw [hio, hl]; exact h.counts c
  · rw [hio, he, f1]; exact h.live c
  · have := h.parOff u
    rw [hio, this]; simp only [aoParOff, aoParalleled, Machine.parOff, f2, hp]
  · have := h.scan (by rw [← hd]; exact h1)
    simpa only [scanAllowed, hw, hd, hm] using this
  · have := h.can u b (by rw [← hc]; exact hw')
    simpa only [canQueueOk, canOwner, f3, hm, ho] using this
  · have e := canMonitor_congr (u := u) hm ho (hr _ (mem_settleRegs_can u _ (by simp))) (hr _ (mem_settleRegs_can u _ (by simp)))
    have := h.quiet u (by rw [← e]; exact hu)
    rw [hr _ (mem_settleRegs_can u _ (by simp)), hc]; exact this
  · rw [ht]; exact h.xch (by rw [← hx]; exact h1)

end Sys2Proof.Machine
end

