-- ==== Sys2Proof/Laws/Bus.lean ====
section
/-!
SUPPORT. Laws of the commands' common frame and of accesses: a command that runs, an access that is let through, and the registers' places.
-/
namespace Sys2Proof.Machine

/-! ### A command that runs -/

theorem run_next {s : State} (h : s.held = false) (t : Nat) (f : State → State) : run t f s = .next (after t f s) := by
  rw [run, h]; rfl

theorem run_held {s : State} (h : s.held = true) (t : Nat) (f : State → State) : run t f s = .next s := by
  rw [run, h]; rfl

/-- After every command the invariant holds. -/
theorem inv_after (t : Nat) (f : State → State) (s : State) : Inv (after t f s) := inv_settle _

/-- No command changes the queue of waiting commands. -/
@[simp] theorem after_pending (t : Nat) (f : State → State) (s : State) : (after t f s).pending = s.pending := by
  unfold after; rw [settle_outside]

theorem next_inj {s t : State} (h : (Host.Outcome.next s : Host.Outcome State Fault Refusal) = .next t) : s = t := by injection h

/-- What a command of the module's logic answers: the state itself while held, otherwise the state after it. -/
theorem run_cases {t : Nat} {f : State → State} {s u : State} (h : run t f s = .next u) : u = s ∧ s.held = true ∨ u = after t f s := by
  unfold run at h
  split at h
  · next hh => exact .inl ⟨(next_inj h).symm, hh⟩
  · exact .inr (next_inj h).symm

/-! ### An access that is let through -/

theorem artCheck_none {m : Master} {p : Priv} {k : AccKind} {a n : Nat} {s : State} (h : (artCheck m p k a n s).2 = none) :
    (artCheck m p k a n s).1 = s := by
  unfold artCheck at *
  split
  · next h1 => simp [h1] at h
  · next h1 =>
    rw [if_neg h1] at h
    split
    · next h2 => simp [h2] at h
    · next h2 =>
      rw [if_neg h2] at h
      split
      · rfl
      · next h3 => rw [h3] at h; cases h

/-- The check of an access reads registers, power, fuses, the debug unit and nothing else. -/
theorem artCheck_congr {s t : State} (hr : s.regs = t.regs) (hp : s.pwr = t.pwr) (hd : s.dbg = t.dbg) (ha : s.art = t.art)
    (m : Master) (p : Priv) (k : AccKind) (a n : Nat) : (artCheck m p k a n s).2 = (artCheck m p k a n t).2 := by
  have h1 : secState s = secState t := by unfold secState; rw [ha]
  have h2 : ∀ x, getR s x = getR t x := getR_congr hr
  have h3 : rulesFor s m p a n = rulesFor t m p a n := by
    unfold rulesFor ruleMatch enabledRules ruleCovers; simp only [h2, hr, hd]
  have h4 : isVault s a = isVault t a := by unfold isVault vaultRanges enabledRules; simp only [h2, hr]
  have h5 : ∀ q, defaultAllows s m q a = defaultAllows t m q a := by intro q; unfold defaultAllows; rw [hd]
  unfold artCheck
  rw [h1, h3, h4, hp, hd, h5]
  split
  · rfl
  · split
    · rfl
    · split <;> simp_all

theorem artCheck_entry {m : Master} {p : Priv} {k : AccKind} {a t : Nat} {s : State} (h : (artCheck m p k a 4 s).2 = none) :
    artCheck m p k a 4 (dropCaptures m (entry t s)) = (dropCaptures m (entry t s), none) := by
  have h1 : (artCheck m p k a 4 (dropCaptures m (entry t s))).2 = none := by
    rw [← h]; exact artCheck_congr (s := dropCaptures m (entry t s)) (t := s) rfl rfl rfl rfl m p k a 4
  exact Prod.ext (artCheck_none h1) h1

/-- A granted write reaches its register. -/
theorem busWrite_reg {r : Req} {a : Nat} {d : RegDesc} {s : State} (v : Word) (hg : Granted r .write a s)
    (ht : target? r.m a 4 = some (.reg d)) :
    busWrite r.m r.p a 4 (v.setWidth 64) (entry r.t s) =
      ((regWrite d r.m a v (dropCaptures r.m (entry r.t s))).1,
        if (regWrite d r.m a v (dropCaptures r.m (entry r.t s))).2 then Resp.done else Resp.busError) := by
  have hc : clocked (dropCaptures r.m (entry r.t s)) r.m a (.reg d) = true := hg.clock
  simp only [busWrite, ht, artCheck_entry hg.allowed, hc, targetWrite, BitVec.setWidth_setWidth_of_le v (show 32 ≤ 64 by decide), BitVec.setWidth_eq]
  rfl

/-- A granted write of a register without RWT fields. -/
theorem exec_write {r : Req} {a : Nat} {d : RegDesc} {s t : State} (v : Word) (hg : Granted r .write a s)
    (ht : target? r.m a 4 = some (.reg d)) (hd : d.rwt = 0) (hw : regAct d r.m a v (dropCaptures r.m (entry r.t s)) = some t) :
    run r.t (reqWrite r a v) s = .next (settle { t with resp := .done, pending := s.pending }) := by
  rw [run_next hg.runs]
  have := busWrite_reg v hg ht
  unfold entry at this
  unfold after reqWrite answer
  rw [this]
  unfold entry at hw
  simp only [regWrite, hd, hw]
  rfl

end Sys2Proof.Machine
end

