-- ==== Sys2Proof/Tests/Slice0.lean ====
section
/-!
SUPPORT. Tests on small states: an ill-formed command for each check, worked examples of the spec, and for each statement with hypotheses a
state and operands that meet them.
-/
namespace Sys2Proof.Tests
set_option Elab.async false   -- one proof at a time: the witnesses are many
open Sys2Proof.Machine

/-! ### Small states -/

/-- The module out of reset, in a module state, nothing else changed. -/
def up (m : Mode) : State := { State.reset with held := false, mode := m }

/-- A request of core MC0 in M mode, and one of the debug port. -/
def mc0 : Req := { t := 0, m := .mc0, p := .machine }
def dbg : Req := { t := 0, m := .debug, p := .machine }

/-- A state with no output driven, no scan and no exchange PENDING without its transaction has the invariant as far as CAN has it. -/
theorem inv_quiet {s : State}
    (hd : s.io.dout = State.reset.io.dout) (ha : s.io.ao = State.reset.io.ao) (hp : ∀ u : Fin 8, aoParOff s u = false)
    (hn : s.dbg.driven = none) (hc : canHold s) (hq : quietHold s) (hx : xchHold s) : Inv s := by
  have h : ∀ c : Fin 32, s.io.dout[c] = {} := fun c => by rw [hd]; simp [State.reset]
  have k : ∀ u : Fin 8, s.io.ao[u] = {} := fun c => by rw [ha]; simp [State.reset]
  constructor
  · intro c; simp [h, doDrive]
  · intro c _; simp [h]
  · intro _ _ c; simp [h]
  · intro c; simp [h]
  · intro c; simp [h]
  · intro u; simp [k, hp]
  · intro x; simp [hn] at x
  · exact hc
  · exact hq
  · exact hx

/-- Nothing of what the invariant speaks of is in use, but for CAN; and CAN neither. -/
def calm (s : State) : Bool :=
  s.io.dout == State.reset.io.dout && s.io.ao == State.reset.io.ao && (List.finRange 8).all (fun u => !aoParOff s u) && s.dbg.driven.isNone &&
  (List.finRange 16).all (fun u => !canMonitor s u || (getR s (Reg.CAN_ERRCNT u) == 0 && s.can[u].st != .errorPassive && s.can[u].st != .busOff &&
    s.can[u].st != .recovering)) &&
  (s.xch.st != .pending || masters.any fun m => (s.txn.get m).st == .pending && (s.txn.get m).image && (s.txn.get m).delta)

def quiet (s : State) : Bool := calm s && s.can == State.reset.can

theorem inv_calm {s : State} (h : calm s = true) (hc : canHold s) : Inv s := by
  simp only [calm, Bool.and_eq_true, beq_iff_eq, List.all_eq_true, List.mem_finRange, forall_const, Bool.not_eq_true', Option.isNone_iff_eq_none,
    Bool.or_eq_true, bne_iff_ne, ne_eq, List.any_eq_true] at h
  refine inv_quiet h.1.1.1.1.1 h.1.1.1.1.2 h.1.1.1.2 h.1.1.2 hc (fun u m => ?_) fun x => ?_
  · rcases h.1.2 u with y | y
    · rw [m] at y; cases y
    · exact ⟨y.1.1.1, y.1.1.2, y.1.2, y.2⟩
  · rcases h.2 with y | ⟨m, i, j⟩
    · exact absurd x y
    · exact ⟨m, i, j.1.1, j.1.2, j.2⟩

theorem inv_b {s : State} (h : quiet s = true) : Inv s := by
  simp only [quiet, Bool.and_eq_true, beq_iff_eq] at h
  refine inv_calm h.1 fun u b w => ?_
  have z : ∀ (u : Fin 16) (b : Fin 32), (State.reset.can[u].txb[b]).waits = false := by decide +kernel
  have v : s.can[u] = State.reset.can[u] := by rw [h.2]
  rw [v, z] at w
  exact absurd w (by decide)

/-- On an owner's channels queue frames may wait. -/
theorem inv_owner {s : State} (h : calm s = true ∧ canOwner s = true) : Inv s :=
  inv_calm h.1 fun _ _ _ => by simp [canQueueOk, h.2]

/-- A state with the I/O, the registers and the CAN channels of reset. -/
theorem inv_io {s : State} (hio : s.io = State.reset.io) (hr : s.regs = State.reset.regs) (hc : s.can = State.reset.can)
    (hp : s.parHeld = State.reset.parHeld) (hn : s.dbg.driven = none) (hx : s.xch.st = .none) : Inv s := by
  have r := inv_b (s := State.reset) (by decide +kernel)
  have a : ∀ u, aoParOff s u = aoParOff State.reset u := fun u => by
    simp only [aoParOff, aoParalleled, parOff, flag, getF, getR, hr, hp]
  refine inv_quiet (by rw [hio]) (by rw [hio]) (fun u => ?_) hn (fun u b w => ?_) (fun u _ => ?_) fun h => by rw [hx] at h; cases h
  · rw [a, ← r.parOff u]; simp [State.reset]
  · have z : ∀ (u : Fin 16) (b : Fin 32), (State.reset.can[u].txb[b]).waits = false := by decide +kernel
    rw [hc, z] at w
    exact absurd w (by decide)
  · have z : ∀ u : Fin 16, getR State.reset (Reg.CAN_ERRCNT u) = 0 ∧ State.reset.can[u].st ≠ .errorPassive ∧ State.reset.can[u].st ≠ .busOff ∧
        State.reset.can[u].st ≠ .recovering := by decide +kernel
    have e : getR s (Reg.CAN_ERRCNT u) = getR State.reset (Reg.CAN_ERRCNT u) := by simp only [getR, hr]
    rw [e, hc]; exact z u

theorem granted {r : Req} {k : AccKind} {a : Nat} {s : State}
    (h : s.held = false ∧ (artCheck r.m r.p k a 4 s).2 = none ∧ regClocked s a = true) : Granted r k a s := ⟨h.1, h.2.1, h.2.2⟩

/-- The invariant, on a state as it stands. -/
theorem inv_of {s : State} (a : stagesFollow s) (b : pulsesHold s) (c : outputsOffHold s) (d : countsHold s) (e : liveFlagsHold s)
    (f : parOffHold s) (g : scanHold s) (h : canHold s) (i : quietHold s) (j : xchHold s) : Inv s := ⟨a, b, c, d, e, f, g, h, i, j⟩

theorem inv_up (m : Mode) : Inv (up m) := by cases m <;> exact inv_b (by decide +kernel)

theorem granted_cmd (m : Mode) : Granted mc0 .write Reg.SYS_CMD (up m) := by cases m <;> exact granted (by decide +kernel)

/-! ### The block -/

theorem witness_step_runs : ∃ (c : Instr) (rest : List Instr) (s : State), s.pending = c :: rest :=
  ⟨.idcode 1, [], { up .hold with pending := [.idcode 1] }, rfl⟩

theorem witness_empty_queue : State.reset.pending = [] := rfl

theorem witness_held : ∃ c, State.reset.held = true ∧ actsAlways c = false := ⟨.fwRestart 1, rfl, rfl⟩

/-- A step of a module with the invariant that answers a next state. -/
theorem witness_invariant : ∃ s t, Inv s ∧ step s = .next t ∧ s.pending ≠ [] :=
  ⟨{ up .active with pending := [.idcode 1] }, _, inv_b (by decide +kernel), rfl, by decide⟩

/-- A module whose dividers ramp to those of CLK_DIV 0x28030605. -/
def ramps : State := setR { up .hold with clk := { ramping := true } } Reg.CLK_DIV 0x28030605

/-- A ramp that ends with the Store's divider at 6 and the core's at 5 has "no defined behaviour" (R373). -/
theorem test_ramp_faults_at_an_undefined_ratio : exec (.divRampStep 0 .store) ramps = .fault .clockRatioUndefined := by
  have h : (!ramps.held && ramps.clk.ramping && !(divStep .store ramps).clk.ramping && !ratiosOk (divStep .store ramps).clk) = true := by
    decide +kernel
  show execDivRampStep 0 .store ramps = _
  simp only [execDivRampStep, h, if_true]

/-! ### Boot and accesses -/

theorem witness_restart : (up .active).held = false := rfl

theorem witness_boot_done : (up .boot).held = false ∧ (up .boot).mode = .boot ∧ fallbackDue (up .boot) = false ∧
    (romBoot (up .boot)).2 = some 0 ∧ (bootRec (romBoot (up .boot)).1).autostart = false := by decide +kernel

/-- An access of another width, one of another alignment, and one outside every map. -/
theorem witness_wrong_access : Inv (up .hold) ∧ (up .hold).held = false ∧ (2 ≠ 4) ∧ (Reg.SYS_CMD + 2) % 4 ≠ 0 ∧
    (Reg.desc? 0x7FFFFFFC = none ∧ aliasAt? 0x7FFFFFFC = none ∧ inWin 0x7FFFFFFC 0x08000000 0x01000000 = false ∧
      inWin 0x7FFFFFFC 0x10000000 storeSize = false ∧ inWin 0x7FFFFFFC 0x20000000 0x000A0000 = false ∧
      inWin 0x7FFFFFFC 0x30000000 0x00200000 = false) := ⟨inv_up _, by decide +kernel⟩

/-- Access is granted to a core in M mode, for every kind of register that the statement on writes names. -/
theorem witness_write : ∀ a ∈ [Reg.PWR_CFG, Reg.PTP_LAT_IN 11, Reg.DIO_CH_DELAY 31, Reg.CAN_RX_CFG 15, Reg.PWR_ALARM, Reg.CLK_REF_ALARM,
    Reg.RED_ALARM, Reg.CAN_ALARM 0, Reg.DIO_CH_DIAG 63, Reg.DIO_GRP_ALARM 3, Reg.AO_DIAG 7, Reg.AI_DIAG 7, Reg.QUE_STATUS 127, Reg.TTRG_STATUS 15,
    Reg.SYS_ID, Reg.PWR_BANK], Granted mc0 .write a (up .hold) :=
  fun a h => ⟨rfl, by revert a; decide +kernel, by revert a; decide +kernel⟩

theorem witness_read_clear : ∀ a ∈ [Reg.CLK_SWITCH_CNT, Reg.PWR_EVENTS, Reg.RED_EVENTS, Reg.LANE_CNT, Reg.ART_REFUSED, Reg.ENG_CLS_MAX 3,
    Reg.ENG_CLS_OVR 0, Reg.QUE_COUNT 127, Reg.TTRG_COUNT 15, Reg.FGR_P_RX 11, Reg.FGR_P_FWD 0],
    Granted mc0 .read a (up .hold) ∧ capture? (up .hold) .mc0 a = none :=
  fun a h => ⟨⟨rfl, by revert a; decide +kernel, by revert a; decide +kernel⟩, rfl⟩

theorem witness_low_read : Granted mc0 .read Reg.TIME_NOW_LO (up .hold) ∧ Granted mc0 .read Reg.TIME_NOW_HI (up .hold) ∧
    capture? (up .hold) .mc0 Reg.TIME_NOW_LO = none := ⟨granted (by decide +kernel), granted (by decide +kernel), rfl⟩

/-! ### Configuration transactions and aliases -/

/-- A module in HOLD with the transaction of one master as given. -/
def txnIs (m : Master) (x : Txn) : State := setTxn (up .hold) m x

theorem inv_txn (m : Master) (x : Txn) : Inv (txnIs m x) := by cases m <;> exact inv_io rfl rfl rfl rfl rfl rfl

/-- A staging write without a transaction, in one, and against another master's lock. -/
theorem witness_staging :
    (Granted mc0 .write Reg.ENG_CTRL (up .hold) ∧ stagingClosed (up .hold) .mc0 = true) ∧
    (let s := txnIs .mc0 { st := .opened }
     Granted mc0 .write (Reg.REC_H_BASE 255) s ∧ (s.txn.get .mc0).st = .opened ∧ lockHolder s .mc0 (Reg.REC_H_BASE 255) = none ∧
      (s.txn.get .mc0).staged.length < 4096) ∧
    (let s := setTxn (txnIs .mc0 { st := .opened }) .debug { st := .opened, staged := [(Reg.QUE_CFG 0, 1)] }
     Inv s ∧ Granted mc0 .write (Reg.QUE_CFG 0) s ∧ (s.txn.get .mc0).st = .opened ∧ lockHolder s .mc0 (Reg.QUE_CFG 0) = some .debug) :=
  ⟨⟨granted (by decide +kernel), rfl⟩, ⟨granted (by decide +kernel), rfl, by decide +kernel, by decide⟩,
    inv_b (by decide +kernel), granted (by decide +kernel), rfl, by decide +kernel⟩

/-- A transaction that names an image. -/
def names : Txn := { st := .opened, staged := [(Reg.CTU_IMAGE_BASE, 0), (Reg.CTU_IMAGE_LEN, 64)] }

theorem witness_transaction_commands :
    (Granted mc0 .write Reg.CTU_CMD (up .hold) ∧ (up .hold).mode ≠ .boot ∧ ((up .hold).txn.get .mc0).st = .idle) ∧
    (let s := txnIs .mc0 names
     Granted mc0 .write Reg.CTU_CMD s ∧ (s.txn.get .mc0).named = true ∧ verifyState s.mode (containerDelta s (s.txn.get .mc0)) = true) ∧
    (let s := txnIs .mc0 { st := .opened, staged := [(Reg.TTRG_PERIOD 0, 7)] }
     Granted mc0 .write Reg.CTU_CMD s ∧ commitFault .mc0 (dropCaptures .mc0 (entry 0 s)) = none) ∧
    (let s := txnIs .mc0 { st := .pending, latch := 5000000 }
     Granted mc0 .write Reg.CTU_CMD s ∧ s.art.waiting.contains .mc0 = false ∧ latchPassed (entry 0 s) (s.txn.get .mc0) = false ∧
      latchPassed (entry 9000000 s) (s.txn.get .mc0) = true) :=
  ⟨⟨granted (by decide +kernel), by decide, rfl⟩, ⟨granted (by decide +kernel), by decide +kernel⟩,
    ⟨granted (by decide +kernel), by decide +kernel⟩, ⟨granted (by decide +kernel), by decide +kernel⟩⟩

theorem witness_verification : verifier (txnIs .mc1 { names with st := .verifying, ran := true }) = some .mc1 := by decide +kernel

/-- A transaction whose boundary is now. -/
def pends : State := txnIs .mc0 { st := .pending, staged := [(Reg.REC_H_BASE 255, 7), (Reg.RED_HOLDOFF, 0)] }

theorem witness_boundary : masters.filter (boundaryNow (entry 250000 pends)) = [.mc0] ∧ pends.dbg.frozen = false ∧
    (pends.txn.get .mc0).cand = none ∧ commitFault .mc0 (entry 250000 pends) = none ∧ ((pends.txn.get .mc0).staged.map (·.1)).Nodup ∧
    (∀ p ∈ (pends.txn.get .mc0).staged, p.1 / 0x10000 ∈ [0x10, 0x14, 0x50, 0x51, 0x61] ∧
      ¬(Reg.IMG_OVR_CTL 0 ≤ p.1 ∧ p.1 < Reg.IMG_OVR_CTL 256)) := by decide +kernel

theorem witness_idle_timeout : Inv (txnIs .mc0 { st := .failed }) ∧ (txnIs .mc0 { st := .failed }).held = false := ⟨inv_txn _ _, rfl⟩

theorem witness_alias : (∀ c : Fin 64, regClocked (up .hold) (Reg.DIO_CH_DIAG c) = true) ∧
    (∀ a ∈ [0x50E008, 0x50F008], (artCheck .mc0 .machine .write a 4 (up .hold)).2 = none ∧
      (artCheck .mc0 .machine .read a 4 (up .hold)).2 = none ∧ capture? (up .hold) .mc0 a = none) := by decide +kernel

/-! ### Central Store and queues -/

theorem witness_scrub : unitRefused (up .hold) 11 .read (32 * (up .hold).scrub) 32 = false := by decide +kernel

/-- A module in HOLD with one queue enabled (ring of 16 at 0x1000, limit 4, b_wait 2), its descriptors posted and not completed as given, and
descriptor 0: 64 bytes at 0x2000 of a class. -/
def queIs (q : Fin 128) (cls : Nat) (head tail : Nat) (fly : List Fly) : State :=
  let s := setRegs [(Reg.QUE_CFG q, Reg.QUE_CFG_enable.mk' 1 ||| Reg.QUE_CFG_size_log2.mk' 4 ||| Reg.QUE_CFG_limit.mk' 4 |||
    Reg.QUE_CFG_b_wait.mk' 2), (Reg.QUE_RING_BASE q, 0x1000), (Reg.QUE_HEAD q, BitVec.ofNat 32 head),
    (Reg.QUE_TAIL q, BitVec.ofNat 32 tail)] (up .hold)
  setQ { s with store := stBytes s.store 0x1000 (leBytes 4 0x2000 ++ leBytes 4 (64 + cls * 65536 + 0x80000 + 0x80000000)) } q { fly := fly }


/-- A tail 17 above the head of a ring of 16, and one of occupancy 5 = limit + 1 from an empty ring that wraps at 65536. -/
theorem witness_tail :
    (let s := queIs 127 1 0 0 []
     Inv s ∧ Granted mc0 .write (Reg.QUE_TAIL 127) s ∧ qSize s 127 < (17 + 65536 - qHead s 127) % 65536) ∧
    (let s := queIs 127 1 65534 65534 []
     Inv s ∧ Granted mc0 .write (Reg.QUE_TAIL 127) s ∧ (3 + 65536 - qHead s 127) % 65536 = 5 ∧ 5 ≤ qSize s 127 ∧
      (qTail s 127 + 65536 - qHead s 127) % 65536 < 5 ∧ 5 ≤ qLimit s 127 + 1 ∧ getF s Reg.QUE_POOL Reg.QUE_POOL_free ≠ 0) :=
  ⟨⟨inv_b (by decide +kernel), granted (by decide +kernel), by decide +kernel⟩,
    inv_b (by decide +kernel), granted (by decide +kernel), by decide +kernel⟩

theorem witness_queue_frame : let s := queIs 64 1 0 1 [{ postC := 5 }]
    Inv s ∧ s.held = false ∧ s.que[64].fly = [{ postC := 5 }] ∧ flag s (Reg.QUE_CFG (64 : Fin 128)) Reg.QUE_CFG_enable = true ∧
      (readDesc s (descAddrOf s 64 (qHead s 64))).cls ≠ 3 ∧ (readDesc s (descAddrOf s 64 (qHead s 64))).len ≠ 0 :=
  ⟨inv_b (by decide +kernel), by decide +kernel⟩

/-- A descriptor that is taken, and a class B descriptor of queue 0 that has waited its 2 FAST periods. -/
theorem witness_descriptor :
    (let s := queIs 64 1 1 1 [{ postC := 0, takenAt := some 0x1000 }]
     Inv s ∧ s.held = false ∧ s.que[64].fly = [{ postC := 0, takenAt := some 0x1000 }]) ∧
    (let s := queIs 0 1 0 1 [{ postC := 5, waitFrom := some 0 }]
     Inv s ∧ s.held = false ∧ s.que[0].fly = [{ postC := 5, waitFrom := some 0 }] ∧
      bWaited (entry 1000000 s) 0 { postC := 5, waitFrom := some 0 } (fastPeriod (entry 1000000 s)) = true) :=
  ⟨⟨inv_b (by decide +kernel), by decide +kernel⟩, inv_b (by decide +kernel), by decide +kernel⟩

/-- No buffer posted, and one posted at 0x2000, after its descriptor. -/
theorem witness_rx :
    (let s := queIs 127 1 0 0 []
     Inv s ∧ s.held = false ∧ flag s (Reg.QUE_CFG (127 : Fin 128)) Reg.QUE_CFG_enable = true ∧
      poolReserve s < getF s Reg.QUE_POOL Reg.QUE_POOL_free ∧ s.que[127].fly = []) ∧
    (let s := queIs 64 1 0 1 [{ postC := 5 }]
     Inv s ∧ s.held = false ∧ flag s (Reg.QUE_CFG (64 : Fin 128)) Reg.QUE_CFG_enable = true ∧
      poolReserve s < getF s Reg.QUE_POOL Reg.QUE_POOL_free ∧ s.que[64].fly = [{ postC := 5 }] ∧
      descAddrOf s 64 (qHead s 64) + 16 ≤ (readDesc s (descAddrOf s 64 (qHead s 64))).buf) :=
  ⟨⟨inv_b (by decide +kernel), by decide +kernel⟩, inv_b (by decide +kernel), by decide +kernel⟩

/-! ### Cycles, outputs, lanes -/

/-- A record from its fields, each a width in bytes and a value, little-endian (R31). -/
def le (l : List (Nat × Nat)) : Nat := l.foldr (fun p a => p.2 + 2 ^ (8 * p.1) * a) 0

/-- An image: FAST 250 µs, MID 500 µs, SLOW 1 ms; one MOVE (Table 4.4) of DI word 0 to word 1 in FAST; one chain of two steps in MID; ports 0
and 1 RING with one station (one uplink and one downlink segment of one word) and its slots; one CAN unit of mode CLASSIC with a
transmit and a receive message and a reference record. -/
def img : Image := { id := 7, parts := [
  { typ := 0x01, part := 0, recs := [le [(1, 0), (1, 0), (2, 8), (4, 0)], le [(1, 1), (1, 0), (2, 16), (4, 0)], le [(1, 2), (1, 0), (2, 32), (4, 0)]] },
  { typ := 0x02, part := 0, recs := [le [(4, 0), (1, 1), (1, 0), (2, 4), (8, 0), (8, 0)]] },
  { typ := 0x04, part := 0, recs := [le [(1, 0), (1, 0), (2, 1), (3, 0), (3, 0), (3, 0), (3, 0), (3, 0x20001), (3, 0), (2, 0), (4, 0), (4, 9)]] },
  { typ := 0x05, part := 0, recs := [le [(2, 0), (1, 0), (1, 1)]] },
  { typ := 0x06, part := 0, recs := [le [(2, 0), (2, 2), (1, 1), (1, 0), (2, 0), (4, 5)]] },
  { typ := 0x06, part := 1, recs := [le [(3, 0x20001), (3, 0), (2, 1), (2, 0), (3, 2), (1, 0), (2, 0)],
    le [(3, 0x20000), (3, 0), (2, 0), (2, 0), (3, 2), (1, 0), (2, 0)]] },
  { typ := 0x0A, part := 0, recs := [le [(1, 0), (1, 1), (2, 3), (4, 0)], le [(1, 1), (1, 1), (2, 3), (4, 0)]] },
  { typ := 0x0B, part := 0, recs := [le [(2, 0x21), (1, 0), (1, 1), (4, 40000), (4, 0x1234), (4, 0x5678), (2, 100)]] },
  { typ := 0x0B, part := 1, recs := [le [(2, 0), (1, 0), (1, 0), (2, 1)], le [(2, 0), (1, 1), (1, 0), (2, 1)]] },
  { typ := 0x0B, part := 2, recs := [le [(1, 0), (1, 0), (2, 0), (4, 10000)], le [(1, 0), (1, 1), (2, 0), (4, 20000)], le [(1, 0), (1, 2), (2, 0), (4, 60000)]] },
  { typ := 0x0C, part := 0, recs := [le [(1, 3), (1, 1)]] },
  { typ := 0x0C, part := 1, recs := [le [(4, 0x101), (1, 3), (1, 1), (1, 4), (1, 0), (4, 30000)], le [(4, 0x102), (1, 3), (1, 0), (1, 4), (1, 0), (4, 0)]] },
  { typ := 0x0C, part := 2, recs := [le [(1, 3), (1, 1), (1, 2), (1, 3), (4, 0x80), (4, 0)]] }] }

/-- A module that runs this image in a state, with its classes as given. -/
def runs (m : Mode) (c : PerCls ClassRun) : State := { up m with img := img, cls := c }

/-- A class whose cycle of 250 µs runs, with waves left. -/
def busy (waves : Nat) : ClassRun := { running := true, waves := waves, lastT0 := some 250000, snapT0 := some 250000, lastNo := some 1 }

theorem test_image : img.period 0 = 250000 ∧ img.period 1 = 500000 ∧ img.period 2 = 1000000 ∧ img.waves 0 = [[0]] ∧
    (img.clsChains 1).length = 1 ∧ img.ringUsed 0 = true ∧ (img.dlFrames 0).length = 1 := by decide +kernel

/-- FAST's T0 at 250 µs, where MID and SLOW are not due, and at 1 ms, where all are and FAST's last cycle still runs. -/
theorem witness_cycle_start :
    (let s := runs .active (PerCls.all {})
     Inv s ∧ s.held = false ∧ executing s = true ∧ edgeAt (entry 62500 s) 250000 = true ∧ xchDue s 250000 = false ∧ s.retain.startWaits = false) ∧
    (let s := runs .solo { (PerCls.all {} : PerCls ClassRun) with fast := busy 1 }
     Inv s ∧ s.held = false ∧ executing s = true ∧ edgeAt (entry 250000 s) 1000000 = true ∧ xchDue s 1000000 = false) :=
  ⟨⟨inv_b (by decide +kernel), by decide +kernel⟩, inv_b (by decide +kernel), by decide +kernel⟩

/-- A FAST cycle with a wave left, and one with none left: sequencers, LSE, and both done. -/
def wave : State := runs .active { (PerCls.all {} : PerCls ClassRun) with fast := busy 1, mid := busy 0 }

theorem witness_evaluate :
    (Inv wave ∧ wave.held = false ∧ engRuns wave = true ∧ (wave.cls.get .fast).running = true ∧ 0 < (wave.cls.get .fast).waves ∧
      aiPending wave .fast = false ∧ higherBusy wave .fast = false) ∧
    ((wave.cls.get .mid).running = true ∧ (wave.cls.get .mid).waves = 0 ∧ (wave.cls.get .mid).chainsDone = false ∧ aiPending wave .mid = false) ∧
    (let s := runs .active { (PerCls.all {} : PerCls ClassRun) with fast := busy 0 }
     Inv s ∧ engRuns s = true ∧ (s.cls.get .fast).running = true ∧ (s.cls.get .fast).waves = 0 ∧ (s.cls.get .fast).lseDone = false ∧
      aiPending s .fast = false) ∧
    (let s := runs .active { (PerCls.all {} : PerCls ClassRun) with fast := { busy 0 with lseDone := true } }
     Inv s ∧ engRuns s = true ∧ (s.cls.get .fast).running = true ∧ (s.cls.get .fast).waves = 0 ∧ s.img.clsChains Cls.fast.code = []) :=
  ⟨⟨inv_b (by decide +kernel), by decide +kernel⟩, by decide +kernel, ⟨inv_b (by decide +kernel), by decide +kernel⟩,
    inv_b (by decide +kernel), by decide +kernel⟩

theorem witness_lane_faults : (comparing wave = true ∧ executing wave = true) ∧ Granted mc0 .write Reg.ENG_INJECT wave ∧
    Granted mc0 .write Reg.LANE_INJECT wave := ⟨by decide +kernel, granted (by decide +kernel), granted (by decide +kernel)⟩

/-- The OC of FAST at 492 µs, with a complete cycle that began at 250 µs and releases with offset 0 at 500 µs. -/
def atOc : State := runs .active { (PerCls.all {} : PerCls ClassRun) with fast := { busy 0 with running := false, complete := true } }

theorem witness_commit : Inv atOc ∧ atOc.held = false ∧ executing atOc = true ∧ loaded atOc = true ∧ ocOf (entry 123000 atOc) = 492000 ∧
    atOc.lastOc = none ∧ atOc.red.hand.taking = false ∧ atOc.red.hand.st ≠ .go ∧ atOc.red.newer = false ∧
    ocCase atOc 500000 .fast = .commits ∧ ocCase atOc 500000 .mid = .notDue ∧ ocCase atOc 500000 .slow = .notDue ∧ tripped atOc = none ∧
    atOc.lane.fault = none ∧ deferredDue atOc = none := ⟨inv_b (by decide +kernel), by decide +kernel⟩

/-- A capture in the course of being written: alone, with one that waits, and with a START that waits. -/
def keeps (c : Option Capture) (b : Bool) : State := { up .hold with retain := { writing := some (0x400000, [1, 2, 3]), pend := c, startWaits := b } }

theorem witness_retain : ∀ c ∈ [none, some { reason := 1, image := 7, data := [9], t0s := [], hours := 0 }], ∀ b ∈ [true, false],
    quiet (keeps c b) = true ∧ (keeps c b).held = false ∧ (keeps c b).retain.writing = some (0x400000, [1, 2, 3]) := by decide +kernel

/-! ### Module commands, exchange, lane modes -/

/-- A module with a running image, in each state. -/
def ready (m : Mode) : State := runs m (PerCls.all {})

theorem inv_ready (m : Mode) : Inv (ready m) := by cases m <;> exact inv_b (by decide +kernel)

theorem granted_ready (m : Mode) : Granted mc0 .write Reg.SYS_CMD (ready m) := by cases m <;> exact granted (by decide +kernel)

theorem witness_module_commands : loaded (ready .hold) = true ∧ (ready .hold).dbg.frozen = false ∧ (ready .hold).red.listen = none ∧
    (ready .hold).sysPend = none ∧ (ready .safe).mode = .safe ∧ executing (ready .solo) = true := by decide +kernel

/-- A delta that is PENDING for the SLOW T0 at 1 ms, and the exchange after its switch: UNCONFIRMED, REVERTING since 0, archiving. -/
def delta : State :=
  let s := setTxn (ready .active) .mc0 { st := .pending, image := true, delta := true, cand := some { img with id := 8 } }
  { s with xch := { st := .pending } }

def switchedTo (x : XchState) (rev : Option (Option Master × Int)) : State :=
  { ready .active with xch := { st := x, base := { img with id := 6 }, revert := rev } }

theorem setRegs_img (l : List (Nat × Word)) (s : State) : (setRegs l s).img = s.img := by
  unfold setRegs
  induction l generalizing s with
  | nil => rfl
  | cons p l ih => rw [List.foldl_cons, ih]; simp

theorem getR_setRegs (l : List (Nat × Word)) (s : State) (a : Nat) :
    getR (setRegs l s) a = l.foldl (fun (v : Word) p => if p.1 = a then p.2 else v) (getR s a) := by
  unfold setRegs
  induction l generalizing s with
  | nil => rfl
  | cons p l ih => rw [List.foldl_cons, ih, List.foldl_cons, getR_setR]

/-- Where a new image enables no rule, its commit has no fault. -/
theorem no_rule_on {s : State} (h : ∀ i < 256, bit (getR s (Reg.ART_ATTR i)).toNat 31 = false) : artFault s = none := by
  have : (artRules s).filter (fun p => p.2.on) = [] := by
    simp only [artRules, List.filter_eq_nil_iff, List.mem_map, List.mem_range]
    rintro p ⟨i, hi, rfl⟩
    simpa [ArtRule.on] using h i hi
  simp [artFault, this, artFaults]

theorem trigsOff_same {old : Image} {s : State} (h : ∀ i < 16, s.img.ownsTrig i = false → old.ownsTrig i = false) : trigsOff false old s = s := by
  unfold trigsOff
  suffices ∀ l : List Nat, (∀ i ∈ l, i < 16) → ∀ f : State → Nat → State, (∀ i < 16, f s i = s) → l.foldl f s = s from
    this _ (by simp) _ fun i hi => by
      cases ho : s.img.ownsTrig i
      · simp [h i hi ho]
      · rfl
  intro l hl f hf
  induction l with
  | nil => rfl
  | cons i l ih => rw [List.foldl_cons, hf i (hl i (by simp))]; exact ih fun j hj => hl j (by simp [hj])

/-- The delta's transaction, and the state before its registers are set. -/
def deltaTxn : Txn := (entry 250000 delta).txn.get .mc0
def deltaAt : State := { (entry 250000 delta) with recRoots := deltaTxn.roots }

theorem delta_commits : commitFault .mc0 (entry 250000 delta) = none := by
  have e : ∀ i < 256, bit ((({ img with id := 8 } : Image).allRegs deltaAt).foldl
      (fun (v : Word) p => if p.1 = Reg.ART_ATTR i then p.2 else v) (getR deltaAt (Reg.ART_ATTR i))).toNat 31 = false := by
    decide +kernel
  have w : imageStands deltaTxn (entry 250000 delta) =
      setRegs (({ img with id := 8 } : Image).allRegs deltaAt) { deltaAt with img := { img with id := 8 } } := by
    have hc : deltaTxn.cand = some { img with id := 8 } := by decide +kernel
    have hd : deltaTxn.delta = true := by decide +kernel
    have h : imageStands deltaTxn (entry 250000 delta) = imageRegs false { img with id := 8 } deltaAt := by
      unfold imageStands; rw [hc, hd]; rfl
    rw [h]
    have o : ∀ i < 16, ({ img with id := 8 } : Image).ownsTrig i = false → deltaAt.img.ownsTrig i = false := by decide +kernel
    unfold imageRegs
    exact trigsOff_same fun i hi => by rw [setRegs_img]; exact o i hi
  have f : artFault (imageStands deltaTxn (entry 250000 delta)) = none := by
    rw [w]
    exact no_rule_on fun i hi => by rw [getR_setRegs]; exact e i hi
  have n : deltaTxn.staged = [] := by decide +kernel
  have r : stagedRegs deltaTxn (imageStands deltaTxn (entry 250000 delta)) = imageStands deltaTxn (entry 250000 delta) := by
    unfold stagedRegs; rw [n, List.foldl_nil]
  have x : (entry 250000 delta).txn.get .mc0 = deltaTxn := rfl
  simp only [commitFault, x, r, f, n, List.map_nil, List.find?_nil, ite_self]

theorem witness_exchange :
    (Inv delta ∧ delta.held = false ∧ t0Of (entry 250000 delta) (slowPeriod delta.img) = 1000000 ∧ deltaDue (entry 250000 delta) 1000000 = some .mc0 ∧
      switchEdge (entry 250000 delta) 1000000 = true ∧ ((entry 250000 delta).txn.get .mc0).cand = some { img with id := 8 } ∧
      commitFault .mc0 (entry 250000 delta) = none) ∧
    (Inv (switchedTo .unconfirmed none) ∧ Granted mc0 .write Reg.XCH_CMD (switchedTo .unconfirmed none)) ∧
    (let s := switchedTo .reverting (some (some .mc0, 995000))
     Inv s ∧ s.held = false ∧ t0Of (entry 250000 s) (slowPeriod s.img) = 1000000 ∧ switchEdge (entry 250000 s) 1000000 = true) ∧
    (Inv (switchedTo .archiving none) ∧ (switchedTo .archiving none).held = false) :=
  ⟨⟨inv_b (by decide +kernel), by decide, by decide +kernel, by decide +kernel, by decide +kernel, by decide +kernel, delta_commits⟩,
    ⟨inv_b (by decide +kernel), granted (by decide +kernel)⟩, ⟨inv_b (by decide +kernel), by decide +kernel⟩,
    inv_b (by decide +kernel), by decide +kernel⟩

/-- A lane mode that waits, 5 µs (1,250 raw counts) before the hand-over instant. -/
def laneWaits : State := { ready .active with lane := { pend := some (.mc0, true, 248750) } }

theorem witness_lane_modes : (Granted mc0 .write Reg.LANE_CMD (ready .active) ∧ (ready .active).lane.pend = none ∧ (ready .active).lane.bOff = false) ∧
    Inv laneWaits ∧ laneWaits.held = false ∧ executing laneWaits = true ∧ clsIdle laneWaits = true ∧ 248750 + 1250 ≤ (entry 250000 laneWaits).time.c ∧
    now (entry 250000 laneWaits) - t0Of (entry 250000 laneWaits) (slowPeriod laneWaits.img) < 31250 :=
  ⟨⟨granted (by decide +kernel), by decide⟩, inv_b (by decide +kernel), by decide +kernel⟩

/-! ### The redundant pair -/

/-- A Tether frame of the module's partner, on lane 0 (Table 10.2). -/
def told (typ epoch cycle : Nat) (body : List Byte) : List Byte := tetherFrame { State.reset with strap := true } 0 typ epoch cycle body

/-- The same frame as the module reads it. -/
def tells (typ epoch cycle : Nat) (body : List Byte) : TFrm :=
  { typ := typ, rxOk := false, sender := 2, pairId := 0, epoch := epoch, cycle := cycle, body := body }

theorem heard {typ epoch cycle : Nat} {body : List Byte} {s : State} (h : parseTether true (told typ epoch cycle body) = some (tells typ epoch cycle body))
    (k : (tells typ epoch cycle body).pairId = (getR s Reg.RED_PAIR_ID).toNat ∧ 2 ≠ ownId s ∧ s.red.partner.fwOk = true) :
    Heard true (told typ epoch cycle body) (tells typ epoch cycle body) s := ⟨h, k.1, k.2.1, k.2.2⟩

/-- Both lanes up, the partner hearing, last good frame at the raw counter value 0. -/
def lane : TLane := { up := true, pcs := true, partnerRx := true, present := true, lastGood := some 0, runFrom := some 0 }
def tied (s : State) : State := { s with red := { s.red with lanes := Vector.replicate 2 lane } }

/-- A Tether Cricket: ACTIVE, ready, leaving, executing. -/
def cricket : List Byte := [3, 13, 0, 63, 0, 0, 0, 4, 0, 0, 0, 0, 0, 0, 0, 0]

theorem witness_crickets : (up .hold).mode ≠ .boot ∧ (ready .standby).mode ≠ .boot ∧ (ready .standby).mode ≠ .hold ∧
    loaded (ready .standby) = true ∧ (ready .standby).img.ringUsed 0 = true := by decide +kernel

theorem witness_tether : Heard true (told 1 5 4 cricket) (tells 1 5 4 cricket) (ready .standby) ∧ parseTether false (told 1 5 4 cricket) = none ∧
    (Inv (tied (ready .standby)) ∧ laneHears (entry 12500 (tied (ready .standby))) 0 = true ∧ laneHears (entry 12501 (tied (ready .standby))) 1 = false) :=
  ⟨heard (by decide +kernel) (by decide +kernel), by decide +kernel, inv_b (by decide +kernel), by decide +kernel⟩

/-- Delta 5 of two words, with its frame still to send and sent, and a standby that lags 64 cycles. -/
def deltaIs (next : Nat) : Delta := { k := 5, words := [(0x100, 7), (0x101, 8)], full := false, flags := 0, last := [5, 2, 1, 0], next := next }
def streams (next : Nat) : State := let s := tied (ready .active); { s with red := { s.red with outDelta := some (deltaIs next) } }
def lags : State := { ready .standby with red := { (ready .standby).red with lagging := true, lag := 64 } }

theorem witness_checkpoint_sent :
    (Inv (streams 0) ∧ (streams 0).held = false ∧ (deltaIs 0).frames.length = 1 ∧ ckLane (streams 0) 0 = some 0 ∧
      ((deltaIs 0).frames.getD 0 []).length ≤ ckBudget (streams 0) ∧
      (∀ p ∈ (deltaIs 0).words, ((streams 0).ecc.get (p.1 / 2)).toNat < 2 ∧ unitRefused (streams 0) 9 .read (4 * p.1) 4 = false)) ∧
    ((ckLane (streams 1) 1).isSome = true ∧ executing (streams 1) = true) ∧ (Inv lags ∧ lags.held = false ∧ lags.red.lagging = true ∧ 64 ≤ lags.red.lag) ∧
    (Heard true (told 5 1 5 [0, 0, 0, 5, 0, 0, 0, 0, 0]) (tells 5 1 5 [0, 0, 0, 5, 0, 0, 0, 0, 0]) (streams 1)) ∧
    (Heard true (told 5 1 5 [0, 0, 0, 5, 1, 0, 0, 0, 1]) (tells 5 1 5 [0, 0, 0, 5, 1, 0, 0, 0, 1]) (streams 1)) ∧
    Heard true (told 6 1 5 [2]) (tells 6 1 5 [2]) (streams 1) :=
  ⟨⟨inv_b (by decide +kernel), by decide +kernel⟩, by decide +kernel, ⟨inv_b (by decide +kernel), by decide +kernel⟩,
    heard (by decide +kernel) (by decide +kernel), heard (by decide +kernel) (by decide +kernel), heard (by decide +kernel) (by decide +kernel)⟩

/-- CKPT_DATA and CKPT_END of this delta, an IMAGE frame of a container of 3 bytes, and a standby with a delta whose only frame is missing. -/
def ckData : List Byte := [0, 0, 0, 5, 0, 0] ++ beBytes 2 ((deltaIs 0).frames.getD 0 []).length ++ (deltaIs 0).frames.getD 0 []
def ckEnd : List Byte := [0, 0, 0, 5, 0, 0, 0, 1] ++ beBytes 4 (deltaIs 0).bytes ++ beBytes 4 (deltaIs 0).crc.toNat ++
  [0, 0, 0, 5, 0, 0, 0, 2, 0, 0, 0, 1, 0, 0, 0, 0] ++ [0]
def stands (d : Option DeltaIn) : State := let s := tied (ready .standby); { s with red := { s.red with inDelta := d } }

/-- The delta in staging: with its frame and not its end, and with its end and not its frame. -/
def staged : DeltaIn := { k := 5, frames := [(0, (deltaIs 0).frames.getD 0 [])] }
def awaits : DeltaIn := { k := 5, ended := true, nFrames := 1, nBytes := 12, last := [5, 2, 1, 0] }

theorem witness_checkpoint_taken :
    (Inv (stands none) ∧ (stands none).held = false ∧ takesCkpt (stands none) = true ∧ (stands none).red.ckAt ≠ some 5) ∧
    Heard true (told 2 1 5 ckData) (tells 2 1 5 ckData) (stands none) ∧ Heard true (told 3 1 5 ckEnd) (tells 3 1 5 ckEnd) (stands (some staged)) ∧
    Heard true (told 10 1 5 [0, 0, 0, 0, 3, 0, 0, 0, 0, 1, 2, 3]) (tells 10 1 5 [0, 0, 0, 0, 3, 0, 0, 0, 0, 1, 2, 3]) (stands none) ∧
    (Inv (stands (some awaits)) ∧ awaits.missing = [0]) :=
  ⟨⟨inv_b (by decide +kernel), by decide +kernel⟩, heard (by decide +kernel) (by decide +kernel), heard (by decide +kernel) (by decide +kernel),
    heard (by decide +kernel) (by decide +kernel), inv_b (by decide +kernel), by decide +kernel⟩

/-- A ready standby without a Tether that has counted three silent cycles, one that is not ready, and a module that listens after START. -/
def silent (m : Mode) (ready' : Bool) : State := let s := ready m; { s with red := { s.red with silence := 3, ready := ready', ckAt := some 4 } }
def listens (saw : Bool) : State := let s := ready .hold; { s with red := { s.red with listen := some 750000, listenAt := some 0, sawExec := saw } }
def alone : State := { ready .active with red := { (ready .active).red with isolation := 4 } }

/-- A standby that is ready with both lanes up and a ring linked. -/
def linked : State :=
  let s := tied (ready .standby)
  { s with
    red := { s.red with ckAt := some 0, ckImage := 7, partner := { s.red.partner with timeOk := true, image := 7 }, readySince := some 0, ready := true }
    fgr := { s.fgr with link := Vector.replicate 12 true } }

/-- A Feger frame of the partner, on port 0 (Table 11.2). -/
def rung (typ owner epoch : Nat) (body : List Byte) : List Byte := fgrFrame { State.reset with strap := true } 0 typ owner epoch 4 0 body
def rings (typ owner epoch : Nat) (body : List Byte) : Machine.Frm :=
  { src := 0x024647000200, typ := typ, owner := owner, epoch := epoch, cycle := 4, flags := 0, body := body }

theorem onRing {typ owner epoch : Nat} {body : List Byte} {s : State}
    (h : parseFgr s true (rung typ owner epoch body) = .good (rings typ owner epoch body)) (k : ringPort s 0 = true ∧ portLink s 0 = true) :
    OnRing 0 true (rung typ owner epoch body) (rings typ owner epoch body) s := ⟨k.1, k.2, h⟩

theorem witness_claims :
    (Inv (silent .standby true) ∧ edgeAt (entry 62500 (silent .standby true)) (t0Of (entry 62500 (silent .standby true)) (fastP (silent .standby true))) = true ∧
      silenceTrigger (silent .standby true) = some 2 ∧ standbyReady (silent .standby true) = true) ∧
    (Inv (silent .standby false) ∧ standbyReady (silent .standby false) = false) ∧ (Inv (silent .detached true) ∧ (silent .detached true).held = false) ∧
    (Inv (listens false) ∧ Inv (listens true) ∧ (listens true).held = false ∧ ∀ saw ∈ [true, false], (listens saw).mode = .hold ∧
      (listens saw).red.sawExec = saw ∧ listenOver (entry 187500 (listens saw)) = true ∧ listenOver (entry 187499 (listens saw)) = false) ∧ (Inv alone ∧ executing alone = true ∧ alone.isolated = false) ∧
    (Inv linked ∧ linked.held = false ∧ standbyReady linked = true ∧ linked.red.lanes[(0 : Fin 2)].up = true) ∧
    Heard true (told 8 5 4 [1]) (tells 8 5 4 [1]) linked ∧ Heard true (told 7 5 4 [0, 0, 0, 9]) (tells 7 5 4 [0, 0, 0, 9]) alone ∧
    (OnRing 0 true (rung 4 2 5 [1, 0, 0, 0]) (rings 4 2 5 [1, 0, 0, 0]) linked ∧ pairNewer (knownPair linked) (5, 2) = false ∧
      modSrc 0x024647000200 = some (2, 0) ∧ 2 ≠ ownId linked) ∧
    OnRing 0 true (rung 3 2 5 []) (rings 3 2 5 []) linked :=
  ⟨⟨inv_b (by decide +kernel), by decide +kernel⟩, ⟨inv_b (by decide +kernel), by decide +kernel⟩, ⟨inv_b (by decide +kernel), by decide +kernel⟩,
    ⟨inv_b (by decide +kernel), inv_b (by decide +kernel), by decide +kernel⟩, ⟨inv_b (by decide +kernel), by decide +kernel⟩,
    ⟨inv_b (by decide +kernel), by decide +kernel⟩, heard (by decide +kernel) (by decide +kernel), heard (by decide +kernel) (by decide +kernel),
    ⟨onRing (by decide +kernel) (by decide +kernel), by decide +kernel⟩, onRing (by decide +kernel) (by decide +kernel)⟩

/-- A HANDOVER that waits on an active whose partner is ready; a standby to which cycle 3 is proposed, before and after checkpoint 3; an
active that streams; and a standby whose ring holdoff of 60 s has passed. -/
def asks (at' : Option Nat) : State :=
  let s := tied (ready .active)
  { s with sysPend := some { cmd := .handover, masters := [.mc0] }, red := { s.red with partner := { s.red.partner with ready := true, at' := at' } } }
def proposed (ck : Option Nat) : State := { linked with red := { linked.red with ckAt := ck, hand := { st := .proposed, n := 3 } } }
def streaming (attempts : Nat) : State :=
  let s := tied (ready .active)
  { s with red := { s.red with hand := { st := .streaming, n := 3, attempts := attempts, undo := some ⟨s.prog, s.lse, s.cls⟩ } } }
def worse : State :=
  let s := setB (ready .active) Reg.RED_CFG Reg.RED_CFG_ring_handover true
  { s with red := { s.red with ringWorse := 3 } }

theorem witness_handover :
    (Inv worse ∧ flag worse Reg.RED_CFG Reg.RED_CFG_ring_handover = true ∧ worse.sysPend = none) ∧
    (Inv (asks (some 62500)) ∧ partnerReady (entry 62500 (asks (some 62500))) = true ∧ handWaits (asks (some 62500)) = true ∧
      edgeAt (entry 62500 (asks (some 62500))) 250000 = true ∧ partnerReady (entry 62500 (asks none)) = false) ∧
    (Inv (proposed (some 3)) ∧ Inv (proposed none) ∧ handT0 (entry 312499 (proposed (some 3))) = some 1000000 ∧
      1000000 + goDeadline (proposed (some 3)) ≤ now (entry 312499 (proposed (some 3)))) ∧
    (Inv linked ∧ secondary linked = false ∧ 0 < holdoffS linked ∧ holdoffLeft (entry 15000000000 linked) = 0 ∧ linked.red.readySince.isSome = true) ∧
    Heard true (told 9 1 4 [1, 0, 0, 0, 3]) (tells 9 1 4 [1, 0, 0, 0, 3]) linked ∧
    (Inv (streaming 15) ∧ Heard true (told 9 1 4 [2, 0, 0, 0, 3]) (tells 9 1 4 [2, 0, 0, 0, 3]) (streaming 15) ∧
      handT0 (entry 250000 (streaming 15)) = some 1000000) ∧
    Heard true (told 9 1 4 [3, 0, 0, 0, 3]) (tells 9 1 4 [3, 0, 0, 0, 3]) (streaming 14) :=
  ⟨⟨inv_b (by decide +kernel), by decide +kernel⟩, ⟨inv_b (by decide +kernel), by decide +kernel⟩,
    ⟨inv_b (by decide +kernel), inv_b (by decide +kernel), by decide +kernel⟩, ⟨inv_b (by decide +kernel), by decide +kernel⟩,
    heard (by decide +kernel) (by decide +kernel), ⟨inv_b (by decide +kernel), heard (by decide +kernel) (by decide +kernel), by decide +kernel⟩,
    heard (by decide +kernel) (by decide +kernel)⟩

/-! ### Feger rings -/

/-- A module that runs the image, owner, with both ports of ring 0 linked and a downlink set. -/
def ringed (m : Mode) : State := { ready m with owner := true, fgr := { link := Vector.replicate 12 true, haveSet := true } }

/-- A Feger frame with a source address (R281). -/
def framed (src typ : Nat) (body : List Byte) : List Byte :=
  let h := [1, BitVec.ofNat 8 typ, 0, 1] ++ beBytes 4 5 ++ beBytes 4 4 ++ beBytes 2 body.length ++ [0, 0] ++ body
  [0x03, 0x00, 0x00, 0x46, 0x47, 0x00] ++ beBytes 6 src ++ [0x88, 0xB5] ++ h ++ beBytes 4 (crc32c h).toNat

def frames (src typ : Nat) (body : List Byte) : Machine.Frm := { src := src, typ := typ, owner := 1, epoch := 5, cycle := 4, flags := 0, body := body }

theorem inRing {src typ : Nat} {body : List Byte} {s : State}
    (h : parseFgr s true (framed src typ body) = .good (frames src typ body)) (k : ringPort s 0 = true ∧ portLink s 0 = true) :
    OnRing 0 true (framed src typ body) (frames src typ body) s := ⟨k.1, k.2, h⟩

/-- A PTP Sync, and a frame of another EtherType, from the source address of a station. -/
def sync : List Byte := [1, 0x1B, 0x19, 0, 0, 0] ++ beBytes 6 0xA0 ++ [0x88, 0xF7] ++ List.replicate 44 0
def other (t : Nat) : List Byte := List.replicate 6 0xFF ++ beBytes 6 0xA0 ++ beBytes 2 t ++ List.replicate 46 0

/-- The station of the image, in a state. -/
def sta (x : Station) : State := { ringed .active with fgr := { (ringed .active).fgr with sta := [(0, x)] } }

theorem witness_rings_out :
    (Inv (ringed .active) ∧ (ringed .active).held = false ∧ ringPort (ringed .active) 0 = true ∧ ((ringed .active).img.dlFrames 0)[0]?.isSome = true ∧
      sendsDownlink (ringed .active) = true ∧ portLink (ringed .active) 0 = true ∧ portLink (ringed .active) 1 = true) ∧
    ((let s := ringed .active
      modSrc (beNat (slice (framed 0xA0 1 []) 6 6)) = none ∧ etherType (framed 0xA0 1 []) = getF s Reg.FGR_ETYPE Reg.FGR_ETYPE_etype ∧
      modSrc (beNat (slice (framed 0x024647000100 1 []) 6 6)) = some (ownId s, 0) ∧ s.img.role 0 = 1 ∧
      etherType (other 0x8100) = 0x8100 ∧ etherType (other 0x0806) = 0x0806 ∧
      ptpAt s 0 sync = some 14 ∧ tcCode s 0 = 3 ∧ modSrc (beNat (slice sync 6 6)) = none ∧ bit (s.img.ptp 0) 5 = false)) ∧
    ((let s := sta { st := .lost, viaB := true, identAt := some 0 }
      Inv s ∧ s.held = false ∧ s.owner = true ∧ executing s = true ∧ s.img.stas.length = 1 ∧ 0 + 250000000 ≤ (entry 250000000 s).time.c)) :=
  ⟨⟨inv_b (by decide +kernel), by decide +kernel⟩, by decide +kernel, inv_b (by decide +kernel), by decide +kernel⟩

/-- An uplink of the station with its one word, whose first byte arrives 392 ns before the last. -/
def up1 : List Byte := [0, 0x21, 0, 0, 0, 1, 0, 1, 0, 0, 0, 7]

theorem witness_uplinks : (∀ s ∈ [sta {}, sta { st := .missed, src := some 0xA0 }, sta { src := some 0xA1 }], quiet s = true ∧ s.held = false) ∧
    OnRing 0 true (framed 0xA0 2 up1) (frames 0xA0 2 up1) (sta {}) ∧
    (∀ n ∈ [254848, 255098, 255648], (slotsAt (entry n (sta {})) 0 (firstByte (entry n (sta {})) 0 46)).map (·.2) = [(0x21, 0)]) ∧
    (∀ n ∈ [250000, 254847, 255649], slotsAt (entry n (sta {})) 0 (firstByte (entry n (sta {})) 0 46) = []) ∧
    (framed 0xA0 2 up1).length = 46 ∧ ((sta {}).img.sta 0).addr = beNat (slice up1 0 2) ∧
    segsMatch (sta {}).img 0 ((parseUp up1.length (up1.drop 4)).getD []) = true :=
  ⟨by decide +kernel, inRing (by decide +kernel) (by decide +kernel), by decide +kernel⟩

/-- A downlink set header without segments, a ring Cricket, a PARAM response and an IDENTITY answer that matches or not. -/
def crk : List Byte := [3, 3] ++ List.replicate 10 0
def param : List Byte := [0, 0x21, 0, 9, 3] ++ List.replicate 7 0
def ident (vendor : Nat) : List Byte := [0, 0x21, 2, 0] ++ beBytes 4 vendor ++ beBytes 4 0x5678 ++ List.replicate 8 0 ++ beBytes 4 40000 ++ List.replicate 4 0
def asked : State := { ringed .active with fgr := { (ringed .active).fgr with tags := [(0, 0x21, 9)] } }

theorem witness_rings_in : (∀ s ∈ [asked, linked], quiet s = true ∧ s.held = false) ∧
    OnRing 0 true (framed 0x024647000200 1 (List.replicate 32 0)) (frames 0x024647000200 1 (List.replicate 32 0)) linked ∧
    OnRing 0 true (framed 0x024647000200 5 crk) (frames 0x024647000200 5 crk) linked ∧
    OnRing 0 true (framed 0xA0 5 crk) (frames 0xA0 5 crk) linked ∧ OnRing 0 true (framed 0x024647000101 5 crk) (frames 0x024647000101 5 crk) linked ∧
    (pairNewer (knownPair linked) (5, 1) = false ∧ (knownPair linked).1 ≤ 5 ∧ modSrc 0x024647000200 = some (2, 0) ∧ modSrc 0xA0 = none ∧
      modSrc 0x024647000101 = some (ownId linked, otherPort 0)) ∧
    OnRing 0 true (framed 0xA0 6 param) (frames 0xA0 6 param) asked ∧ OnRing 0 true (framed 0xA0 7 (ident 0x1234)) (frames 0xA0 7 (ident 0x1234)) asked ∧
    OnRing 0 true (framed 0xA0 7 (ident 0x1235)) (frames 0xA0 7 (ident 0x1235)) asked ∧
    ((asked.img.staAt 0 0x21).isSome = true ∧ asked.fgr.tags.contains (0, 0x21, 9) = true ∧ asked.fgr.recent = [] ∧
      ∀ l ∈ [framed 0xA0 6 param, framed 0xA0 7 (ident 0x1234)],
        inEvents (entry 255000 asked) 0 0x21 l.length (firstByte (entry 255000 asked) 0 l.length) = true ∧
        inEvents (entry 250000 asked) 0 0x21 l.length (firstByte (entry 250000 asked) 0 l.length) = false) :=
  ⟨by decide +kernel, inRing (by decide +kernel) (by decide +kernel), inRing (by decide +kernel) (by decide +kernel),
    inRing (by decide +kernel) (by decide +kernel), inRing (by decide +kernel) (by decide +kernel), by decide +kernel,
    inRing (by decide +kernel) (by decide +kernel), inRing (by decide +kernel) (by decide +kernel), inRing (by decide +kernel) (by decide +kernel),
    by decide +kernel⟩

/-! ### Time, captures, triggers -/

/-- A module whose clock mode and arm bit are as given. -/
def clocked (v : Nat) : State := setR (up .hold) Reg.TIME_CTRL (BitVec.ofNat 32 v)

theorem witness_time : (∀ v ∈ [0, 1, 3], quiet (clocked v) = true ∧ (clocked v).held = false) ∧
    Granted mc0 .write Reg.TIME_INC_LO (clocked 0) ∧ Granted mc0 .write Reg.TIME_INC_HI (clocked 0) ∧ Granted mc0 .write Reg.TIME_STEP_HI (clocked 0) ∧
    Granted mc0 .write Reg.TIME_STEP_HI (clocked 1) ∧ Granted mc0 .write Reg.TIME_CTRL (clocked 3) :=
  ⟨by decide +kernel, granted (by decide +kernel), granted (by decide +kernel), granted (by decide +kernel), granted (by decide +kernel),
    granted (by decide +kernel)⟩

/-- Capture unit 2 in mode FREE (0) or ARMED (1) on both edges of DI 5, whose newest edge is stamped 1,000 ns. -/
def captures (mode : Nat) (u : CapUnit) : State :=
  let s := setR (setR (setDi (up .active) 5 { lastRise := true }) (Reg.DIO_CH_TS_LO 5) 1000) (Reg.TIME_CAP_CFG 2)
    (Reg.TIME_CAP_CFG_src.mk' 5 ||| Reg.TIME_CAP_CFG_edge.mk' 2 ||| Reg.TIME_CAP_CFG_mode.mk' mode)
  { s with time := { s.time with caps := s.time.caps.set 2 u } }

/-- A module with one transmit timestamp at port 3. -/
def stamped : State := { up .hold with time := { (up .hold).time with txts := (up .hold).time.txts.set 3 [⟨false, 0, 7, 1000⟩] } }

/-- Trigger 4 due at 1 ms, PERIODIC, with a target. -/
def fires (m : Mode) (target : Nat) (late : Bool) : State :=
  let s := setR (setR (up m) (Reg.TTRG_CTL 4) (Reg.TTRG_CTL_timing.mk' 2 ||| Reg.TTRG_CTL_target.mk' target)) (Reg.TTRG_ARG 4) 3
  { s with time := { s.time with trigs := s.time.trigs.set 4 { next := some 1000000, late := late } } }

/-- A DO_PULSE on channel 3 that ends at 1 ms. -/
def pulses : State := settle (setDo (up .active) 3 { pulseEnd := some 1000000 })

theorem witness_captures :
    (quiet stamped = true ∧ Granted mc0 .read (Reg.PTP_TXTS_HI 3) stamped ∧ capture? stamped .mc0 (Reg.PTP_TXTS_HI 3) = none) ∧
    (∀ u ∈ [({ openAt := some 1000, closeAt := 1001 } : CapUnit), { openAt := some 1001, closeAt := 2000 }, { openAt := some 0, closeAt := 1000 },
        { openAt := some 0, closeAt := 2000, took := true }], ∀ mode ∈ [0, 1],
      quiet (captures mode u) = true ∧ capStamp (captures mode u) 2 = some 1000 ∧
        flag (captures mode u) (Reg.TIME_CAP_CFG 2) Reg.TIME_CAP_CFG_mode = (mode == 1)) ∧
    (captures 1 { openAt := some 0, closeAt := 1000 }).time.caps[(2 : Fin 16)].closeAt ≤ now (entry 250 (captures 1 { openAt := some 0, closeAt := 1000 })) ∧
    Granted mc0 .write (Reg.TIME_CAP_CFG 2) (captures 0 {}) ∧
    (∀ target ∈ [1, 2, 3], ∀ late ∈ [true, false], ∀ m ∈ [Mode.active, .hold], quiet (fires m target late) = true ∧
      now (entry 250000 (fires m target late)) = 1000000 ∧ executing (fires m target late) = (m == .active) ∧
      getF (fires m target late) (Reg.TTRG_CTL 4) Reg.TTRG_CTL_target = target ∧ doHeldOff (fires .active target late) 3 = false) ∧
    (Inv pulses ∧ pulses.held = false ∧ pulses.io.dout[(3 : Fin 32)].pulseEnd = some 1000000 ∧ pulses.io.dout[(3 : Fin 32)].stage = true ∧
      now (entry 250000 pulses) = 1000000) :=
  ⟨⟨by decide +kernel, granted (by decide +kernel), by decide +kernel⟩, by decide +kernel, by decide +kernel, granted (by decide +kernel),
    by decide +kernel, inv_settle _, by decide +kernel⟩

/-! ### CAN -/

/-- Channel 3 of an owner in mode CLASSIC at 81.5 µs for 8 bytes (R329), with its bits as given and each buffer's owner from the image. -/
def canIs (x : CanCh) (regs : List (Nat × Word)) : State :=
  let s := setRegs ((Reg.CAN_CFG 3, 1) :: (Reg.CAN_NBT 3, 0x1E3CF800) :: (Reg.CAN_TXB_STAT 3 1, Reg.CAN_TXB_STAT_owner.mk' 1) ::
    (Reg.CAN_TXB_STAT 3 0, Reg.CAN_TXB_STAT_owner.mk' 2) :: (Reg.CAN_TXB_STAT 3 5, 0) :: regs) (ready .active)
  { s with can := s.can.set 3 x }

def canF : CanFrame := { id := 0x101, ide := false, rtr := false, fdf := false, brs := false, esi := false, dlc := 4, data := [1, 2, 3, 4] }

/-- A channel with a frame in buffer b. -/
def buf (b : Fin 32) (x : TxBuf) : CanCh := { st := .errorActive, txb := (Vector.replicate 32 {}).set b { x with frame := some canF } }

/-- Class C: the window of buffer 1 opens now, 1,040 µs, and its frame fits exactly, or not by 1 ns. -/
def window (short : Int) : State := canIs (buf 1 { opensAt := 1040000, bound := 1040000 + canLen (canIs {} []) 3 canF - short }) []

def queued (onBus : Bool) : State := canIs (buf 5 { onBus := onBus, desc := some 0x1000 }) [(Reg.CAN_B_TIME 3, 0x40000)]

theorem witness_can_sent :
    ((Inv (window 0) ∧ Inv (window 1)) ∧ (window 0).held = false ∧ canOwner (window 0) = true ∧ busIdleNow (window 0) 3 = true ∧
      getF (window 0) (Reg.CAN_TXB_STAT (3 : Fin 16) (1 : Fin 32)) Reg.CAN_TXB_STAT_owner = 1 ∧ now (entry 260000 (window 0)) = 1040000 ∧
      1040000 + canLen (window 0) 3 canF = (window 0).can[(3 : Fin 16)].txb[(1 : Fin 32)].bound ∧
      (window 1).can[(3 : Fin 16)].txb[(1 : Fin 32)].bound < 1040000 + canLen (window 1) 3 canF) ∧
    (Inv (queued false) ∧ qTake (canTxQ 3) (queued false) = none ∧ bestQueue (queued false) 3 = some (5, canF) ∧ busIdleNow (queued false) 3 = true ∧
      nextSpan (entry 260000 (queued false)) 3 (queued false).img.msgCls = some 1280000 ∧ 1040000 + canLen (queued false) 3 canF ≤ 1280000) ∧
    (Inv (queued true) ∧ ((List.finRange 32).find? fun d => (queued true).can[(3 : Fin 16)].txb[d].onBus) = some 5) ∧
    (let s := canIs { st := .errorActive } []
     Inv s ∧ (s.img.canRef 3).isSome = true ∧ busIdleNow s 3 = true ∧ s.can[(3 : Fin 16)].txb[(0 : Fin 32)].frame = none ∧ refBlocked (entry 260000 s) 3 = false) ∧
    (let s := canIs { st := .errorActive, refAt := some 1030000 } []
     Inv s ∧ refBlocked (entry 260000 s) 3 = true ∧ refBlocked (entry 260001 s) 3 = false) ∧
    Granted mc0 .write (Reg.CAN_TXB_CANCEL 3) (queued true) ∧ Granted mc0 .write (Reg.CAN_TXB_CANCEL 3) (queued false) :=
  ⟨⟨⟨inv_owner (by decide +kernel), inv_owner (by decide +kernel)⟩, by decide +kernel⟩, ⟨inv_owner (by decide +kernel), by decide +kernel⟩,
    ⟨inv_owner (by decide +kernel), by decide +kernel⟩, ⟨inv_owner (by decide +kernel), by decide +kernel⟩,
    ⟨inv_owner (by decide +kernel), by decide +kernel⟩, granted (by decide +kernel), granted (by decide +kernel)⟩

/-- A channel in a state of Table 13.4, and one that holds a frame of 4 bytes under the receive window, locked or not. -/
def canSt (x : CanState) : State := canIs { st := x } []
def rxw (lock : Option (Master × Nat)) : State :=
  let s := canIs { st := .errorActive, held := [0x1000], lock := lock } [(Reg.CAN_RX_CFG 3, 1)]
  { s with store := stBytes (stBytes s.store 0x1000 (leBytes 4 0x2000)) 0x2000 (leBytes 4 0x102 ++ leBytes 4 0x400) }

theorem witness_can_received :
    (Inv (canSt .errorActive) ∧ (canSt .errorActive).held = false ∧ (canSt .errorActive).mode ≠ .boot ∧ canMode (canSt .errorActive) 3 = 1 ∧
      canOnline (canSt .errorActive) 3 = true ∧ canMonitor (canSt .errorActive) 3 = false ∧
      ((canSt .errorActive).img.canMsgs.map fun m => (m.tx, m.unit, m.id, m.len)) = [(true, 3, 0x101, 4), (false, 3, 0x102, 4)]) ∧
    (Inv (canSt .busOff) ∧ Granted mc0 .write (Reg.CAN_CTRL 3) (canSt .busOff)) ∧ Inv (canSt .recovering) ∧ Inv (canSt .integrating) ∧
    (∀ lock ∈ [none, some (Master.mc0, 10), some (Master.mc1, 10)], calm (rxw lock) = true ∧ canOwner (rxw lock) = true ∧
      flag (rxw lock) (Reg.CAN_RX_CFG (3 : Fin 16)) Reg.CAN_RX_CFG_window = true ∧ rxwLast (rxw lock) 3 = 4 ∧
      capture? (rxw lock) .mc0 (Reg.CAN_RXW 3 0) = none ∧ capture? (rxw lock) .mc0 (Reg.CAN_RXW 3 4) = none) ∧
    (10 + 25000 ≤ (entry 25010 (rxw (some (.mc1, 10)))).time.c ∧ (entry 25009 (rxw (some (.mc1, 10)))).time.c < 10 + 25000) ∧
    Granted mc0 .read (Reg.CAN_RXW 3 0) (rxw none) ∧ Granted mc0 .read (Reg.CAN_RXW 3 4) (rxw (some (.mc0, 10))) :=
  ⟨⟨inv_owner (by decide +kernel), by decide +kernel⟩, ⟨inv_owner (by decide +kernel), granted (by decide +kernel)⟩, inv_owner (by decide +kernel),
    inv_owner (by decide +kernel), by decide +kernel, by decide +kernel, granted (by decide +kernel), granted (by decide +kernel)⟩

/-! ### Digital I/O -/

/-- A DI channel with a filter of 10 µs that has crossed at the raw counter value 997,500. -/
def diWaits (m : Mode) (raw : Bool) : State :=
  setDi (setR (up m) (Reg.DIO_CH_CFG 5) (Reg.DIO_CH_CFG_filter.mk' 2)) 5 { raw := raw, cross := some (1000, 997500) }

/-- A group supply: low samples, good since the raw counter value 0. -/
def grpIs (g : Fin 4) (x : DioGrp) : State := setGrp (up .active) g x

/-- An ACTIVE module with one DO channel as given, and the stages as R349 says. -/
def doIs (x : DoCh) (cfg : Word) : State := settle (setR (setDo (up .active) 3 x) (Reg.DIO_CH_CFG 35) cfg)


theorem witness_input_edges :
    (∀ m ∈ [Mode.active, .hold], ∀ raw ∈ [true, false], quiet (diWaits m raw) = true ∧ (diWaits m raw).held = false ∧
      (diWaits m raw).io.di[(5 : Fin 32)].level = false ∧ executing (diWaits m raw) = (m == .active) ∧
      getF (diWaits m raw) (Reg.DIO_CH_CFG (5 : Fin 32)) Reg.DIO_CH_CFG_filter = 2 ∧ (diWaits m raw).io.grp[diGrp 5].undervolt = false) ∧
    (10000 ≤ 4 * ((entry 1000000 (diWaits .active true)).time.c - 997500) ∧ 4 * ((entry 999999 (diWaits .active true)).time.c - 997500) < 10000) ∧
    (let s := setGrp (up .active) (diGrp 5) { undervolt := true }
     quiet s = true ∧ s.io.di[(5 : Fin 32)].raw = false ∧ s.io.grp[diGrp 5].undervolt = true) ∧
    Inv (doIs { cmd := true, stage := true } 0) := ⟨by decide +kernel, by decide +kernel, by decide +kernel, inv_settle _⟩

/-- Limitation and low current since 0 on a channel that is driven on; read-back since 0 on one that is off; an OVERLOAD off period to 100. -/
def driven (cfg : Nat) : State := doIs { cmd := true, stage := true, limSince := some 0, lowSince := some 0 } (BitVec.ofNat 32 cfg)
def idle : State := doIs { rbOnSince := some 0 } 0
def resting : State := doIs { cmd := true, ovlUntil := some 100 } 0

theorem witness_output_diagnostics : (∀ cfg, Inv (driven cfg)) ∧ Inv idle ∧ Inv resting ∧
    (∀ cfg ∈ [0, 0x100, 0x200], (driven cfg).held = false ∧ (driven cfg).io.dout[(3 : Fin 32)].limSince = some 0 ∧
      (driven cfg).io.dout[(3 : Fin 32)].lowSince = some 0 ∧ (driven cfg).io.grp[doGrp 3].undervolt = false ∧
      flag (driven cfg) (Reg.DIO_CH_CFG (32 + 3)) Reg.DIO_CH_CFG_mode = (cfg == 0x100) ∧
      flag (driven cfg) (Reg.DIO_CH_CFG (32 + 3)) Reg.DIO_CH_CFG_ow_en = (cfg == 0x200) ∧
      flag (driven cfg) (Reg.DIO_CH_CFG (32 + 3)) Reg.DIO_CH_CFG_paralleled = false) ∧
    flag (driven 0x10000) (Reg.DIO_CH_CFG (32 + 3)) Reg.DIO_CH_CFG_paralleled = true ∧
    (idle.io.dout[(3 : Fin 32)].rbOnSince = some 0 ∧ idle.io.dout[(3 : Fin 32)].stage = false) ∧
    (resting.io.dout[(3 : Fin 32)].ovlUntil = some 100 ∧ resting.io.dout[(3 : Fin 32)].cmd = true ∧ resting.io.dout[(3 : Fin 32)].stage = false) :=
  ⟨fun _ => inv_settle _, inv_settle _, inv_settle _, by decide +kernel⟩

theorem witness_groups :
    (∀ x ∈ [({ low19 := 5 } : DioGrp), { low19 := 4 }, { low15 := 5 }, { low15 := 4 }, { undervolt := true, sag := true, goodSince := some 0 },
        { sag := true, goodSince := some 0 }, { highSince := some 0 }, { ovl := true, ovlUntil := 2500000, goodSince := some 0 },
        { latched := true, goodSince := some 0 }, { latched := true }], quiet (grpIs 2 x) = true ∧ (grpIs 2 x).held = false ∧ (grpIs 2 x).io.grp[(2 : Fin 4)] = x) ∧
    (entry 2500000 (grpIs 2 { goodSince := some 0 })).time.c = 2500000 ∧
    Granted mc0 .write (Reg.DIO_GRP_ACK 2) (grpIs 2 { latched := true }) := ⟨by decide +kernel, by decide, granted (by decide +kernel)⟩

/-! ### Current loops and analog inputs -/

/-- A module with an AO unit as given, its stage as R358 says. -/
def aoIs (x : AoCh) : State := settle (setAo (up .active) 2 x)

/-- A module with an AI unit as given in a range. -/
def aiIs (x : AiCh) (range : Nat) : State := setR (setAi (up .active) 2 x) (Reg.AI_CFG 2) (Reg.AI_CFG_range.mk' range ||| Reg.AI_CFG_ow_en.mk' 1)

theorem witness_analog : (∀ x, Inv (aoIs x)) ∧
    (aoIs { shortSince := some 0 }).held = false ∧ aoJudged (entry 25000000 (aoIs { shortSince := some 0 })) 2 = true ∧
    (aoIs { shortSince := some 0 }).io.ao[(2 : Fin 8)].shortSince = some 0 ∧
    aoJudged (entry 2500000 (aoIs { lowSince := some 0 })) 2 = true ∧ (aoIs { lowSince := some 0 }).io.ao[(2 : Fin 8)].lowSince = some 0 ∧
    (aoIs { openLoop := true }).io.ao[(2 : Fin 8)].openLoop = true ∧ aoJudged (entry 24999999 (aoIs { parEnd := some 0 })) 2 = false ∧
    (aoIs { parEnd := some 0 }).io.ao[(2 : Fin 8)].parEnd = some 0 ∧ (aoIs { isoLost := true }).io.ao[(2 : Fin 8)].isoLost = true ∧
    (∀ range ∈ [0, 1, 2, 3], ∀ x ∈ [({ conv := some 1000000, startC := some 0 } : AiCh), { shunt := true, shuntAt := 0 }, {}],
      quiet (aiIs x range) = true ∧ (aiIs x range).io.ai[(2 : Fin 8)] = x ∧ getF (aiIs x range) (Reg.AI_CFG (2 : Fin 8)) Reg.AI_CFG_range = range) ∧
    (entry 500 (aiIs {} 0)).time.c = 500 ∧ (entry 250000000 (aiIs {} 2)).time.c = 250000000 := ⟨fun _ => inv_settle _, by decide +kernel⟩

/-! ### Clocks and power -/

/-- A module with rack lanes in given states and A selected, and a switch that waits. -/
def lanes (a b : RefState) (p : Option (Bool × Bool)) (h : Option Nat) : State :=
  { up .hold with clk := { a := { st := a, run := 2, goodWin := 15 }, b := { st := b, run := 2, goodWin := 15 }, pendSel := p, holdAt := h } }

theorem witness_rack_lanes : ∀ a b p h, Inv (lanes a b p h) ∧ (lanes a b p h).held = false :=
  fun _ _ _ _ => ⟨inv_io rfl rfl rfl rfl rfl rfl, rfl⟩

/-- A ramp of CORE from 6 to a goal, with the other dividers at their goals. -/
def ramping (goal : Nat) : State :=
  { setR (up .hold) Reg.CLK_DIV (Reg.CLK_DIV_core.put 0x28030505 goal) with clk := { (up .hold).clk with divCore := 6, ramping := true } }

/-- A close of the gates of CAN channel 15 and of its parent that waits since 0. -/
def closes (l : List Nat) : State := { up .hold with clk := { (up .hold).clk with req := some { m := .mc0, gate := 6, todo := 55 :: l, startC := 0 } } }

/-- A module that runs the image, with the gates of parents 4 and 6 closed. -/
def gated : State := { ready .hold with clk := { (ready .hold).clk with gates := 0x00FFFF3F3FFF00AF } }

theorem witness_clocks :
    (∀ goal ∈ [5, 7, 8], quiet (ramping goal) = true ∧ (ramping goal).held = false) ∧
    (let k := setDiv (ramping 7).clk .core 7
     divSettled (ramping 7) k = true ∧ ¬((k.divStore = k.divCore ∨ k.divCore = 2 * k.divStore) ∧ 4 * k.divCore ≤ k.divIo ∧ 3 * k.divMgmt ≤ 2 * k.divCore)) ∧
    (let k := setDiv (ramping 5).clk .core 5
     divSettled (ramping 5) k = true ∧ k.divStore = k.divCore ∧ 4 * k.divCore ≤ k.divIo ∧ 3 * k.divMgmt ≤ 2 * k.divCore) ∧
    (quiet gated = true ∧ gateExists 15 = false ∧ gateExists 16 = true ∧ gateParent 16 = some 4 ∧ gated.clk.gates.getLsbD 4 = false ∧
      gateUsed gated 16 = true ∧ gateUsed (ready .hold) 6 = false ∧ (openChildren (ready .hold) 6).find? (gateUsed (ready .hold)) = some 43 ∧
      gateUsed gated 55 = false ∧ openChildren gated 55 = [] ∧ gated.clk.gates.getLsbD 55 = true) ∧
    Granted mc0 .write Reg.CLK_GATE_CMD gated ∧ Granted mc0 .write Reg.CLK_GATE_CMD (ready .hold) ∧ Granted mc0 .write Reg.CLK_GATE_CMD (closes []) ∧
    (quiet (closes []) = true ∧ quiet (closes [6]) = true ∧ (entry (gateWait 55) (closes [])).time.c = 0 + gateWait 55) :=
  ⟨by decide +kernel, by decide +kernel, by decide +kernel, by decide +kernel, granted (by decide +kernel), granted (by decide +kernel),
    granted (by decide +kernel), by decide +kernel⟩

/-- A module with its supply state, the reset record of Ballast, and PLL0 in holdover since 0 or not. -/
def supplied (p : Power) (held : Bool) (hold : Option Nat) : State :=
  { up .hold with held := held, pwr := p, clk := { (up .hold).clk with holdAt := hold } }

theorem witness_power : (∀ p held h, Inv (supplied p held h) ∧ (supplied p held h).held = held ∧ (supplied p held h).pwr = p ∧
      (supplied p held h).clk.holdAt = h ∧ (supplied p held h).bal.cause ≠ 3 ∧ (supplied p held h).bal.also ≠ 3) ∧
    (let s := supplied {} false none
     getF s Reg.PWR_CFG Reg.PWR_CFG_ride_us = 8000 ∧ getF s Reg.PWR_BANK Reg.PWR_BANK_bank ≤ 12000) ∧
    (let s := setF (supplied { st := .holdup } false none) Reg.PWR_BANK Reg.PWR_BANK_bank 12001
     quiet s = true ∧ 12000 < getF s Reg.PWR_BANK Reg.PWR_BANK_bank) :=
  ⟨fun _ _ _ => ⟨inv_io rfl rfl rfl rfl rfl rfl, rfl, rfl, rfl, (by decide : (0 : Nat) ≠ 3), (by decide : (0 : Nat) ≠ 3)⟩,
    by decide +kernel, by decide +kernel⟩

/-! ### Time of day and the recorder -/

/-- A module at a calendar instant, or with a set that waits. -/
def dated (c : Cal) (p : Option Cal) (opS : Nat) (st : PowerState) : State :=
  { up .hold with rtc := { (up .hold).rtc with cal := c, pendSet := p, opS := opS }, pwr := { st := st } }

/-- The last second of a leap year's February, and of the 400-year calendar (R383). -/
def leap : Cal := { year := 100, month := 2, day := 28, hour := 23, min := 59, sec := 59 }
def last : Cal := { year := 399, month := 12, day := 31, hour := 23, min := 59, sec := 59 }

theorem witness_rtc :
    (∀ c p opS st, Inv (dated c p opS st)) ∧
    (leap.valid = true ∧ last.valid = true ∧ 86400 * dayNumber last + 3600 * last.hour + 60 * last.min + last.sec + 1 = 86400 * 146097) ∧
    Granted mc0 .write Reg.RTC_SET_TIME (up .hold) ∧ Granted mc0 .write (Reg.RTC_ALM_DATE 1) (up .hold) ∧
    (let s := bootMod (fun b => { b with states := 4 }) (up .hold)
     quiet s = true ∧ s.held = false ∧ (bootRec s).unconfirmed = true ∧ (bootRec (up .hold)).unconfirmed = false) :=
  ⟨fun _ _ _ _ => inv_io rfl rfl rfl rfl rfl rfl, by decide +kernel, granted (by decide +kernel), granted (by decide +kernel),
    by decide +kernel⟩

/-- A module whose recorder is as given. -/
def records (r : Recorder) (m : Mode) : State := { up m with rcd := r }

/-- A store whose 1,024 records hold code 1 with severity 3. -/
def full : SMap 8 := (List.range 1024).foldl (fun (m : SMap 8) i => (m.put (recAddr i) 1).put (recAddr i + 2) 3) SMap.empty

theorem full_at (i : Nat) : ∀ (l : List Nat) (m : SMap 8), i ∈ l ∨ (m.get (recAddr i) = 1 ∧ m.get (recAddr i + 2) = 3) →
    let r := l.foldl (fun (m : SMap 8) i => (m.put (recAddr i) 1).put (recAddr i + 2) 3) m
    r.get (recAddr i) = 1 ∧ r.get (recAddr i + 2) = 3
  | [], m, h => by simpa using h
  | j :: l, m, h => by
    refine full_at i l _ ?_
    by_cases e : i = j
    · subst e
      exact .inr ⟨by rw [SMap.get_put_ne _ _ (by omega), SMap.get_put_self], SMap.get_put_self ..⟩
    · rcases h with h | h
      · exact .inl (by simpa [e] using h)
      · have n : ∀ a ∈ [recAddr i, recAddr i + 2], recAddr j ≠ a ∧ recAddr j + 2 ≠ a := by
          simp only [List.mem_cons, List.not_mem_nil, or_false, forall_eq_or_imp, forall_eq, recAddr]
          omega
        have n1 := n (recAddr i) (by simp)
        have n2 := n (recAddr i + 2) (by simp)
        exact .inr ⟨by rw [SMap.get_put_ne _ _ n1.2, SMap.get_put_ne _ _ n1.1, h.1], by rw [SMap.get_put_ne _ _ n2.2, SMap.get_put_ne _ _ n2.1, h.2]⟩

theorem full_odd (i : Nat) : ∀ (l : List Nat) (m : SMap 8),
    (l.foldl (fun (m : SMap 8) i => (m.put (recAddr i) 1).put (recAddr i + 2) 3) m).get (recAddr i + 1) = m.get (recAddr i + 1)
  | [], _ => rfl
  | j :: l, m => by
    rw [List.foldl_cons, full_odd i l, SMap.get_put_ne _ _ (by simp only [recAddr]; omega), SMap.get_put_ne _ _ (by simp only [recAddr]; omega)]

def fullState : State := { records { queue := [.event 2 0 2] } .hold with store := full }

theorem full_code {i : Nat} (h : i < 1024) : recCode fullState i = 1 := by
  have a : full.get (recAddr i) = 1 := (full_at i _ _ (.inl (by simpa using h))).1
  have b : full.get (recAddr i + 1) = 0 := by rw [full, full_odd]; simp
  simp [recCode, fullState, ld, ldBytes, SMap.getList, leNat, List.range_succ, a, b]

theorem full_sev {i : Nat} (h : i < 1024) : recSev fullState i = 3 := by
  have a : full.get (recAddr i + 2) = 3 := (full_at i _ _ (.inl (by simpa using h))).2
  simp [recSev, fullState, ld, ldBytes, SMap.getList, leNat, List.range_succ, a]


theorem full_find (c : Nat) (h : c ≠ 1) (p : Nat → Bool) : (List.range 1024).find? (fun i => recCode fullState i == c && p i) = none := by
  rw [List.find?_eq_none]
  intro i hi
  simp [full_code (List.mem_range.1 hi), h.symm]

theorem victim_in (s : State) : recVictim s < 1024 := by
  have v : ∀ (l : List Nat), (∀ i ∈ l, i < 1024) → ∀ b < 1024, l.foldl (fun b i =>
      if decide (recSev s i < recSev s b) || (recSev s i == recSev s b && decide (recLast s i < recLast s b)) then i else b) b < 1024 := by
    intro l
    induction l with
    | nil => exact fun _ _ h => h
    | cons i l ih =>
      intro hl b hb
      rw [List.foldl_cons]
      refine ih (fun j hj => hl j (by simp [hj])) _ ?_
      split
      · exact hl i (by simp)
      · exact hb
  exact v (List.range 1024) (fun i hi => List.mem_range.1 hi) 0 (by omega)

theorem slot_none {s : State} (h : recSev s (recVictim s) = 3) (f : (List.range 1024).find? (fun i => recCode s i == 0) = none) :
    recSlot s 2 = none := by
  unfold recSlot
  rw [f]
  simp [h]

theorem full_refuses : recFind fullState 2 0 = none ∧ recSlot fullState 2 = none := by
  refine ⟨by unfold recFind; exact full_find 2 (by omega) _, slot_none (full_sev (victim_in _)) ?_⟩
  simpa only [Bool.and_true] using full_find 0 (by omega) (fun _ => true)

theorem witness_recorder :
    (∀ r m, Inv (records r m) ∧ (records r m).held = false ∧ (records r m).rcd = r ∧ (records r m).mode = m) ∧
    (recFind (records {} .hold) 2 0 = none ∧ recSlot (records {} .hold) 2 = some 0) ∧
    (let s := { records { queue := [.event 2 0 2] } .hold with store := st SMap.empty (recAddr 1023) 2 2 }
     recFind s 2 0 = some 1023) ∧
    (recFind fullState 2 0 = none ∧ recSlot fullState 2 = none) ∧
    Granted mc0 .write Reg.REC_FEED (setR (up .hold) (Reg.REC_H_CFG 5) (Reg.REC_H_CFG_src.mk' 0x7F)) ∧
    getF (setR (up .hold) (Reg.REC_H_CFG 5) (Reg.REC_H_CFG_src.mk' 0x7F)) (Reg.REC_H_CFG 5) Reg.REC_H_CFG_src = 0x7F ∧
    Granted mc0 .write Reg.REC_CMD (up .hold) ∧ Granted mc0 .write Reg.REC_CMD (up .service) ∧ Granted mc0 .write Reg.REC_CMD (up .boot) :=
  ⟨fun _ _ => ⟨inv_io rfl rfl rfl rfl rfl rfl, rfl, rfl, rfl⟩, by decide +kernel, by decide +kernel, full_refuses, granted (by decide +kernel), by decide +kernel, granted (by decide +kernel),
    granted (by decide +kernel), granted (by decide +kernel)⟩

/-! ### Access rules, security, debug -/

/-- A module in a state with fuses as given, an image key in slot 0 or none, a debug unit, and masters that wait for a rule epoch. -/
def secured (m : Mode) (f0 f1 : Nat) (key : Bool) (d : Debug) : State :=
  let s := setR (up m) (Reg.SEC_KEY_CTL 0) (Reg.SEC_KEY_CTL_valid.mk' (b2n key))
  { s with art := { fuse0 := BitVec.ofNat 32 f0, fuse1 := BitVec.ofNat 32 f1, draining := key, waiting := [.mc1] }, dbg := d }

/-- OPEN, SEALED, RMA, and SEALED in one copy only. -/
theorem witness_security :
    (∀ m ∈ [Mode.hold, .service, .active], ∀ f ∈ [(0, 0, true), (0xFFFF, 0xFFFF, true), (0xFFFFFFFF, 0xFFFFFFFF, false), (0, 1, false)],
      quiet (secured m f.1 f.2.1 f.2.2 {}) = true ∧ (secured m f.1 f.2.1 f.2.2 {}).held = false) ∧
    (keyUsable (secured .hold 0 0 true {}) 0 0 = true ∧ (∀ i < 8, keyUsable (secured .hold 0 0 false {}) i 0 = false) ∧
      secState (secured .hold 0 0 true {}) = 0 ∧ secState (secured .hold 0xFFFF 0xFFFF true {}) = 1 ∧ secState (secured .hold 0 1 true {}) = 1 ∧
      secState (secured .hold 0xFFFFFFFF 0 true {}) = 2) ∧
    Granted mc0 .write Reg.SEC_CMD (secured .hold 0 0 true {}) ∧ Granted mc0 .write Reg.SEC_CMD (secured .service 0 1 false {}) ∧
    Granted mc0 .write Reg.SEC_CMD (secured .active 0xFFFF 0xFFFF true {}) ∧ Granted mc0 .write (Reg.SEC_KEY_CTL 0) (secured .hold 0 0 true {}) ∧
    (let s := secured .service 0xFFFF 0xFFFF true { st := 2, openedBy := 8 }
     quiet s = true ∧ Granted dbg .write Reg.SEC_CMD s) :=
  ⟨by decide +kernel, by decide +kernel, granted (by decide +kernel), granted (by decide +kernel), granted (by decide +kernel), granted (by decide +kernel),
    by decide +kernel, granted (by decide +kernel)⟩

/-- TEST 1 of RFC 8032, 7.1: the signature of the empty message, which is not that of another. -/
theorem test_ed25519 :
    let key := beBytes 32 0xd75a980182b10ab7d54bfed3c964073a0ee172f3daa62325af021a68f707511a
    let sig := beBytes 64 (0xe5564300c360ac729086e2cc806e828a84877f1eb8e5d974d873e06522490155 * 2 ^ 256 +
      0x5fb8821590a33bacc61e39701cf9b46bd25bf5f0595bbe24655141438e7a100b)
    ed25519 key [] sig = true ∧ ed25519 key [0] sig = false := by decide +kernel

/-- Closed, locked since 0, challenged at 0 with 2 failures, verifying, and opened. Whether a signature fits is open: the nonce that it signs is a free value. -/
theorem witness_debug_port :
    (∀ d ∈ [({} : Debug), { lockAt := some 0 }, { st := 1, nonceAt := some 0, fails := 2 }, { st := 1, nonceAt := some 0, verifying := true }, { st := 2 }],
      ∀ f ∈ [0, 0xFFFF], ∀ m ∈ [Mode.hold, .active], quiet (secured m f f true d) = true ∧ (secured m f f true d).held = false ∧
        (secured m f f true d).dbg = d ∧ secState (secured m f f true d) = (if f = 0 then 0 else 1) ∧
        (artCheck .debug .machine .write Reg.DBG_CTRL 4 (secured m f f true d)).2 = none ∧ regClocked (secured m f f true d) Reg.DBG_CTRL = true) ∧
    Granted dbg .write (Reg.DBG_RESP 15) (secured .hold 0 0 true { st := 1 }) ∧ Granted dbg .write Reg.DBG_CMD (secured .hold 0 0 true { st := 2 }) ∧
    Granted dbg .write Reg.DBG_CMD (secured .active 0 0 true { st := 2 }) ∧ Granted dbg .write Reg.DBG_CMD (secured .hold 0xFFFF 0xFFFF true { st := 2 }) ∧
    ((entry 2500000000 (up .hold)).time.c = 2500000000 ∧ (entry 2499999999 (up .hold)).time.c < 0 + 2500000000 ∧
      (entry 15000000000 (up .hold)).time.c = 15000000000) :=
  ⟨by decide +kernel, granted (by decide +kernel), granted (by decide +kernel), granted (by decide +kernel), granted (by decide +kernel), by decide +kernel⟩

/-- A read of SYS_ID by DACC answers data, and one of no register an error; boundary scan is allowed in SERVICE with the port opened. -/
theorem witness_test_access_port :
    (let s := secured .hold 0 0 true { st := 2 }
     (busRead .debug .machine .read Reg.SYS_ID 4 (entry 5 s)).2 = .data 0x08804101 ∧ (busRead .debug .machine .read 0x7FFF0000 4 (entry 5 s)).2 = .busError) ∧
    (let s := secured .service 0 0 true { st := 2 }
     quiet s = true ∧ s.held = false ∧ s.pwr.st = .main ∧ s.dbg.st = 2 ∧ s.mode = .service) := by decide +kernel

/-! ### Service port, update, self-test -/

/-- A service request with its check value (R423), as a datagram. -/
def request (typ session seq : Nat) (body : List Byte) : Datagram :=
  let l := [1, BitVec.ofNat 8 typ, 0, 0] ++ beBytes 4 session ++ beBytes 4 seq ++ beBytes 2 body.length ++ [0, 0] ++ body
  { ip := 0xC0A80105, port := 40000, dport := 4880, fragment := false, payload := l ++ beBytes 4 (crc32c l).toNat }

/-- A module whose service port is up, with a session of client 192.168.1.5 since 0, or none. -/
def serves (proven : Bool) (last : Option (Word × List Byte)) (lockAt : Option Nat) : State :=
  { up .hold with svc := { link := true, addrOk := true, fails := 2, lockAt := lockAt, session := some { id := 9, ip := 0xC0A80105, nonce := [], proven := proven,
                                                                                                          lastC := 0, last := last } } }
def waits : State := { up .hold with svc := { link := true, addrOk := true } }

/-- A PROVE with its check value, computed in two halves. -/
def proving : List Byte := [1, 2, 0, 0] ++ beBytes 4 9 ++ beBytes 4 4 ++ beBytes 2 64 ++ [0, 0] ++ List.replicate 64 0
def prove : Datagram := { ip := 0xC0A80105, port := 40000, dport := 4880, fragment := false, payload := proving ++ beBytes 4 261263589 }

theorem crc_halves {l : List Byte} {x y : Word} (h : (l.take 40).foldl crcByte 0xFFFFFFFF = x) (k : (l.drop 40).foldl crcByte x = y) :
    crc32c l = ~~~y := by
  rw [crc32c, ← List.take_append_drop 40 l, List.foldl_append, h, k]

theorem prove_kept : svcDiscard prove = false := by
  have c : crc32c proving = ~~~4033703706 := crc_halves (x := 2735337472) (by decide +kernel) (by decide +kernel)
  have t : prove.payload.take (prove.payload.length - 4) = proving := by decide +kernel
  simp only [svcDiscard, t, c]
  decide +kernel

/-- Well-formed requests of each type; a request again; one of another client, of another session, and of another port. -/
theorem witness_service_port :
    (∀ p l k, Inv (serves p l k) ∧ (serves p l k).held = false ∧ (serves p l k).svc.link = true ∧ (serves p l k).svc.addrOk = true ∧
      (serves p l k).svc.lockAt = k) ∧ (Inv waits ∧ waits.svc.session = none) ∧
    (∀ d ∈ [request 1 0 4 [], request 3 9 4 [], request 0x10 9 4 ([0, 0, 0, 0, 0, 1, 0, 0]),
        request 0x11 9 4 ([0, 0, 0, 0, 0, 1, 0, 0, 0, 0, 0, 7]), request 0x20 9 4 [0, 0, 0, 0], request 0x30 9 4 [0, 0, 0, 0, 0, 0, 7]],
      svcDiscard d = false ∧ svcStored (serves true none none) d (svcMsg d.payload) = none ∧ svcForm (svcMsg d.payload) = true) ∧
    (svcDiscard prove = false ∧ svcStored (serves false none none) prove (svcMsg prove.payload) = none ∧ svcForm (svcMsg prove.payload) = true) ∧
    (svcMsg (request 3 9 4 []).payload).session = 9 ∧ svcProof (serves false none none) ⟨9, 0, [], false, 0, none⟩ (List.replicate 64 0) = false ∧
    svcStored (serves true (some (4, [1])) none) (request 3 9 4 []) (svcMsg (request 3 9 4 []).payload) = some [1] ∧
    svcDiscard { request 3 9 4 [] with dport := 4881 } = true ∧ svcForm (svcMsg (request 0x30 9 4 [0, 0, 0, 0, 0, 0]).payload) = false ∧
    (0 + 7500000000 ≤ (entry 7500000000 waits).time.c ∧ (entry 7499999999 waits).time.c < 0 + 7500000000) :=
  ⟨fun _ _ _ => ⟨inv_io rfl rfl rfl rfl rfl rfl, rfl, rfl, rfl, rfl⟩, ⟨inv_io rfl rfl rfl rfl rfl rfl, rfl⟩, by decide +kernel, ⟨prove_kept, by decide +kernel⟩,
    by decide +kernel⟩

/-- A module with a boot record, and a VERIFY that runs. -/
def boots (m : Mode) (r : BootRecord) (v : Option (Master × Fin 4)) : State :=
  bootMod (fun _ => r) { up m with upd := { verifying := v } }

/-- Slot SI-B (3) DOWNLOADED, VERIFIED, and FW-B (1) VERIFIED; the boot firmware UNCONFIRMED at its third attempt. -/
theorem witness_packages :
    (∀ m ∈ [Mode.boot, .hold, .active], ∀ r ∈ [({ states := 0x5005 } : BootRecord), { states := 0x2005 }, { states := 0x3005 }, { states := 0x35 },
        { states := 4, attempts := 3 }, { states := 4, attempts := 2 }], ∀ v ∈ [none, some (Master.mc0, (3 : Fin 4))],
      (boots m r v).held = false ∧ (boots m r v).upd.verifying = v ∧ (boots m r v).mode = m) ∧
    (∀ m r v, Inv (boots m r v)) ∧
    (slotFor (boots .hold { states := 0x5005 } none) (· == 2) = none ∧ slotFor (boots .hold { states := 0x2005 } none) (· == 2) = some 3 ∧
      slotFor (boots .hold { states := 0x3005 } none) (· == 3) = some 3 ∧ slotFor (boots .hold { states := 0x35 } none) (· == 3) = some 1 ∧
      slotFor (boots .hold {} none) (· == 3) = none ∧ slotFor (boots .hold { states := 0x2005 } none) (fun v => v == 1 || v == 2 || v == 3) = some 3) ∧
    ((bootRec (boots .hold { states := 4, attempts := 2 } none)).unconfirmed = true ∧ fallbackDue (boots .hold { states := 4, attempts := 2 } none) = false ∧
      fallbackDue (boots .hold { states := 4, attempts := 3 } none) = true ∧ (bootRec (boots .hold {} none)).unconfirmed = false) ∧
    (∀ m ∈ [Mode.boot, .hold, .active], (artCheck .mc0 .machine .write Reg.UPD_CMD 4 (boots m {} none)).2 = none ∧
      regClocked (boots m {} none) Reg.UPD_CMD = true) :=
  ⟨by decide +kernel, fun _ _ _ => inv_io rfl rfl rfl rfl rfl rfl, by decide +kernel⟩

/-- A module with a good reference at 152,588 counts, a CORE supply and a run. -/
def tests (m : Mode) (mV : Nat) (b : Option Scarab) : State :=
  { setF (up m) Reg.PWR_CORE Reg.PWR_CORE_vcore mV with clk := { (up m).clk with a := { st := .good, count := 152588 } }, bist := b }

theorem witness_scarab :
    (∀ x ∈ [(Mode.hold, 800, none), (.standby, 800, none), (.safe, 800, none), (.service, 800, some { test := 1, later := [] }),
        (.active, 800, none), (.hold, 779, none), (.hold, 821, none), (.hold, 800, some { test := 4, later := [5, 6] })],
      let s := tests x.1 x.2.1 x.2.2
      quiet s = true ∧ s.held = false ∧ s.bist = x.2.2 ∧ (artCheck .mc0 .machine .write Reg.BIST_CMD 4 s).2 = none ∧ regClocked s Reg.BIST_CMD = true) ∧
    (let s := tests .hold 800 none
     ¬((refLane s.clk s.clk.selB).st ≠ .good ∨ 100 < (sgn 16 (Reg.CLK_REF_PPM_ppm.get (refPpm s))).natAbs) ∧
       ¬(getF s Reg.PWR_CORE Reg.PWR_CORE_vcore < 780 ∨ 820 < getF s Reg.PWR_CORE Reg.PWR_CORE_vcore) ∧ ¬105 ≤ sgn 16 (getF s Reg.PWR_CORE Reg.PWR_CORE_tj)) ∧
    (let s := tests .hold 779 none
     getF s Reg.PWR_CORE Reg.PWR_CORE_vcore < 780) := by decide +kernel

/-! ### Commands that cannot be formed: one for each check -/

theorem test_wf_privilege : (Instr.sysStart ⟨0, .service, .user⟩).wf = false ∧ (Instr.sysStart ⟨0, .service, .machine⟩).wf = true := by decide
theorem test_wf_width : (Instr.registerWrite mc0 0 ⟨3, false⟩ 0).wf = false ∧ (Instr.registerWrite mc0 0 ⟨8, false⟩ 0).wf = true := by decide
/-- An atomic access of one byte, or by a unit that is no Management Core. -/
theorem test_wf_atomic : (Instr.registerWrite mc0 0 ⟨1, true⟩ 0).wf = false ∧ (Instr.registerWrite dbg 0 ⟨4, true⟩ 0).wf = false ∧
    (Instr.registerWrite mc0 0 ⟨4, true⟩ 0).wf = true := by decide
theorem test_wf_alignment : (Instr.loHiCaptureRead mc0 6).wf = false ∧ (Instr.ctuStagingWrite mc0 6 0).wf = false ∧ (Instr.bcastAliasRead mc0 6).wf = false ∧
    (Instr.bcastAliasWrite mc0 5 0).wf = false ∧ (Instr.loHiCaptureRead mc0 8).wf = true := by decide
theorem test_wf_frame : (Instr.cricketReceive 0 0 true (List.replicate 13 0)).wf = false ∧ (Instr.cricketReceive 0 0 true (List.replicate 14 0)).wf = true := by
  decide
theorem test_wf_upset : (Instr.waveEvaluate 0 .fast [{ kind := .value, source := .output, ref := 65536, unit := 0, bits := 0 }]).wf = false ∧ (Instr.waveEvaluate 0 .fast [{ kind := .value, source := .output, ref := 65535, unit := 0, bits := 0 }]).wf = true := by decide
theorem test_wf_block : (Instr.compareTimeout 0 .fast 0 ⟨.output, 65536, 0, false⟩).wf = false ∧ (Instr.compareTimeout 0 .fast 0 ⟨.output, 65535, 0, false⟩).wf = true := by decide

/-- An 11-bit identifier above 0x7FF, a remote FD frame, brs and esi without FD, and a payload that is not the DLC's. -/
theorem test_wf_can_frame :
    (∀ f ∈ [({ canF with id := 0x800 } : CanFrame), { canF with rtr := true, fdf := true, data := [] }, { canF with brs := true }, { canF with esi := true },
      { canF with dlc := 5 }], (Instr.canFrameReceive 0 0 0 f).wf = false) ∧ (Instr.canFrameReceive 0 0 0 canF).wf = true := by decide +kernel

theorem test_wf_scan : (Instr.samplePreload 0 [true] []).wf = false ∧ (Instr.samplePreload 0 [true] [false]).wf = true := by decide

/-- A payload longer than one IPv4 packet holds. -/
theorem test_wf_datagram : ∀ d : Datagram, d.payload.length = 65508 → (Instr.svcOpen 0 d).wf = false := by
  intro d h
  simp [Instr.wf, Datagram.wf, h]

theorem test_wf_echo : ∀ l : List Byte, l.length = 65508 → (Instr.svcIcmpEcho 0 0 l).wf = false := by
  intro l h
  simp [Instr.wf, h]

/-! ### The spec's worked examples -/

/-- "the CRC-32C of the nine ASCII bytes "123456789" is 0xE306_9283" (chapter 0). -/
theorem test_crc : crc32c [0x31, 0x32, 0x33, 0x34, 0x35, 0x36, 0x37, 0x38, 0x39] = 0xE3069283 := by decide +kernel

/-- "DO channel 5 on X32 is DIO channel 36. Port P11 is Feger port 10. Its registers start at … 0x0020_A000" (chapter 0). -/
theorem test_port_registers : Reg.FGR_P_STATUS 10 = 0x0020A000 := by decide

/-- Table 4.14: the Block Table entry of a SCALE. -/
def scale : BlkEnt := blkEnt (leNat [0x1F, 0, 4, 0, 0x06, 0x10, 0, 0, 0, 2, 1, 0, 2, 0, 0, 0, 0x08, 0x10, 2, 0, 0, 0, 0, 0, 0x40, 0x1A, 0, 0, 0x07, 0x0C, 0x31, 0x5A])

theorem test_scale_entry :
    [scale.typ, scale.cls, scale.t, scale.param, scale.uid, refIdx scale.out0, scale.state] = [0x1F, 0, 4, 6720, 0x5A310C07, 4104, 0] ∧ scale.wrap = false ∧
      scale.ins.map refIdx = [4102, 0, 1, 0] ∧ scale.ins.map refConst = [false, true, true, false] := by decide +kernel

/-- Table 5.7: the step "splice armed". -/
theorem test_step_record : stepRec (leNat [0x00, 0x50, 0, 0x0A, 0x50, 0, 3, 0, 0, 0, 0x16, 0x50, 2, 1, 4, 0]) =
    { ta := 20480, tb := 20490, na := 3, nb := 0, act := 0x25016, tbEn := true, final := false, tmin := 4 } ∧ refIdx 0x25016 = 20502 := by decide +kernel

/-- "The entry's bytes are 0x00, 0x78, 0x00, 0x00, 0x53, 0x00, 0x02, 0x08" (chapter 6). -/
theorem test_smt_entry : smtEnt (leNat [0, 0x78, 0, 0, 0x53, 0, 2, 8]) =
    { sig := 30720, out := false, kind := 0, opt := 0, unit := 83, offset := 2, cnt := 3 } := by decide +kernel

/-- "The message takes 33 × 1 µs + 194 × 250 ns = 81.5 µs" (chapter 13). -/
theorem test_can_length : frameNs 0x1E3CF800 0x0000CDC0 false true true 16 = 81500 := by decide +kernel

/-- Table 11.11: header and the frame's wire bytes, 110. -/
theorem test_ring_frame : (fgrFrame State.reset 4 1 1 58 1234567 0 (List.replicate 52 0)).take 30 =
    [3, 0, 0, 0x46, 0x47, 2, 2, 0x46, 0x47, 0, 1, 4, 0x88, 0xB5, 1, 1, 2, 1, 0, 0, 0, 0x3A, 0, 0x12, 0xD6, 0x87, 0, 0x34, 0, 0] ∧ fgrWire 52 = 110 := by
  decide +kernel

/-- "It writes 0x00A7_C5AC to TIME_INC_LO and 0x0000_0400 to TIME_INC_HI": inc = 4,398,057,506,220 (chapter 12). -/
theorem test_rate : ∃ t, exec (.timeRateChange mc0 0x400) (setR (up .hold) Reg.TIME_INC_LO 0x00A7C5AC) = .next t ∧ t.time.inc = 4398057506220 :=
  ⟨_, rfl, by decide +kernel⟩

/-- "2100 is not a leap year, so the RTC goes from 23:59:59 to 2100-03-01 00:00:00, Monday", and 2100-02-28 is a Sunday (chapter 16). -/
theorem test_rtc_2100 : ∃ t, exec (.rtcSecond 0) (dated leap none 0 .main) = .next t ∧ t.rtc.cal = { year := 100, month := 3, day := 1 } ∧
    weekday t.rtc.cal = 0 ∧ weekday leap = 6 := ⟨_, rfl, by decide +kernel⟩

/-- "RTC_ALM_DATE_0 = 0x8000_021D (enabled, 29 February). It is accepted with unreach0 at 0. Alarm 1 is written as 0x8000_021E (30 February). It is
accepted with unreach1 set" (chapter 16). -/
theorem test_alarm_29_february : ∃ t, exec (.rtcAlarmWrite mc0 0 0x8000021D) (up .hold) = .next t ∧
    (t.rtc.alarms[(0 : Fin 2)].unreach, t.rtc.alarms[(0 : Fin 2)].date, t.rtc.alarmInvalid) = (false, 0x8000021D, false) := ⟨_, rfl, by decide +kernel⟩
theorem test_alarm_30_february : ∃ t, exec (.rtcAlarmWrite mc0 1 0x8000021E) (up .hold) = .next t ∧
    (t.rtc.alarms[(1 : Fin 2)].unreach, t.rtc.alarmInvalid) = (true, false) := ⟨_, rfl, by decide +kernel⟩

/-- "software writes 0x0000_003C to BCAST_GMASK_DIO_HI. DO channels 3 to 6 are DIO channels 34 to 37", "This stages four registers" (chapter 2). -/
theorem test_alias_stages_four : ∃ t,
    exec (.bcastAliasWrite mc0 0x50E000 0x100) (setR (txnIs .mc0 { st := .opened }) (pm .mc0 Reg.BCAST_GMASK_DIO_HI) 0x3C) = .next t ∧
    (t.txn.get .mc0).staged.map (·.1) = [Reg.DIO_CH_CFG 34, Reg.DIO_CH_CFG 35, Reg.DIO_CH_CFG 36, Reg.DIO_CH_CFG 37] := ⟨_, rfl, by decide +kernel⟩


/-! ### Queues at work -/

/-- CAN channel 3 with its queue of ring 0x1000 in service, whose descriptor 0 names a frame of 4 bytes (R330) at 0x2000 in a class; the
descriptors posted and not completed, and the buffers, as given. -/
def canQ (cls : Nat) (fly : List Fly) (x : CanCh) (r : List (Nat × Word)) : State :=
  let s := canIs x ([(Reg.QUE_CFG 27, Reg.QUE_CFG_enable.mk' 1 ||| Reg.QUE_CFG_size_log2.mk' 4 ||| Reg.QUE_CFG_limit.mk' 4 |||
    Reg.QUE_CFG_b_wait.mk' 2), (Reg.QUE_RING_BASE 27, 0x1000), (Reg.CAN_B_TIME 3, 0x40000)] ++ r)
  let frame := leBytes 4 0x123 ++ leBytes 4 (4 * 256) ++ List.replicate 8 0 ++ [1, 2, 3, 4]
  let desc := leBytes 4 0x2000 ++ leBytes 4 (20 + cls * 65536 + 0x80000000)
  setQ { s with store := stBytes (stBytes s.store 0x1000 desc) 0x2000 frame } 27 { fly := fly }

/-- The same with the frame in buffer 5: in class A, and in class B over its budget since FAST period 0. -/
def taken : List Fly := [{ postC := 5, takenAt := some 0x1000, waitFrom := some 0 }]
def queuedA : State := canQ 1 taken (buf 5 { desc := some 0x1000 }) []
def queuedB : State := canQ 2 taken (buf 5 { desc := some 0x1000 }) [(Reg.CAN_B_TIME 3, 1)]

/-- The queue of ring port 0 with a frame of 64 bytes in a class, and ring 0 as given. -/
def portQ (cls len : Nat) (fly : List Fly) (budget : Nat) : State :=
  let s := setRegs [(Reg.QUE_CFG 0, Reg.QUE_CFG_enable.mk' 1 ||| Reg.QUE_CFG_size_log2.mk' 4 ||| Reg.QUE_CFG_limit.mk' 4 |||
    Reg.QUE_CFG_b_wait.mk' 2), (Reg.QUE_RING_BASE 0, 0x1000)] (ringed .active)
  setQ { s with store := stBytes s.store 0x1000 (leBytes 4 0x2000 ++ leBytes 4 (len + cls * 65536 + 0x80000000)) } 0
    { fly := fly, bUsed := budget, bPeriod := fastPeriod s }

/-- A descriptor whose first word cannot be read. -/
def badDesc (s : State) : State := { s with ecc := s.ecc.put (0x1000 / 8) 2 }

/-- A module in HOLD with one rule of the Access Restriction Table: the recorder's master (bit 10) may not touch the recorder's region. -/
def ruledOut (m : Mode) (r : Recorder) : State :=
  setRegs [(Reg.ART_BASE 5, BitVec.ofNat 32 (0x10000000 + recBase)), (Reg.ART_SIZE 5, 0x100000), (Reg.ART_MASTERS 5, 0x400),
    (Reg.ART_ATTR 5, Reg.ART_ATTR_enable.mk' 1 ||| Reg.ART_ATTR_priv_m.mk' 1)] (records r m)

/-- An exchange whose replaced image is held no more. -/
def baseless (x : XchState) (rev : Option (Option Master × Int)) : State := { ready .active with xch := { st := x, base := { id := 6 }, revert := rev } }

/-- A held module in HOLDUP whose supply is good since 0, with clock A good or not, and one that lost its clock before. -/
def heldUp (c : RefState) (cause : Nat) : State :=
  let s := supplied { st := .holdup, goodSince := some 0, entryC := 0 } true (some 0)
  { s with clk := { s.clk with a := { s.clk.a with st := c } }, bal := { s.bal with cause := cause } }

/-- The same image with the two ports of ring 0 of a role and a PTP setting (Table 2.3). -/
def ported (role code : Nat) : Image := { img with parts := img.parts.map fun p =>
  if p.typ = 0x0A then { p with recs := [le [(1, 0), (1, role), (2, code), (4, 0)], le [(1, 1), (1, role), (2, code), (4, 0)]] } else p }
def clockPorts (role code : Nat) : State := { ringed .active with img := ported role code }
def ptpMsg (t : Byte) : List Byte := [1, 0x1B, 0x19, 0, 0, 0] ++ beBytes 6 0xA0 ++ [0x88, 0xF7, t] ++ List.replicate 43 0

theorem unruled (s : State) (h : enabledRules s = []) (b : Nat) (k : AccKind) (a n : Nat) : unitRefused s b k a n = false := by
  simp [unitRefused, ruleMatch, h, judge]

/-- Without a rule and without an ECC error every unit may do what it does. -/
theorem sound_up (s : State) (h : enabledRules s = []) (e : s.ecc = SMap.empty) (a n : Nat) : Sound s a n :=
  ⟨unruled s h .., unruled s h .., fun i _ => by rw [e]; rfl⟩

theorem witness_queues_at_work :
    (∀ s ∈ [canQ 1 [{ postC := 5 }] { st := .errorActive } [], queuedA, queuedB], calm s = true ∧ canOwner s = true ∧ s.held = false ∧
      canQueueOk s 3 = true ∧ canOnline s 3 = true ∧ flag s (Reg.QUE_CFG (27 : Fin 128)) Reg.QUE_CFG_enable = true) ∧
    (∀ cls ∈ [1, 2], let s := canQ cls [{ postC := 5 }] { st := .errorActive } []
      (((List.finRange 32).find? fun (b : Fin 32) => s.can[(3 : Fin 16)].txb[b].frame.isNone && getF s (Reg.CAN_TXB_STAT (3 : Fin 16) b) Reg.CAN_TXB_STAT_owner == 0).isSome = true ∧
        (qTake 27 s).map (·.2) = some 0x1000 ∧ (fetchDesc 27 0x1000 s).2 = false ∧ (readDesc s 0x1000).cls = cls ∧ (readDesc s 0x1000).len = 20 ∧
        validFrame (canMode s 3) 4 (readFrame s 0x2000) = true)) ∧
    (let s := queuedB
     s.can[(3 : Fin 16)].txb[(5 : Fin 32)].desc = some 0x1000 ∧ canOver (entry 1000000 s) 3 0x1000 canF = true ∧
      bWaited s 27 { postC := 5, takenAt := some 0x1000, waitFrom := some 0 } (fastPeriod (entry 1000000 s)) = true) ∧
    (∀ cls ∈ [0, 1, 2, 3], ∀ len ∈ [64, 0], let s := portQ cls len [{ postC := 5 }] 0
      quiet s = true ∧ (readDesc s 0x1000).cls = cls ∧ (readDesc s 0x1000).len = len ∧ portRefused s 0 0 (readDesc s 0x1000) = (cls == 3) ∧
        (fetchDesc 0 0x1000 s).2 = false ∧ (fetchDesc 0 0x1000 (badDesc s)).2 = true ∧ waitingE s 0 = none ∧ portOver s 0 0 (readDesc s 0x1000) = (cls == 2 && len == 64)) ∧
    (let s := portQ 2 64 [{ postC := 5, waitFrom := some 0 }] 0
     bWaited s 0 { postC := 5, waitFrom := some 0 } (fastPeriod (entry 1000000 s)) = true ∧ portOver (entry 1000000 s) 0 0 (readDesc s 0x1000) = true) ∧
    ((fetchDesc 127 0x1000 (badDesc (queIs 127 1 0 1 [{ postC := 5 }]))).2 = true ∧ quiet (badDesc (queIs 127 1 0 1 [{ postC := 5 }])) = true) := by
  decide +kernel

theorem witness_recorder_rules :
    (∀ m ∈ [Mode.hold, .service], ∀ r ∈ [({} : Recorder), { flushing := some 1 }, { archiving := true }],
      quiet (ruledOut m r) = true ∧ (ruledOut m r).held = false ∧ (linesOf recBase 0x18800).any (fun p => unitRefused (ruledOut m r) 10 .read p.1 p.2) = true) ∧
    (∀ r m a n k, RecMay (records r m) k a n ∧ Sound (records r m) a n) := by
  constructor
  · decide +kernel
  · intro r m a n k
    have h : enabledRules (records r m) = [] := by
      have : (records r m).regs = State.reset.regs := rfl
      have e : enabledRules State.reset = [] := by decide +kernel
      simpa only [enabledRules, this] using e
    exact ⟨fun p _ => unruled _ h .., sound_up _ h rfl ..⟩

theorem witness_more_states :
    (∀ x ∈ [XchState.unconfirmed, .reverting], quiet (baseless x (some (some .mc0, 995000))) = true ∧
      holdsBase (baseless x none) = false ∧ executing (baseless x none) = true ∧ (baseless x none).held = false) ∧
    (∀ c ∈ [RefState.good, .down], ∀ k ∈ [0, 3], quiet (heldUp c k) = true ∧ (heldUp c k).held = true ∧ (heldUp c k).pwr.stopped = false ∧
      (heldUp c k).clk.a.st = c ∧ (heldUp c k).clk.b.st = .down ∧ (heldUp c k).bal.cause = k) ∧
    (quiet (grpIs 2 { sag := true, goodSince := some 0 }) = true) ∧
    (∀ x ∈ [(1, 4), (1, 3), (1, 1), (2, 1), (1, 0x23), (2, 0x0A)], quiet (clockPorts x.1 x.2) = true ∧ (clockPorts x.1 x.2).held = false ∧
      (clockPorts x.1 x.2).img.role 0 = x.1 ∧ (clockPorts x.1 x.2).img.ptp 0 = x.2 ∧ portLink (clockPorts x.1 x.2) 1 = true ∧
      ∀ t ∈ [0, 2, 3, 8], ptpAt (clockPorts x.1 x.2) 0 (ptpMsg t) = some 14 ∧ ptpType (ptpMsg t) 14 = t.toNat) := by
  decide +kernel

/-- A Pdelay message on a peer-to-peer transparent clock is firmware's, on each port (R310). -/
theorem test_pdelay_is_not_forwarded :
    (match exec (.ptpFrameReceive 0 0 true (ptpMsg 2) 0) (clockPorts 1 4) with
      | .next t => t.out == [] && t.fgr.ptpLast == []
      | _ => false) = true := by decide +kernel

/-- A transaction that is PENDING for the boundary at 1 ms and stages the EtherType of IPv4 as FGR_ETYPE, which R444 refuses. -/
def refusedTxn : State := txnIs .mc0 { st := .pending, latch := 0, staged := [(Reg.FGR_ETYPE, 0x0800)] }

theorem witness_refused_commit : Inv refusedTxn ∧ refusedTxn.held = false ∧ refusedTxn.dbg.frozen = false ∧
    masters.filter (boundaryNow (entry 250000 refusedTxn)) = [.mc0] ∧ commitFault .mc0 (entry 250000 refusedTxn) ≠ none :=
  ⟨inv_txn _ _, by decide +kernel⟩


/-! ### Data that come after a T0 -/

/-- The image with an input entry of AI unit 2 at signal 5 (Tables 6.2, 6.3), and a FAST cycle whose snapshot waits for that unit's conversion. -/
def aiLate : State :=
  { runs .active { (PerCls.all {} : PerCls ClassRun) with fast := busy 1 } with
    img := { img with parts := img.parts.take 2 ++ [{ typ := 0x03, part := 0, recs := [le [(4, 5 + 0xB * 2 ^ 20), (2, 2), (2, 0)]] }] ++ img.parts.drop 2 },
    io := (aiIs { conv := some 200000, startC := some 50000 } 0).io }

theorem witness_late_input : quiet aiLate = true ∧ aiLate.held = false ∧ pubWaits (entry 62500 aiLate) = [.fast] ∧
    aiLate.io.ai[(2 : Fin 8)].conv = some 200000 ∧ aiLate.io.ai[(2 : Fin 8)].startC = some 50000 ∧ 50000 + 500 ≤ (entry 62500 aiLate).time.c := by
  decide +kernel

/-- The conversion that ends (code 4,096 of ±10 V is 1.5625, R359) fills the word and ends the snapshot: one step of the sequence number (R144, R157). -/
theorem test_late_conversion : (match exec (.aiConversionDone 62500 2 0x1000) aiLate with
      | .next t => pubWaits t == [] && getF t Reg.IMG_PUB_SEQ Reg.IMG_PUB_SEQ_seq == 1 && t.prog.pub.w.get 5 == 0x3fc80000 &&
        getR t (Reg.AI_VALUE 2) == 0x3fc80000
      | _ => false) = true := by decide +kernel

/-- A filtered edge whose compensated crossing lies before the T0 that has passed. -/
def diPast : State := setR (setDi (runs .active { (PerCls.all {} : PerCls ClassRun) with fast := busy 1 }) 5 { raw := false }) (Reg.DIO_CH_DELAY 5) 0xFFFF

theorem witness_late_edge : quiet diPast = true ∧ diPast.held = false ∧ diPast.io.di[(5 : Fin 32)].raw = false ∧
    crossingT0 (entry 62800 diPast) = some 250000 ∧ executing (entry 62800 diPast) = true ∧
    (now (entry 62800 diPast) * 16 - (getF diPast (Reg.DIO_CH_DELAY (5 : Fin 32)) Reg.DIO_CH_DELAY_delay : Int)) / 16 < 250000 := by decide +kernel

/-- The stamp is 251,200 ns less 65,535 sixteenths, rounded down (R343). -/
theorem test_late_edge : (match exec (.diCrossing 62800 5 true) diPast with
      | .next t => t.io.di[(5 : Fin 32)].fzLevel && t.io.di[(5 : Fin 32)].fzRise == some 247104 | _ => false) = true := by decide +kernel

end Sys2Proof.Tests
end

/-!
SUPPORT. Accesses of masters: where an access goes, what it leaves settled, writes that do no more than their access types say, reads that
clear counts, and writes that are staged; with the reset values.
-/
namespace Sys2Proof.Machine

/-! ### Where an access goes -/

theorem inWin_of_lt {a b n : Nat} (h : a < b) : inWin a b n = false := by
  simp [inWin, Nat.not_le.mpr h]

/-- A word access below Ballast that meets a register goes to that register. -/
theorem target?_reg {a : Nat} {d : RegDesc} (m : Master) (hlt : a < 0x08000000) (hal : a % 4 = 0) (hd : Reg.desc? a = some d) :
    target? m a 4 = some (.reg d) := by
  have hw : ∀ {b n : Nat}, 0x08000000 ≤ b → inWin a b n = false := fun hb => inWin_of_lt (Nat.lt_of_lt_of_le hlt hb)
  simp only [target?, hw (show 0x08000000 ≤ 0x80000000 by decide), hw (Nat.le_refl _), hw (show 0x08000000 ≤ 0x10000000 by decide),
    hw (show 0x08000000 ≤ 0x20000000 by decide), hw (show 0x08000000 ≤ 0x30000000 by decide), hal, hd]
  rfl

/-- Below the DDR only an aligned word that lies in a register map or a window is a target (R5, R25). -/
theorem target?_none {a n : Nat} (m : Master) (hlt : a < 0x80000000)
    (h : n ≠ 4 ∨ a % 4 ≠ 0 ∨ (Reg.desc? a = none ∧ aliasAt? a = none ∧ inWin a 0x08000000 0x01000000 = false ∧
      inWin a 0x10000000 storeSize = false ∧ inWin a 0x20000000 0x000A0000 = false ∧ inWin a 0x30000000 0x00200000 = false)) :
    target? m a n = none := by
  by_cases hw : (n == 4 && a % 4 == 0) = true
  · obtain ⟨hn, ha⟩ : n = 4 ∧ a % 4 = 0 := by simpa using hw
    obtain ⟨hd, hal, hb, hs, hi, hk⟩ := (h.resolve_left (not_not_intro hn)).resolve_left (not_not_intro ha)
    simp [target?, inWin_of_lt hlt, hw, hd, hal, hb, hs, hi, hk]
  · simp [target?, inWin_of_lt hlt, hw]

/-! ### What an access leaves -/

/-- The invariant reads neither the time, nor the captures, nor the answer. -/
theorem Inv.served {s : State} (h : Inv s) (r : Req) (x : Resp) : Inv { written r s with resp := x } :=
  h.congr (fun _ _ => rfl) rfl rfl rfl rfl rfl rfl rfl rfl rfl rfl

theorem Inv.written {s : State} (h : Inv s) (r : Req) : Inv (written r s) := h.served r .done

/-- The invariant outlives the write of a register that it does not read. -/
theorem Inv.setR {s : State} (h : Inv s) {a : Nat} (ha : a ∉ settleRegs) (v : Word) : Inv (setR s a v) :=
  h.congr (fun b hb => getR_setR_ne s v (by rintro rfl; exact ha hb)) rfl rfl rfl rfl rfl rfl rfl rfl rfl rfl

/-- An access that leaves the invariant leaves nothing to settle. -/
theorem run_of_inv {s u : State} {t : Nat} {f : State → State} (hh : s.held = false) (hu : { f (entry t s) with pending := s.pending } = u)
    (hi : Inv u) : run t f s = .next u := by
  rw [run_next hh, ← settle_of_inv hi, ← hu]; rfl

theorem regsBut_setR (s : State) (a : Nat) (v : Word) : RegsBut [a] s (Machine.setR s a v) :=
  fun _ hb => getR_setR_ne s v fun h => hb (List.mem_singleton.mpr h.symm)

/-! ### Accesses without a target (R5) -/

/-- Settles O11: such an access has no target, so that only the master's captures go. -/
theorem accessOfOtherWidthOrPlaceHasNoEffect : Obligations.AccessOfOtherWidthOrPlaceHasNoEffect := by
  intro r addr n v atomic fetch s hi hh hlt hp
  have ht := target?_none r.m hlt hp
  have hserved := hi.served r .busError
  refine ⟨run_of_inv hh ?_ hserved, run_of_inv hh ?_ hserved⟩
  · cases atomic
    · simp only [busWrite, ht, answer]; rfl
    · simp only [busAtomic, ht, answer]; rfl
  · simp only [busRead, ht, answer]; rfl

/-! ### Reset values (R6) -/

/-- At reset no register differs from its reset value. -/
theorem getR_reset (a : Nat) : getR State.reset a = Reg.resetValue (a % 0x100000000) := BitVec.zero_xor

/-- Settles O8, by the table of reset values. -/
theorem resetValuesOfRegisters : Obligations.ResetValuesOfRegisters := by
  unfold Obligations.ResetValuesOfRegisters
  simp only [getR_reset]
  refine ⟨?_, ?_, ?_, ?_, ?_, rfl, rfl, rfl, rfl, rfl, rfl⟩
  · decide +kernel
  · decide +kernel
  · decide +kernel
  · decide +kernel
  · decide +kernel

/-! ### Registers and their rows -/

/-- A register below the windows that has a row in its register map, and of the row a property. -/
abbrev Placed (a : Nat) (P : RegDesc → Prop) : Prop := a < 0x08000000 ∧ a % 4 = 0 ∧ ∃ d ∈ Reg.desc? a, P d

theorem Placed.target {a : Nat} {P : RegDesc → Prop} (h : Placed a P) : ∃ d, P d ∧ ∀ m, target? m a 4 = some (.reg d) := by
  obtain ⟨hlt, hal, d, hd, hP⟩ := h
  exact ⟨d, hP, fun m => target?_reg m hlt hal hd⟩

/-! ### Writes without an action of their own -/

/-- A write of the register has no action of its own. -/
def NoAction (a : Nat) : Prop := ∀ d m v s, regAct d m a v s = some (plainWriteCounts d m a v s)

/-- The blocks whose writes do not go through `coreWrite`. -/
def otherBlocks : List Nat := [0x05, 0x30, 0x40, 0x50, 0x60, 0x61, 0x70, 0x71, 0x80]

/-- The registers on which `coreWrite` has an action. -/
def coreActs : List Nat :=
  [Reg.SYS_CMD, Reg.SYS_CFG, Reg.CLK_GATE_CMD, Reg.CTU_CMD, Reg.XCH_CMD, Reg.ENG_INJECT, Reg.LANE_CMD, Reg.LANE_INJECT]

/-- The registers, but for QUE_TAIL, on which `mgmtWrite` has an action. -/
def mgmtActs : List Nat := [Reg.REC_CMD, Reg.REC_FEED, Reg.UPD_CMD, Reg.UPD_CFG, Reg.BIST_CMD]

theorem noAction_core {a : Nat} (h : a / 0x10000 ∉ otherBlocks ∧ a ∉ coreActs) : NoAction a := by
  intro d m v s
  obtain ⟨hb, ha⟩ := h
  have hcore : regAct d m a v s = some (coreWrite d m a v s) := by
    unfold regAct
    split <;> simp_all [otherBlocks]
  simp only [coreActs, List.mem_cons, List.not_mem_nil, or_false, not_or] at ha
  simp [hcore, coreWrite, ha]

theorem noAction_time {a : Nat} (h : a / 0x10000 = 0x30 ∧ a ∉ [Reg.TIME_CTRL, Reg.TIME_INC_HI, Reg.TIME_STEP_HI] ∧
    Reg.inRow a (Reg.TIME_CAP_CFG 0) 0x10 16 = false) : NoAction a := by
  intro d m v s
  obtain ⟨hb, ha, hr⟩ := h
  simp only [List.mem_cons, List.not_mem_nil, or_false, not_or] at ha
  simp [regAct, hb, timeWrite, ha, hr]

theorem noAction_can {a : Nat} (h : a / 0x10000 = 0x40 ∧ a ≠ Reg.CAN_CTRL (fin 16 (idx a 0x400000 0x1000)) ∧
    a ≠ Reg.CAN_TXB_CANCEL (fin 16 (idx a 0x400000 0x1000))) : NoAction a := by
  intro d m v s
  obtain ⟨hb, hctrl, hcancel⟩ := h
  simp only [regAct, hb, canWrite, if_neg hctrl, if_neg hcancel]

theorem noAction_dio {a : Nat} (h : a / 0x10000 = 0x50 ∧ Reg.inRow a (Reg.DIO_GRP_ACK 0) 0x40 4 = false) : NoAction a := by
  intro d m v s
  obtain ⟨hb, hr⟩ := h
  simp [regAct, hb, dioWrite, hr]

theorem noAction_que {a : Nat} (h : a / 0x10000 = 0x80 ∧ a ∉ mgmtActs ∧ Reg.inRow a (Reg.QUE_TAIL 0) 0x40 128 = false) : NoAction a := by
  intro d m v s
  obtain ⟨hb, ha, hr⟩ := h
  simp only [mgmtActs, List.mem_cons, List.not_mem_nil, or_false, not_or] at ha
  simp [regAct, hb, mgmtWrite, ha, hr]

/-- The row of a register with RW and W1C bits only, stored once for all masters. -/
abbrev RegDesc.plain (rw w1c : Word) (d : RegDesc) : Prop :=
  d.perMaster = false ∧ d.rwt = 0 ∧ d.w1s = 0 ∧ BitVec.ofNat 32 (d.rw ||| d.wo) = rw ∧ BitVec.ofNat 32 d.w1c = w1c

/-- A register with RW and W1C bits only, with no count beside its W1C bits, that the invariant does not read. -/
abbrev PlainRow (a : Nat) (rw w1c : Word) : Prop :=
  Placed a (RegDesc.plain rw w1c) ∧ (a ≠ Reg.TIME_STATUS ∧ clearsCount a = none) ∧ a ∉ settleRegs

theorem plainWriteCounts_plain {d : RegDesc} {rw w1c : Word} {a : Nat} (hd : d.plain rw w1c) (hc : a ≠ Reg.TIME_STATUS ∧ clearsCount a = none)
    (m : Master) (v : Word) (s : State) :
    plainWriteCounts d m a v s = setR s a (((getR s a &&& ~~~rw) ||| (v &&& rw)) &&& ~~~(v &&& w1c)) := by
  obtain ⟨hm, -, h1, hrw, hw⟩ := hd
  simp [plainWriteCounts, hc, plainWrite, regKey, hm, h1, hrw, hw]

/-- A granted write of such a register sets its RW bits and clears its W1C bits at a 1. -/
theorem exec_plainWrite {a : Nat} {rw w1c : Word} (h : PlainRow a rw w1c) (ha : NoAction a) {r : Req} {s : State} (v : Word) (hi : Inv s)
    (hg : Granted r .write a s) :
    exec (.registerWrite r a ⟨4, false⟩ (v.setWidth 64)) s =
      .next (setR (written r s) a (((getR s a &&& ~~~rw) ||| (v &&& rw)) &&& ~~~(v &&& w1c))) := by
  obtain ⟨hp, hc, hf⟩ := h
  obtain ⟨d, hd, ht⟩ := hp.target
  have hw := exec_write v hg (ht r.m) hd.2.1 (ha d r.m v _)
  rw [plainWriteCounts_plain hd hc] at hw
  exact hw.trans (congrArg _ (settle_of_inv ((hi.written r).setR hf _)))

/-- Settles O12: each of the registers has a plain row and no action of its own. -/
theorem registerWriteFollowsTheAccessType : Obligations.RegisterWriteFollowsTheAccessType := by
  intro r p c u g w q v s x hx hi hg
  have hplain : PlainRow x.1 x.2.1 x.2.2 ∧ NoAction x.1 := by
    clear hi hg
    revert x
    simp only [List.forall_mem_cons, List.not_mem_nil, false_imp_iff, implies_true, and_true]
    refine ⟨?pwrCfg, ?ptpLat, ?dioDelay, ?canCfg, ?pwrAlarm, ?clkAlarm, ?redAlarm, ?canAlarm, ?dioDiag, ?dioAlarm, ?aoDiag, ?aiDiag, ?queStatus,
      ?ttrg, ?sysId, ?pwrBank⟩
    case pwrCfg | pwrAlarm | clkAlarm | redAlarm | sysId | pwrBank => exact .imp_right noAction_core (by decide +kernel)
    case aoDiag | aiDiag => exact .imp_right noAction_core (by revert w; decide +kernel)
    case ttrg => exact .imp_right noAction_core (by revert u; decide +kernel)
    case ptpLat => exact .imp_right noAction_time (by revert p; decide +kernel)
    case canCfg | canAlarm => exact .imp_right noAction_can (by revert u; decide +kernel)
    case dioDelay | dioDiag => exact .imp_right noAction_dio (by revert c; decide +kernel)
    case dioAlarm => exact .imp_right noAction_dio (by revert g; decide +kernel)
    case queStatus => exact .imp_right noAction_que (by revert q; decide +kernel)
  obtain ⟨hrow, hact⟩ := hplain
  exact ⟨_, exec_plainWrite hrow hact v hi hg, rfl, getR_setR_self .., regsBut_setR (written r s) x.1 _, rfl⟩

/-! ### Counts that a read clears -/

/-- The register shows its own value, not one formed from the state. -/
def OwnValue (a : Nat) : Prop := ∀ s m, specialRead s m a = none

theorem ownValue_eng {a : Nat} (h : a / 0x10000 = 0x10 ∧ a ≠ Reg.ENG_STATUS ∧ a ≠ Reg.IMG_STATUS) : OwnValue a := by
  intro s m
  obtain ⟨hb, he, hi⟩ := h
  simp only [specialRead, hb, engRead, if_neg he, if_neg hi]

theorem ownValue_fgr {a : Nat} (h : a / 0x10000 = 0x20 ∧ Reg.inRow a (Reg.FGR_P_STATUS 0) 0x1000 12 = false ∧
    Reg.inRow a (Reg.FGR_RING_STATUS 0) 0x20 6 = false ∧ Reg.inRow a (Reg.FGR_STA 0) 4 512 = false) : OwnValue a := by
  intro s m
  obtain ⟨hb, hp, hr, hst⟩ := h
  simp [specialRead, hb, fgrRead, hp, hr, hst]

theorem ownValue_ttrg {a : Nat} (h : a / 0x10000 = 0x31) : OwnValue a := by
  intro s m
  simp only [specialRead, h]

theorem ownValue_que {a : Nat} (h : a / 0x10000 = 0x80 ∧ Reg.inRow a (Reg.QUE_STATUS 0) 0x40 128 = false) : OwnValue a := by
  intro s m
  obtain ⟨hb, hr⟩ := h
  simp [specialRead, hb, queRead, hr]

/-- The row of a count: all its bits are RC, and it is stored once for all masters. -/
abbrev RegDesc.count (d : RegDesc) : Prop := d.perMaster = false ∧ d.rc = 0xFFFFFFFF ∧ d.wo = 0

/-- A count whose read takes nothing else away and captures nothing, and that the invariant does not read. -/
abbrev CountRow (a : Nat) : Prop :=
  Placed a RegDesc.count ∧ (a / 0x10000 ≠ 0x40 ∧ Reg.inRow a (Reg.PTP_TXTS_HI 0) 0x100 12 = false ∧ capturesHi a = false) ∧ a ∉ settleRegs

/-- A read of a count returns it, and leaves 0 where reads clear. -/
theorem regRead_count {d : RegDesc} {a : Nat} (hd : d.count) (hb : a / 0x10000 ≠ 0x40) (ht : Reg.inRow a (Reg.PTP_TXTS_HI 0) 0x100 12 = false)
    (hv : OwnValue a) (clear : Bool) (m : Master) (s : State) :
    regRead clear d m a s = (if clear then setR s a 0 else s, some (getR s a)) := by
  obtain ⟨hm, hrc, hwo⟩ := hd
  have hones : ~~~(0xFFFFFFFF#32) = 0 := by decide
  have hval : regValue s d m a = getR s a := by
    simp only [regValue, hv s m, regKey, hm, hwo]
    exact BitVec.and_allOnes
  cases clear <;> simp [regRead, hb, ht, hval, hrc, regKey, hm, hones]

/-- A granted read without a capture reaches its register. -/
theorem busRead_reg {r : Req} {a : Nat} {d : RegDesc} {s : State} (hg : Granted r .read a s) (ht : target? r.m a 4 = some (.reg d))
    (hcap : capture? s r.m a = none) (hlo : capturesHi a = false) {e : State} {v : Word}
    (he : regRead (readClears s r.m) d r.m a (dropCaptures r.m (entry r.t s)) = (e, some v)) :
    busRead r.m r.p .read a 4 (entry r.t s) = (e, .data v) := by
  have hc : clocked (dropCaptures r.m (entry r.t s)) r.m a (.reg d) = true := hg.clock
  have hcap' : capture? (entry r.t s) r.m a = none := hcap
  have hcl : readClears (dropCaptures r.m (entry r.t s)) r.m = readClears s r.m := rfl
  simp [busRead, ht, artCheck_entry hg.allowed, hc, hcap', targetRead, hcl, he, readCaptured, captureAfter, hlo]

/-- A granted read of a count answers it, and clears it where reads clear. -/
theorem exec_countRead {a : Nat} (h : CountRow a) (hv : OwnValue a) {r : Req} {s : State} (hi : Inv s) (hg : Granted r .read a s)
    (hcap : capture? s r.m a = none) :
    exec (.registerReadClear r a ⟨4, false⟩) s =
      .next (let t := { written r s with resp := .data (getR s a) }
        if readClears s r.m then setR t a 0 else t) := by
  obtain ⟨hp, ⟨hb, htx, hlo⟩, hf⟩ := h
  obtain ⟨d, hd, ht⟩ := hp.target
  have hbus := busRead_reg hg (ht r.m) hcap hlo (regRead_count hd hb htx hv _ r.m _)
  have hserved := hi.served r (.data (getR s a))
  refine run_of_inv (u := _) hg.runs ?_ ?_
  · show { answer (busRead r.m r.p .read a 4 (entry r.t s)) with pending := s.pending } = _
    rw [hbus]
    cases readClears s r.m <;> rfl
  · cases readClears s r.m
    · exact hserved
    · exact hserved.setR hf 0

theorem readClears_eq_false {s : State} {m : Master} :
    readClears s m = false ↔ m = .debug ∧ (executing s = false ∨ s.dbg.frozen = true) := by
  unfold readClears
  cases executing s <;> simp

/-- Settles O13: each of the registers is a count that shows its own value. -/
theorem registerReadReturnsThenClears : Obligations.RegisterReadReturnsThenClears := by
  intro r k i p q s a ha hi hg hcap
  have hcount : CountRow a ∧ OwnValue a := by
    clear hi hg hcap
    revert a
    simp only [List.forall_mem_cons, List.not_mem_nil, false_imp_iff, implies_true, and_true]
    refine ⟨?clk, ?pwr, ?red, ?lane, ?art, ?engMax, ?engOvr, ?que, ?ttrg, ?fgrRx, ?fgrFwd⟩
    case clk | pwr | red | lane | art => exact ⟨by decide +kernel, fun _ _ => rfl⟩
    case engMax | engOvr => exact .imp_right ownValue_eng (by revert k; decide +kernel)
    case que => exact .imp_right ownValue_que (by revert q; decide +kernel)
    case ttrg => exact .imp_right ownValue_ttrg (by revert i; decide +kernel)
    case fgrRx | fgrFwd => exact .imp_right ownValue_fgr (by revert p; decide +kernel)
  obtain ⟨hrow, hown⟩ := hcount
  refine ⟨_, exec_countRead hrow hown hi hg hcap, ?_⟩
  simp only [← readClears_eq_false]
  cases readClears s r.m
  · exact ⟨rfl, rfl, fun _ _ => rfl, rfl⟩
  · exact ⟨rfl, getR_setR_self .., regsBut_setR (written r s) a 0, rfl⟩

/-! ### Staging (R46 to R48) -/

theorem stageAll_closed {s : State} {m : Master} (h : stagingClosed s m = true) (l : List (Nat × Word)) : stageAll m l s = (s, false) := by
  simp [stageAll, h]

theorem stagingClosed_of_opened {s : State} {m : Master} (h : (s.txn.get m).st = .opened) : stagingClosed s m = false := by
  simp [stagingClosed, h]

/-- A register that another master has locked is not staged. -/
theorem stageAll_locked {s : State} {m n : Master} {a : Nat} (ho : (s.txn.get m).st = .opened) (hl : lockHolder s m a = some n) (v : Word) :
    stageAll m [(a, v)] s = (stagingClash m n a s, false) := by
  simp [stageAll, stagingClosed_of_opened ho, hl]

/-- A register that no other master has locked is staged while there is room. -/
theorem stageAll_free {s : State} {m : Master} {a : Nat} (ho : (s.txn.get m).st = .opened) (hl : lockHolder s m a = none)
    (hn : (s.txn.get m).staged.length < 4096) (v : Word) : stageAll m [(a, v)] s = (stagePut m [(a, v)] s, true) := by
  have hlen := List.length_filter_le (fun p : Nat × Word => (Tab.get? (s.txn.get m).staged p.1).isNone) [(a, v)]
  have hroom : ¬ stagedMax < (s.txn.get m).staged.length +
      ([(a, v)].filter fun p : Nat × Word => (Tab.get? (s.txn.get m).staged p.1).isNone).length := by
    simp only [List.length_singleton] at hlen
    unfold stagedMax
    omega
  simp only [stageAll, stagingClosed_of_opened ho, List.findSome?_cons, hl, Option.map_none, List.findSome?_nil, if_neg hroom]
  rfl

/-- The invariant outlives a change of a transaction that is not PENDING. -/
theorem Inv.setTxn {s : State} (h : Inv s) {m : Master} (hm : (s.txn.get m).st ≠ .pending) (x : Txn) : Inv (setTxn s m x) := by
  refine ⟨h.stages, h.pulses, h.off, h.counts, h.live, h.parOff, h.scan, h.can, h.quiet, fun hp => ?_⟩
  obtain ⟨n, hn, hst, himg, hdel⟩ := h.xch hp
  have hne : m ≠ n := by rintro rfl; exact hm hst
  exact ⟨n, hn, by simpa [hne] using ⟨hst, himg, hdel⟩⟩

theorem Inv.stagePut {s : State} (h : Inv s) {m : Master} (ho : (s.txn.get m).st = .opened) (l : List (Nat × Word)) : Inv (stagePut m l s) :=
  h.setTxn (by simp [ho]) _

/-- A staged value replaces an earlier one, and every other staged value stays. -/
theorem stagePut_get? (s : State) (m : Master) (a : Nat) (v : Word) (b : Nat) :
    Tab.get? ((stagePut m [(a, v)] s).txn.get m).staged b = if b = a then some v else Tab.get? (s.txn.get m).staged b := by
  unfold stagePut
  simp only [setTxn_get, if_true, List.foldl_cons, List.foldl_nil, Tab.get?_put, eq_comm (a := b)]

/-- Staging changes no other master's transaction. -/
theorem stagePut_txn_ne {m k : Master} (h : k ≠ m) (l : List (Nat × Word)) (s : State) : (stagePut m l s).txn.get k = s.txn.get k := by
  unfold stagePut
  rw [setTxn_get, if_neg h.symm]

/-- A transaction that stages is OPEN (R48). -/
theorem stagePut_st (m : Master) (l : List (Nat × Word)) (s : State) : ((stagePut m l s).txn.get m).st = .opened := by
  unfold stagePut
  rw [setTxn_get, if_pos rfl]

/-- A master's copy of CTU_CONFLICT lies above every register that the invariant reads. -/
theorem conflict_notMem_settleRegs (m : Master) : pm m Reg.CTU_CONFLICT ∉ settleRegs := by cases m <;> decide +kernel

/-- The clash that sets the conflict flag records its register and the holder (R47). -/
theorem stagingClash_first {s : State} {m : Master} (h : (s.txn.get m).conflict = false) (n : Master) (a : Nat) :
    stagingClash m n a s = setTxn (recordConflict m n a s) m { s.txn.get m with conflict := true, lastC := s.time.c } := by
  simp only [stagingClash, h]
  rfl

/-- A later clash records nothing. -/
theorem stagingClash_again {s : State} {m : Master} (h : (s.txn.get m).conflict = true) (n : Master) (a : Nat) :
    stagingClash m n a s = setTxn s m { s.txn.get m with conflict := true, lastC := s.time.c } := by
  simp only [stagingClash, h]
  rfl

theorem Inv.stagingClash {s : State} (h : Inv s) {m : Master} (ho : (s.txn.get m).st = .opened) (n : Master) (a : Nat) :
    Inv (stagingClash m n a s) := by
  have hm : (s.txn.get m).st ≠ .pending := by simp [ho]
  cases hc : (s.txn.get m).conflict
  · rw [stagingClash_first hc]
    exact (h.setR (conflict_notMem_settleRegs m) _).setTxn hm _
  · rw [stagingClash_again hc]
    exact h.setTxn hm _

theorem stagingClash_resp (m n : Master) (a : Nat) (s : State) : (stagingClash m n a s).resp = s.resp := by
  cases hc : (s.txn.get m).conflict
  · rw [stagingClash_first hc]; rfl
  · rw [stagingClash_again hc]; rfl

/-- A clash sets the flag of its transaction and leaves every other transaction. -/
theorem stagingClash_txn (m n k : Master) (a : Nat) (s : State) :
    (stagingClash m n a s).txn.get k =
      if m = k then { s.txn.get m with conflict := true, lastC := s.time.c } else s.txn.get k := by
  cases hc : (s.txn.get m).conflict
  · rw [stagingClash_first hc, setTxn_get]; rfl
  · rw [stagingClash_again hc, setTxn_get]

/-- Of the registers a clash changes CTU_CONFLICT alone, and that only where the flag was not set. -/
theorem stagingClash_getR (m n : Master) (a b : Nat) (s : State) :
    getR (stagingClash m n a s) b =
      if pm m Reg.CTU_CONFLICT = b then
        if (s.txn.get m).conflict then getR s b else Reg.CTU_CONFLICT_holder.mk' n.code ||| Reg.CTU_CONFLICT_addr.mk' (a / 4)
      else getR s b := by
  cases hc : (s.txn.get m).conflict
  · rw [stagingClash_first hc]
    exact getR_setR ..
  · rw [stagingClash_again hc, if_pos rfl, ite_self]
    rfl

/-- The row of a staging register, with the bits that are staged. -/
abbrev RegDesc.staging (mask : Word) (d : RegDesc) : Prop := d.rwt ≠ 0 ∧ BitVec.ofNat 32 d.rwt = mask

/-- A register whose writes are staged and do nothing else. -/
abbrev StagingRow (a : Nat) (mask : Word) : Prop := Placed a (RegDesc.staging mask) ∧ actsUnstaged a = false

/-- A granted write of a staging register, in the writer's transaction. -/
theorem exec_staging {a : Nat} {mask : Word} (h : StagingRow a mask) {r : Req} {s : State} (v : Word) (hg : Granted r .write a s)
    {e : State} {ok : Bool} (he : stageAll r.m [(a, v &&& mask)] (dropCaptures r.m (entry r.t s)) = (e, ok)) {u : State}
    (hu : { e with resp := if ok then .done else .busError, pending := s.pending } = u) (hi : Inv u) :
    exec (.ctuStagingWrite r a v) s = .next u := by
  obtain ⟨hp, hun⟩ := h
  obtain ⟨d, ⟨hd, hmask⟩, ht⟩ := hp.target
  refine run_of_inv hg.runs ?_ hi
  have hreg : regWrite d r.m a v (dropCaptures r.m (entry r.t s)) = (e, ok) := by
    simp [regWrite, hd, hun, hmask, he]
  rw [← hu]
  simp only [reqWrite, busWrite_reg v hg (ht r.m), hreg, answer]

theorem exec_staging_closed {a : Nat} {mask : Word} (h : StagingRow a mask) {r : Req} {s : State} (v : Word) (hi : Inv s)
    (hg : Granted r .write a s) (hc : stagingClosed s r.m = true) :
    exec (.ctuStagingWrite r a v) s = .next { written r s with resp := .busError } :=
  exec_staging h v hg (stageAll_closed (s := dropCaptures r.m (entry r.t s)) hc _) rfl (hi.served r .busError)

theorem exec_staging_free {a : Nat} {mask : Word} (h : StagingRow a mask) {r : Req} {s : State} (v : Word) (hi : Inv s)
    (hg : Granted r .write a s) (ho : (s.txn.get r.m).st = .opened) (hl : lockHolder s r.m a = none)
    (hn : (s.txn.get r.m).staged.length < 4096) :
    exec (.ctuStagingWrite r a v) s = .next (stagePut r.m [(a, v &&& mask)] (written r s)) :=
  exec_staging h v hg (stageAll_free (s := dropCaptures r.m (entry r.t s)) ho hl hn _) rfl ((hi.written r).stagePut ho _)

theorem exec_staging_locked {a : Nat} {mask : Word} (h : StagingRow a mask) {r : Req} {s : State} {n : Master} (v : Word) (hi : Inv s)
    (hg : Granted r .write a s) (ho : (s.txn.get r.m).st = .opened) (hl : lockHolder s r.m a = some n) :
    exec (.ctuStagingWrite r a v) s = .next (stagingClash r.m n a { written r s with resp := .busError }) := by
  refine exec_staging h v hg (stageAll_locked (s := dropCaptures r.m (entry r.t s)) ho hl _) ?_ ((hi.served r .busError).stagingClash ho n a)
  cases hc : (s.txn.get r.m).conflict
  · rw [stagingClash_first (s := dropCaptures r.m (entry r.t s)) hc, stagingClash_first (s := { written r s with resp := .busError }) hc]
    rfl
  · rw [stagingClash_again (s := dropCaptures r.m (entry r.t s)) hc, stagingClash_again (s := { written r s with resp := .busError }) hc]
    rfl

/-- Settles O15: each of the registers is a staging register, and the transaction decides among the three outcomes. -/
theorem stagingWriteActsOnTheTransactionOnly : Obligations.StagingWriteActsOnTheTransactionOnly := by
  intro r q u i g v s x hx hi hg
  have hrow : StagingRow x.1 x.2 := by
    clear hi hg
    revert x
    simp only [List.forall_mem_cons, List.not_mem_nil, false_imp_iff, implies_true, and_true]
    refine ⟨?eng, ?red, ?clk, ?que, ?ao, ?ttrg, ?recBase⟩
    case eng | red | clk => decide +kernel
    case que => revert q; decide +kernel
    case ao => revert u; decide +kernel
    case ttrg => revert i; decide +kernel
    case recBase => revert g; decide +kernel
  refine ⟨exec_staging_closed hrow v hi hg, fun ho hl hn => ?_, fun holder ho hl => ?_⟩
  · exact ⟨_, exec_staging_free hrow v hi hg ho hl hn, rfl, stagePut_st .., stagePut_get? (written r s) r.m x.1 _,
      fun m hm => stagePut_txn_ne hm _ (written r s), rfl⟩
  · refine ⟨_, exec_staging_locked hrow v hi hg ho hl, stagingClash_resp .., ?_, ?_, fun m hm => ?_, ?_, fun b hb => ?_⟩
    · rw [stagingClash_txn, if_pos rfl]
    · rw [stagingClash_txn, if_pos rfl]; rfl
    · rw [stagingClash_txn, if_neg hm.symm]; rfl
    · rw [stagingClash_getR, if_pos rfl]; rfl
    · rw [stagingClash_getR, if_neg fun h => hb (List.mem_singleton.mpr h.symm)]; rfl

end Sys2Proof.Machine

/-!
SUPPORT. The retentive set: the copy that a write takes, what a restored and started program changes, and the end of a write.
-/
namespace Sys2Proof.Machine

/-! ### The copy that a write takes (R137) -/

theorem retTarget_copy (s : State) : (retTarget s).1 = retCopy0 ∨ (retTarget s).1 = retCopy1 := by
  unfold retTarget
  dsimp only
  split
  · split
    · exact .inr rfl
    · exact .inl rfl
  · exact .inl rfl

/-- The number is the larger of the last begun and the newest complete one, plus 1. -/
theorem retTarget_seq (s : State) : (retTarget s).2 =
    max (((topCopy (retCopies s.ballast)).map (·.2.1)).getD 0) s.retain.seq + 1 := by
  unfold retTarget
  dsimp only
  split <;> rfl

theorem lt_retTarget_seq (s : State) : s.retain.seq < (retTarget s).2 := by
  rw [retTarget_seq]
  exact Nat.lt_succ_of_le (Nat.le_max_right ..)

/-! ### What restoring and starting a program changes (R138, R139) -/

/-- `t` differs from `s` at most in the program's memory and its ECC marks, the LSE, the recorder and the restored T0s. -/
def ProgOnly (s t : State) : Prop :=
  t = { s with prog := t.prog, ecc := t.ecc, lse := t.lse, cLse := t.cLse, rcd := t.rcd
               retain := { s.retain with t0s := t.retain.t0s, baseT0s := t.retain.baseT0s } }

theorem ProgOnly.refl (s : State) : ProgOnly s s := rfl

theorem ProgOnly.trans {s t u : State} (h : ProgOnly s t) (k : ProgOnly t u) : ProgOnly s u := by
  unfold ProgOnly at *
  rw [k, h]

theorem ProgOnly.setProg (s : State) (p : Prog) : ProgOnly s (setProg s p) := rfl

theorem ProgOnly.foldl {α : Type} {f : State → α → State} (h : ∀ s x, ProgOnly s (f s x)) (l : List α) (s : State) :
    ProgOnly s (l.foldl f s) :=
  List.foldlRecOn l f (.refl s) fun t ht x _ => ht.trans (h t x)

theorem ProgOnly.eccClean (off n : Nat) (s : State) : ProgOnly s (eccClean off n s) := by
  unfold Machine.eccClean
  split
  · exact .refl s
  · exact rfl

theorem ProgOnly.writeSig (k : Cls) (n : Nat) (t : Typ) (val : Option Nat) (q : Byte) (s : State) :
    ProgOnly s (writeSig k n t val q s) := by
  unfold Machine.writeSig
  split
  · exact .refl s
  · cases val with
    | some x => exact ((ProgOnly.setProg s _).trans (.eccClean ..)).trans (.eccClean ..)
    | none => exact (ProgOnly.setProg s _).trans (.eccClean ..)

theorem ProgOnly.startChains (keep : Nat → Bool) (s : State) : ProgOnly s (startChains keep s) := by
  refine .foldl (fun t p => ?_) _ s
  refine .trans (t := if keep p.2 then t else setChain t p.2 _) ?_ (.foldl (fun u i => .writeSig ..) _ _)
  split
  · exact .refl t
  · exact .setProg ..

theorem ProgOnly.showActs (s : State) : ProgOnly s (showActs s) :=
  .foldl (fun t _ => .setProg t _) _ s

theorem ProgOnly.progStart (restored : Bool) (s : State) : ProgOnly s (progStart restored s) := by
  have h := (ProgOnly.startChains (fun c => restored && s.img.retChains.contains c) s).trans (.showActs _)
  unfold Machine.progStart
  generalize Machine.showActs _ = t at h ⊢
  exact h.trans rfl

theorem ProgOnly.progClear (s : State) : ProgOnly s (progClear s) := rfl

theorem ProgOnly.recEvent (s : State) (code param sev : Nat) : ProgOnly s (recEvent s code param sev) := by
  unfold Machine.recEvent recPost
  split
  · exact rfl
  · exact .refl s

theorem ProgOnly.retRestore (s : State) : ProgOnly s (retRestore s).1 := by
  unfold Machine.retRestore
  dsimp only
  split
  · exact (ProgOnly.setProg s _).trans rfl
  · exact .recEvent ..

theorem ProgOnly.startFlush (reason : Nat) (s : State) : ProgOnly s (startFlush reason s) := by
  unfold Machine.startFlush
  split <;> exact rfl

/-- Nothing that the invariant reads is among it. -/
theorem ProgOnly.inv {s t : State} (h : ProgOnly s t) (hi : Inv s) : Inv t := by
  unfold ProgOnly at h
  rw [h]
  exact hi.congr (fun _ _ => rfl) rfl rfl rfl rfl rfl rfl rfl rfl rfl rfl

/-! ### The end of a write (R137, R138, R379) -/

/-- The state with the header of the write in progress in Ballast and no write in progress. -/
def headerWritten (b : Nat) (h : List Byte) (s : State) : State :=
  { s with ballast := stBytes s.ballast b h, retain := { s.retain with writing := none } }

/-- The invariant reads neither the time, nor Ballast and the retentive set, nor the recorder. -/
theorem Inv.retentive {s : State} (h : Inv s) (n : Nat) (m : SMap 8) (x : Retain) (y : Recorder) :
    Inv { tick n s with ballast := m, retain := x, rcd := y } :=
  h.congr (fun _ _ => rfl) rfl rfl rfl rfl rfl rfl rfl rfl rfl rfl

theorem retDone_alone {s : State} {b : Nat} {h : List Byte} (hw : s.retain.writing = some (b, h)) (hp : s.retain.pend = none)
    (hs : s.retain.startWaits = false) : retDone s = headerWritten b h s := by
  simp [retDone, headerWritten, hw, hp, hs]

theorem retDone_capture {s : State} {b : Nat} {h : List Byte} {c : Capture} (hw : s.retain.writing = some (b, h))
    (hp : s.retain.pend = some c) :
    retDone s = retBegin c { headerWritten b h s with retain := { s.retain with writing := none, pend := none } } := by
  simp [retDone, headerWritten, hw, hp]

theorem retDone_start {s : State} {b : Nat} {h : List Byte} (hw : s.retain.writing = some (b, h)) (hp : s.retain.pend = none)
    (hs : s.retain.startWaits = true) :
    ProgOnly { headerWritten b h s with retain := { s.retain with writing := none, startWaits := false } } (retDone s) := by
  simp only [retDone, hw, hp, hs, if_true]
  exact ((ProgOnly.progClear _).trans (.retRestore _)).trans (.progStart ..)

/-- Where the write begun next is in progress, no flush follows. -/
theorem retainWriteComplete_of_writing {s : State} (h : (retDone s).retain.writing.isNone = false) :
    retainWriteComplete s = retDone s := by
  simp [retainWriteComplete, h]

/-- Where the last write has ended, the recorder's flush follows in HOLDUP (R379). -/
theorem retainWriteComplete_of_ended {s : State} (hw : s.retain.writing.isSome = true) (h : (retDone s).retain.writing = none) :
    retainWriteComplete s = if s.pwr.st = .holdup then startFlush 1 (retDone s) else retDone s := by
  simp [retainWriteComplete, hw, h]

theorem startFlush_eq (reason : Nat) (s : State) : ∃ x : Recorder, x.flushing.isSome = true ∧ startFlush reason s = { s with rcd := x } := by
  unfold startFlush
  split
  · next hf => exact ⟨_, by simp [hf], rfl⟩
  · exact ⟨_, rfl, rfl⟩

/-- With nothing waiting only the header, the write in progress and, in HOLDUP, the recorder change. -/
theorem exec_retainWriteComplete_alone {n b : Nat} {hd : List Byte} {s : State} (hi : Inv s) (hh : s.held = false)
    (hw : s.retain.writing = some (b, hd)) (hp : s.retain.pend = none) (hs : s.retain.startWaits = false) :
    ∃ x : Recorder, (s.pwr.st ≠ .holdup → x = s.rcd) ∧ (s.pwr.st = .holdup → x.flushing.isSome = true) ∧
      exec (.retainWriteComplete n) s = .next { headerWritten b hd (tick n s) with rcd := x } := by
  have hdone : retDone (entry n s) = headerWritten b hd (entry n s) := retDone_alone hw hp hs
  have hcomplete := retainWriteComplete_of_ended (s := entry n s) (by simp [entry, hw]) (by rw [hdone]; rfl)
  rw [hdone] at hcomplete
  by_cases hpow : s.pwr.st = .holdup
  · obtain ⟨x, hx, hflush⟩ := startFlush_eq 1 (headerWritten b hd (entry n s))
    rw [if_pos (show (entry n s).pwr.st = .holdup from hpow), hflush] at hcomplete
    exact ⟨x, fun hne => absurd hpow hne, fun _ => hx, run_of_inv hh (by rw [hcomplete]; rfl) (hi.retentive ..)⟩
  · rw [if_neg (show ¬ (entry n s).pwr.st = .holdup from hpow)] at hcomplete
    exact ⟨s.rcd, fun _ => rfl, fun heq => absurd heq hpow, run_of_inv hh (by rw [hcomplete]; rfl) (hi.retentive ..)⟩

/-- A capture that waits begins, in HOLDUP too. -/
theorem exec_retainWriteComplete_capture {n b : Nat} {hd : List Byte} {c : Capture} {s : State} (hi : Inv s) (hh : s.held = false)
    (hw : s.retain.writing = some (b, hd)) (hp : s.retain.pend = some c) :
    exec (.retainWriteComplete n) s =
      .next (retBegin c { tick n s with
        ballast := stBytes s.ballast b hd, retain := { s.retain with writing := none, pend := none } }) := by
  have hdone := retDone_capture (s := entry n s) hw hp
  have hcomplete := retainWriteComplete_of_writing (s := entry n s) (by rw [hdone]; rfl)
  refine run_of_inv hh ?_ (hi.retentive n _ _ s.rcd)
  rw [hcomplete, hdone]
  rfl

/-- A START that waits goes on with the program's memory, and waits no longer. -/
theorem exec_retainWriteComplete_start {n b : Nat} {hd : List Byte} {s : State} (hi : Inv s) (hh : s.held = false)
    (hw : s.retain.writing = some (b, hd)) (hp : s.retain.pend = none) (hs : s.retain.startWaits = true) :
    ∃ t, exec (.retainWriteComplete n) s = .next t ∧
      ProgOnly { headerWritten b hd (tick n s) with retain := { s.retain with writing := none, startWaits := false } } t := by
  have hdone := retDone_start (s := entry n s) hw hp hs
  have hended : (retDone (entry n s)).retain.writing = none := by rw [hdone]
  have hcomplete := retainWriteComplete_of_ended (s := entry n s) (by simp [entry, hw]) hended
  have hall : ProgOnly { headerWritten b hd (entry n s) with retain := { s.retain with writing := none, startWaits := false } }
      (retainWriteComplete (entry n s)) := by
    rw [hcomplete]
    split
    · exact hdone.trans (.startFlush ..)
    · exact hdone
  have hqueue : ProgOnly { headerWritten b hd (tick n s) with retain := { s.retain with writing := none, startWaits := false } }
      { retainWriteComplete (entry n s) with pending := s.pending } := by
    unfold ProgOnly at hall ⊢
    rw [hall]
    rfl
  exact ⟨_, run_of_inv hh rfl (hqueue.inv (hi.retentive n _ _ s.rcd)), hqueue⟩

/-- Settles O30, by what waits for the end of the write: nothing, a capture, or a START. -/
theorem retainWriteCompletes : Obligations.RetainWriteCompletes := by
  intro n b hd s hi hh hw
  refine ⟨fun hp hs => ?alone, fun c hp => ?capture, fun hp hs => ?start⟩
  case alone =>
    obtain ⟨x, hmain, hholdup, hexec⟩ := exec_retainWriteComplete_alone (n := n) hi hh hw hp hs
    exact ⟨_, hexec, hmain, hholdup, rfl⟩
  case capture =>
    intro u a q
    exact ⟨retTarget_copy u, lt_retTarget_seq u, exec_retainWriteComplete_capture hi hh hw hp⟩
  case start =>
    obtain ⟨t, hexec, ht⟩ := exec_retainWriteComplete_start (n := n) hi hh hw hp hs
    unfold ProgOnly at ht
    refine ⟨t, hexec, ?_⟩
    rw [ht]
    exact ⟨rfl, rfl, rfl, rfl, rfl, rfl, rfl⟩

end Sys2Proof.Machine

/-!
SUPPORT. Reads that capture a high word (R145, R301): what a master's captures answer and when they go, reads that take nothing away, and the
two words of local time.
-/
namespace Sys2Proof.Machine

/-! ### Captures -/

/-- A capture that was made answers until it goes. -/
@[simp] theorem capture?_keepCapture_self (m : Master) (a : Nat) (v : Word) (s : State) : capture? (keepCapture m a v s) m a = some v := by
  simp [capture?, keepCapture]

/-- A master's key of a register tells the master. -/
theorem pm_master {a : Nat} (ha : a < 0x100000000) (m : Master) : pm m a / 0x100000000 = m.code + 1 := by
  unfold pm
  omega

/-- After an access of a master no capture of that master is left. -/
theorem capture?_dropCaptures {a : Nat} (ha : a < 0x100000000) (m : Master) (s : State) : capture? (dropCaptures m s) m a = none := by
  simp only [capture?, dropCaptures, Option.map_eq_none_iff, List.find?_eq_none, List.mem_filter]
  rintro c ⟨-, hc⟩ heq
  rw [beq_iff_eq.mp heq, pm_master ha] at hc
  simp at hc

/-! ### Reads that take nothing away -/

/-- A register whose read clears no bit and takes no entry from the state. -/
abbrev KeptByRead (a : Nat) (d : RegDesc) : Prop := d.rc = 0 ∧ a / 0x10000 ≠ 0x40 ∧ Reg.inRow a (Reg.PTP_TXTS_HI 0) 0x100 12 = false

theorem regRead_kept {a : Nat} {d : RegDesc} (h : KeptByRead a d) (clear : Bool) (m : Master) (s : State) :
    regRead clear d m a s = (s, some (regValue s d m a)) := by
  obtain ⟨hrc, hb, hp⟩ := h
  simp [regRead, hrc, hb, hp]

/-- A granted read of such a register answers the master's capture or else the register, and makes the capture that follows it. -/
theorem busRead_kept {r : Req} {a : Nat} {d : RegDesc} {s : State} (h : KeptByRead a d) (hg : Granted r .read a s)
    (ht : target? r.m a 4 = some (.reg d)) :
    busRead r.m r.p .read a 4 (entry r.t s) =
      (captureAfter r.m a (.reg d) (dropCaptures r.m (entry r.t s)),
        .data ((capture? s r.m a).getD (regValue (dropCaptures r.m (entry r.t s)) d r.m a))) := by
  have hc : clocked (dropCaptures r.m (entry r.t s)) r.m a (.reg d) = true := hg.clock
  have hcap : capture? (entry r.t s) r.m a = capture? s r.m a := rfl
  simp only [busRead, ht, artCheck_entry hg.allowed, hc, hcap, targetRead, regRead_kept h]
  cases capture? s r.m a <;> rfl

/-- The state after a granted read that answers a word and leaves the captures `l`. -/
def readOut (r : Req) (l : List (Nat × Word)) (v : Word) (s : State) : State := { written r s with hiCap := l, resp := .data v }

theorem Inv.readOut {s : State} (h : Inv s) (r : Req) (l : List (Nat × Word)) (v : Word) : Inv (readOut r l v s) :=
  h.congr (fun _ _ => rfl) rfl rfl rfl rfl rfl rfl rfl rfl rfl rfl

/-- A command reads such a register; which captures it leaves is the caller's to say. -/
theorem exec_captureRead {r : Req} {a : Nat} {d : RegDesc} {s : State} {l : List (Nat × Word)} (h : KeptByRead a d) (hi : Inv s)
    (hg : Granted r .read a s) (ht : target? r.m a 4 = some (.reg d))
    (hl : captureAfter r.m a (.reg d) (dropCaptures r.m (entry r.t s)) = { entry r.t s with hiCap := l }) :
    exec (.loHiCaptureRead r a) s =
      .next (readOut r l ((capture? s r.m a).getD (regValue (dropCaptures r.m (entry r.t s)) d r.m a)) s) := by
  refine run_of_inv hg.runs ?_ (hi.readOut r l _)
  show { answer (busRead r.m r.p .read a 4 (entry r.t s)) with pending := s.pending } = _
  rw [busRead_kept h hg ht, hl]
  rfl

/-- A read leaves what grants an access. -/
theorem Granted.readOut {r r' : Req} {k : AccKind} {a : Nat} {s : State} (h : Granted r' k a s) (l : List (Nat × Word)) (v : Word) :
    Granted r' k a (readOut r l v s) where
  runs := h.runs
  allowed := (artCheck_congr (s := Machine.readOut r l v s) (t := s) rfl rfl rfl rfl ..).trans h.allowed
  clock := h.clock

/-! ### The two words of local time -/

theorem timeNowLo_row : Placed Reg.TIME_NOW_LO (KeptByRead Reg.TIME_NOW_LO) := by decide +kernel

theorem timeNowHi_row : Placed Reg.TIME_NOW_HI (KeptByRead Reg.TIME_NOW_HI) := by decide +kernel

theorem regValue_timeNowLo (s : State) (d : RegDesc) (m : Master) : regValue s d m Reg.TIME_NOW_LO = lo32 (now s) := rfl

theorem regValue_timeNowHi (s : State) (d : RegDesc) (m : Master) : regValue s d m Reg.TIME_NOW_HI = hi32 (now s) := rfl

/-- A read of the low word captures the high word of the same instant. -/
theorem captureAfter_timeNowLo (m : Master) (d : RegDesc) (s : State) :
    captureAfter m Reg.TIME_NOW_LO (.reg d) s = keepCapture m Reg.TIME_NOW_HI (hi32 (now s)) s := by
  obtain ⟨dHi, hHi, -⟩ := timeNowHi_row.2.2
  have hdesc : Reg.desc? (Reg.TIME_NOW_LO + 4) = some dHi := hHi
  have hlo : capturesHi Reg.TIME_NOW_LO = true := rfl
  simp only [captureAfter, hlo, if_true, hdesc]
  rfl

/-- A read of the high word captures nothing. -/
theorem captureAfter_timeNowHi (m : Master) (d : RegDesc) (s : State) : captureAfter m Reg.TIME_NOW_HI (.reg d) s = s := by
  have hhi : capturesHi Reg.TIME_NOW_HI = false := by decide +kernel
  simp [captureAfter, hhi]

/-- The captures that a read of the low word leaves: the others' and the high word of that instant. -/
def timeCaptures (r : Req) (s : State) : List (Nat × Word) :=
  (keepCapture r.m Reg.TIME_NOW_HI (hi32 (now (entry r.t s))) (dropCaptures r.m s)).hiCap

/-- A granted read of the low word without a capture of its own answers it and captures the high word. -/
theorem exec_timeNowLo {r : Req} {s : State} (hi : Inv s) (hg : Granted r .read Reg.TIME_NOW_LO s)
    (hcap : capture? s r.m Reg.TIME_NOW_LO = none) :
    exec (.loHiCaptureRead r Reg.TIME_NOW_LO) s = .next (readOut r (timeCaptures r s) (lo32 (now (entry r.t s))) s) := by
  obtain ⟨d, hd, ht⟩ := timeNowLo_row.target
  rw [exec_captureRead hd hi hg (ht r.m) (captureAfter_timeNowLo ..), hcap]
  rfl

/-- A granted read of the high word answers the capture that it finds, which is then gone. -/
theorem exec_timeNowHi {r : Req} {s : State} {w : Word} (hi : Inv s) (hg : Granted r .read Reg.TIME_NOW_HI s)
    (hcap : capture? s r.m Reg.TIME_NOW_HI = some w) :
    exec (.loHiCaptureRead r Reg.TIME_NOW_HI) s = .next (readOut r (dropCaptures r.m s).hiCap w s) := by
  obtain ⟨d, hd, ht⟩ := timeNowHi_row.target
  rw [exec_captureRead hd hi hg (ht r.m) (captureAfter_timeNowHi ..), hcap]
  rfl

/-- Settles O14: the read of the low word leaves a capture of the high word, which the second read answers and drops. -/
theorem lowReadCapturesTheHighWord : Obligations.LowReadCapturesTheHighWord := by
  intro r r' s hi hm hlo hhi hcap
  let t := readOut r (timeCaptures r s) (lo32 (now (entry r.t s))) s
  have hkept : capture? t r'.m Reg.TIME_NOW_HI = some (hi32 (now (entry r.t s))) := by
    rw [hm]
    exact capture?_keepCapture_self r.m Reg.TIME_NOW_HI _ (dropCaptures r.m s)
  refine ⟨t, exec_timeNowLo hi hlo hcap, rfl, rfl, _, exec_timeNowHi (hi.readOut ..) (hhi.readOut ..) hkept, rfl, ?gone, ?frame⟩
  case gone =>
    rw [hm]
    exact capture?_dropCaptures (by decide) r.m t
  case frame =>
    rw [hm]
    rfl

end Sys2Proof.Machine

/-!
SUPPORT. The lane modes: the end of a lane command, what SPLIT and LOCK do where they are accepted, and their hand-over instant.
-/
namespace Sys2Proof.Machine

/-! ### The end of a lane command -/

/-- The code of SPLIT and of LOCK in LANE_CMD. -/
abbrev laneCode (split : Bool) : Nat := if split then 1 else 2

/-- A master's copy of LANE_CMD_STATUS lies above every register that the invariant reads. -/
theorem laneStatus_notMem_settleRegs (m : Master) : pm m Reg.LANE_CMD_STATUS ∉ settleRegs := by cases m <;> decide +kernel

theorem getR_laneDone_status (s : State) (m : Master) (cmd status : Nat) :
    getR (laneDone s m cmd status) (pm m Reg.LANE_CMD_STATUS) = outcome cmd s.mode status :=
  getR_setR_self ..

theorem regsBut_laneDone (s : State) (m : Master) (cmd status : Nat) : RegsBut [pm m Reg.LANE_CMD_STATUS] s (laneDone s m cmd status) :=
  regsBut_setR s _ _

theorem Inv.laneDone {s : State} (h : Inv s) (m : Master) (cmd status : Nat) : Inv (laneDone s m cmd status) :=
  h.setR (laneStatus_notMem_settleRegs m) _

/-- The invariant does not read the lanes. -/
theorem Inv.setLane {s : State} (h : Inv s) (x : LaneSt) : Inv (setLane s x) :=
  h.congr (fun _ _ => rfl) rfl rfl rfl rfl rfl rfl rfl rfl rfl rfl

/-- The invariant reads neither the time nor the cycles. -/
theorem Inv.abandonBackground_tick {s : State} (h : Inv s) (n : Nat) : Inv (abandonBackground (tick n s)) :=
  h.congr (fun _ _ => rfl) rfl rfl rfl rfl rfl rfl rfl rfl rfl rfl

/-! ### SPLIT and LOCK (R239, Table 9.3) -/

section
variable {m : Master} {split : Bool} {s : State} (hboot : s.mode ≠ .boot) (hpend : s.lane.pend = none)
  (hoff : split = true → s.lane.bOff = false) (hreq : split = false → s.img.split = false)
include hboot hpend hoff hreq

/-- Past the refusals the present mode and the engine decide. -/
theorem laneCmd_accepted : laneCmd m (laneCode split) s =
    if s.lane.split = split then laneDone s m (laneCode split) 0
    else if executing s then laneDone (setLane s { s.lane with pend := some (m, split, s.time.c) }) m (laneCode split) 2
    else laneDone (setSplit s split) m (laneCode split) 0 := by
  cases split
  case false =>
    simp [laneCmd, laneAccepts, laneCode, hboot, hpend, hreq]
  case true =>
    simp [laneCmd, laneAccepts, laneCode, hboot, hpend, hoff]

/-- While the engine is halted, or in the mode asked for, the command ends in that mode. -/
theorem laneCmd_atOnce (h : executing s = false ∨ s.lane.split = split) :
    laneCmd m (laneCode split) s = laneDone (setLane s { s.lane with split := split }) m (laneCode split) 0 := by
  rw [laneCmd_accepted hboot hpend hoff hreq]
  by_cases hmode : s.lane.split = split
  · rw [if_pos hmode, ← hmode]
    rfl
  · have hhalt : ¬ executing s = true := Bool.eq_false_iff.mp (h.resolve_right hmode)
    rw [if_neg hmode, if_neg hhalt]
    rfl

/-- While the engine executes in the other mode, the command waits. -/
theorem laneCmd_deferred (hexec : executing s = true) (hmode : s.lane.split ≠ split) :
    laneCmd m (laneCode split) s =
      laneDone (setLane s { s.lane with pend := some (m, split, s.time.c) }) m (laneCode split) 2 := by
  rw [laneCmd_accepted hboot hpend hoff hreq, if_neg hmode, if_pos hexec]

end

/-- SPLIT and LOCK write their code to LANE_CMD. -/
theorem exec_laneMode (r : Req) (split : Bool) (s : State) :
    exec (if split then .laneSplit r else .laneLock r) s = run r.t (reqWrite r Reg.LANE_CMD (BitVec.ofNat 32 (laneCode split))) s := by
  cases split <;> rfl

theorem laneCmd_row : Placed Reg.LANE_CMD (·.rwt = 0) := by decide +kernel

/-- The write of a register outside `otherBlocks` goes through `coreWrite`. -/
theorem regAct_core {a : Nat} (h : a / 0x10000 ∉ otherBlocks) (d : RegDesc) (m : Master) (v : Word) (s : State) :
    regAct d m a v s = some (coreWrite d m a v s) := by
  unfold regAct
  split <;> simp_all [otherBlocks]

/-- LANE_CMD is none of the registers that `coreWrite` asks for before it. -/
theorem coreWrite_laneCmd (d : RegDesc) (m : Master) (v : Word) (s : State) :
    coreWrite d m Reg.LANE_CMD v s = laneCmd m (Reg.LANE_CMD_cmd.get v) s := by
  rw [coreWrite, if_neg (by decide), if_neg (by decide), if_neg (by decide), if_neg (by decide), if_neg (by decide),
    if_neg (by decide), if_pos rfl]

/-- A write of the code of SPLIT or LOCK is the command. -/
theorem regAct_laneCmd (d : RegDesc) (m : Master) (split : Bool) (s : State) :
    regAct d m Reg.LANE_CMD (BitVec.ofNat 32 (laneCode split)) s = some (laneCmd m (laneCode split) s) := by
  have hcode : Reg.LANE_CMD_cmd.get (BitVec.ofNat 32 (laneCode split)) = laneCode split := by cases split <;> rfl
  rw [regAct_core (a := Reg.LANE_CMD) (by decide), coreWrite_laneCmd, hcode]

/-- A granted command that leaves the lanes `x` and answers `status` changes nothing else. -/
theorem exec_laneMode_granted {r : Req} {split : Bool} {s : State} {x : LaneSt} {status : Nat} (hi : Inv s)
    (hg : Granted r .write Reg.LANE_CMD s)
    (hcmd : laneCmd r.m (laneCode split) (dropCaptures r.m (entry r.t s)) =
      laneDone (setLane (dropCaptures r.m (entry r.t s)) x) r.m (laneCode split) status) :
    exec (if split then .laneSplit r else .laneLock r) s =
      .next (laneDone (setLane (written r s) x) r.m (laneCode split) status) := by
  obtain ⟨d, hd, ht⟩ := laneCmd_row.target
  have hact := regAct_laneCmd d r.m split (dropCaptures r.m (entry r.t s))
  rw [hcmd] at hact
  rw [exec_laneMode]
  exact (exec_write _ hg (ht r.m) hd hact).trans (congrArg _ (settle_of_inv (((hi.written r).setLane x).laneDone ..)))

/-! ### The hand-over instant (R240) -/

/-- The boundary of a period is a multiple of it. -/
theorem t0Of_emod (s : State) (p : Nat) : t0Of s p % (max 1 p : Nat) = 0 := Int.mul_emod_left ..

/-- A command that has waited 5 µs is due at every SLOW T0 while no lane fault waits. -/
theorem laneDue_slowT0 {s : State} {m : Master} {split : Bool} {c : Nat} (hpend : s.lane.pend = some (m, split, c))
    (hwait : c + 1250 ≤ s.time.c) (hfault : s.lane.fault = none) : laneDue s (t0Of s (slowPeriod s.img)) = true := by
  have hwait' : c + usT 5 ≤ s.time.c := hwait
  simp only [laneDue, hpend, t0Of_emod, hwait', hfault]
  rfl

/-- At its instant the command takes the mode, unless it is a LOCK that the running image forbids (R238). -/
theorem laneModeHandover_due {s : State} {m : Master} {split : Bool} {c : Nat} (hpend : s.lane.pend = some (m, split, c))
    (hexec : executing s = true) (hedge : edgeAt s (t0Of s (slowPeriod s.img)) = true) (hidle : clsIdle s = true)
    (hwait : c + 1250 ≤ s.time.c) (hfault : s.lane.fault = none) :
    laneModeHandover s =
      laneDone (setLane (abandonBackground s)
          { s.lane with pend := none, split := if split = false ∧ s.img.split = true then s.lane.split else split })
        m (laneCode split) (if split = false ∧ s.img.split = true then 6 else 0) := by
  have hdue := laneDue_slowT0 hpend hwait hfault
  simp only [laneModeHandover, hpend, hexec, hedge, hidle, hdue, Bool.and_self, if_true]
  cases split
  case true => rfl
  case false =>
    have himg : (abandonBackground (setLane s { s.lane with pend := none })).img.split = s.img.split := rfl
    rw [himg]
    cases s.img.split <;> rfl

/-- Settles O33: a granted command ends at once or waits, and the one that waits ends at its hand-over instant. -/
theorem laneModesChangeWhereNoCycleRuns : Obligations.LaneModesChangeWhereNoCycleRuns := by
  refine ⟨fun r split s hi hg hboot hpend hoff hreq => ?command, fun n c m split s hi hheld hpend hexec => ?handover⟩
  case command =>
    refine ⟨fun h => ?atOnce, fun hexec hmode => ?deferred⟩
    case atOnce =>
      have hcmd := laneCmd_atOnce (m := r.m) (s := dropCaptures r.m (entry r.t s)) hboot hpend hoff hreq h
      exact ⟨_, exec_laneMode_granted hi hg hcmd, ⟨rfl, getR_laneDone_status .., regsBut_laneDone _ _ _ _, rfl⟩, rfl⟩
    case deferred =>
      have hcmd := laneCmd_deferred (m := r.m) (s := dropCaptures r.m (entry r.t s)) hboot hpend hoff hreq hexec hmode
      exact ⟨_, exec_laneMode_granted hi hg hcmd, ⟨rfl, getR_laneDone_status .., regsBut_laneDone _ _ _ _, rfl⟩, rfl⟩
  case handover =>
    intro e hedge hidle hwait hfault void
    have hover := laneModeHandover_due (s := e) hpend hexec hedge hidle hwait hfault
    have hinv := ((hi.abandonBackground_tick n).setLane
      { s.lane with pend := none, split := if void then s.lane.split else split }).laneDone m (laneCode split) (if void then 6 else 0)
    refine ⟨_, run_of_inv hheld ?_ hinv, rfl, rfl, getR_laneDone_status .., regsBut_laneDone _ _ _ _, rfl⟩
    rw [hover]
    rfl

end Sys2Proof.Machine
